-- ==== Sys2Proof/Word.lean ====
section
/-! DEFINITION. The word types of the PN-416 model: bytes, 16-, 32- and 64-bit words (spec/00 R6: little-endian fields). -/

namespace Sys2Proof

abbrev Byte := BitVec 8
abbrev W16 := BitVec 16
abbrev W32 := BitVec 32
abbrev W64 := BitVec 64

/-- Sparse storage: pairs of an index and a value, in the canonical form of `Sys2Proof.Machine.Sparse.wf`. -/
abbrev Sparse (β : Type) := List (Nat × β)

end Sys2Proof
end

