-- ==== Sys2Proof/Syntax.lean ====
section
/-! DEFINITION. The commands of the PN-416: one constructor of `Instr` for each row of spec/opcode_table.json, with the
row's operands. A conductor row is 'conductor c issues this instruction'; an event row is the event itself. -/

namespace Sys2Proof

/-- A PCIe function (03 R58, R59): the PF of an I/O die, or its VF n + 1, which belongs to partition n. -/
inductive Fn where
  | pf (io : Fin 2)
  | vf (io : Fin 2) (n : Fin 16)
  deriving DecidableEq, Repr

/-- A ring of a partition, or the global error ring. -/
inductive RingRef where
  | jr (r : Fin 8)
  | cr (r : Fin 8)
  | sr (r : Fin 16)
  | er
  | ger
  deriving DecidableEq, Repr

/-- What a read of host memory brought back: its bytes, or one of the failures of 03 R81 (Unsupported Request, Completer
Abort, poison, timeout). -/
inductive HostRead where
  | data (bs : List Byte)
  | failed
  deriving DecidableEq, Repr

/-- What a page walk read (07 R184): the host physical addresses it read and the entries there, from level 3 down, or a failed read. -/
inductive WalkRead where
  | entries (es : List (W64 × W64))
  | failed
  deriving DecidableEq, Repr

/-- An error of a memory, store or cache that a command's accesses meet: the array's doing, so the command carries it. A granule is
named by its tier (T1 or T0), its number and a byte offset (18 Table 18.5). -/
inductive MemEv where
  /-- a corrected T0 or T1 error (07 R167) -/
  | corrected (t1 : Bool) (gran : Fin 128) (off : BitVec 30)
  /-- a parity error in a cache or store of a unit: the entry, read from this place, is fetched again (09 R241, 10 R262, 11 R278, 13
  R323) -/
  | refetched (unit : Byte) (t1 : Bool) (gran : Fin 128) (off : BitVec 30)
  /-- a 64-byte unit (UTA ÷ 64) of a resident tensor is uncorrectable (07 R197) -/
  | uncorrectable (p : Fin 16) (unit : Nat)
  /-- an uncorrectable error in a partition's directory granule, at this byte (07 R197) -/
  | directory (p : Fin 16) (off : BitVec 30)
  /-- an uncorrectable error in a channel's state on IO0 (12 R306) -/
  | channel (chan : BitVec 12)
  /-- an uncorrectable error in an image buffer (08 R219) -/
  | image (p : Fin 16) (cfg : Bool)
  deriving DecidableEq, Repr

/-- The width of a read of GT_NOW (15 R362). -/
inductive GtRead where
  | full | low | high
  deriving DecidableEq, Repr

/-- The queues of a conductor: one for each engine kind of 05 Table 5.13 and one for each ring VC (05 R128). -/
inductive QKind where
  | mxa | mvp | ssu | lse | gse | smu | mge | txu | hdma | vc1 | vc2
  deriving DecidableEq, Repr

/-- The kinds that rotate (21 R491). -/
inductive RotKind where
  | mxa | mvp | ssu | lse | gse
  deriving DecidableEq, Repr

/-- A host configuration-space write (03 R56, R83; 18 R436). `mps` and `mrrs` are the PCIe codes of Max Payload Size and Max Read Request
Size: 128 bytes × 2^code. -/
inductive CfgWrite where
  | sriovEnable (on : Bool)
  | busMaster (on : Bool)
  | devControl (relaxed : Bool) (mps : BitVec 3) (mrrs : BitVec 3)
  | power (d3hot : Bool)
  deriving DecidableEq, Repr

/-- A configuration-space field of 03 Table 3.1. -/
inductive CfgField where
  | vendorId | deviceId | interruptPin
  | totalVfs | initialVfs | firstVfOffset | vfStride | vfDeviceId | supportedPageSizes | sriovEnable
  | mpsSupported | devControl | busMaster | power | linkStatus
  deriving DecidableEq, Repr

/-- Where a host access falls: the function's BAR0, its doorbell page BAR2, or its configuration space. -/
inductive Space where
  | bar0 | bar2
  | config (f : CfgField)
  deriving DecidableEq, Repr

/-- How a training or a retrain attempt ended (16 R372): no lock, or an exchange naming the peer's ID, ring position,
segment size (as a count) and the estimated loss in 0.25 dB units. -/
inductive TrainRes where
  | fail
  | exchange (peer : BitVec 17) (pos size : Nat) (loss : Byte)
  deriving DecidableEq, Repr

/-- How a start-up stage ended (20 R472, R479): passed, failed at a unit, or the flash could not be read. -/
inductive StageRes where
  | pass
  | unitFail (unit : Byte)
  | readError
  deriving DecidableEq, Repr

/-- A tray bus sample as the wire gave it (19 R449): a bus failure, or sixteen registers and whether the PEC matched. -/
inductive TbRaw where
  | nackAddr | nackData | conflict | sclTimeout
  | regs (r : Vector W16 16) (pecOk : Bool)
  deriving DecidableEq, Repr

/-- The thresholds of 16 R379. -/
inductive ErrTh where
  | corr | uncorr | retry
  deriving DecidableEq, Repr

/-- A received ring message's header (17 Table 17.2), less OP, OFFSET and the routing bits. -/
structure MsgHdr where
  src : BitVec 17
  sptn : Fin 16
  dptn : Fin 16
  xid : W16
  deriving DecidableEq, Repr

/-! Operand forms of the Folainar word (05 Tables 5.3, 5.4, 5.12). `p` is the PRED field of every form. -/

/-- RD, RA, RB (ALU, PRED, VMEM, TALLY classes). -/
structure R3 where
  p : Fin 8
  rd : Fin 32
  ra : Fin 32
  rb : Fin 32
  deriving DecidableEq, Repr

/-- RD, RA, IMM12 (ALUI, LOAD, STORE, JALR classes). -/
structure I12 where
  p : Fin 8
  rd : Fin 32
  ra : Fin 32
  imm : BitVec 12
  deriving DecidableEq, Repr

/-- RD and a 20-bit field (LUI, JAL). -/
structure U20 where
  p : Fin 8
  rd : Fin 32
  imm : BitVec 20
  deriving DecidableEq, Repr

/-- RD, RA, RB, W (VEC class). -/
structure V3 where
  p : Fin 8
  rd : Fin 32
  ra : Fin 32
  rb : Fin 32
  w : Bool
  deriving DecidableEq, Repr

/-- RD, RA and the 10-bit field [14:5] of DLD and DST. -/
structure DMem where
  p : Fin 8
  rd : Fin 32
  ra : Fin 32
  off : BitVec 10
  deriving DecidableEq, Repr

/-- RD, RA, the register at [14:10] and W at [4:3] of the DESC register forms. -/
structure DReg where
  p : Fin 8
  rd : Fin 32
  ra : Fin 32
  rs : Fin 32
  w : Fin 4
  deriving DecidableEq, Repr

/-- RD, RA, RB, COUNT - 1, TIER, NT (TENSOR class). -/
structure Ten where
  p : Fin 8
  rd : Fin 32
  ra : Fin 32
  rb : Fin 32
  cnt : Fin 16
  tier : Fin 4
  nt : Bool
  deriving DecidableEq, Repr

/-- RD, RA, RB, ROP, VC (RING class). -/
structure Rng where
  p : Fin 8
  rd : Fin 32
  ra : Fin 32
  rb : Fin 32
  rop : Fin 8
  vc : Fin 4
  deriving DecidableEq, Repr

/-- The fields of an engine-issue pair of words, less ENG and OP (05 Table 5.12). -/
structure EngF where
  p : Fin 8
  sp : Fin 32
  dD : Fin 16
  den : Bool
  notally : Bool
  accum : Bool
  dA : Fin 16
  dB : Fin 16
  dC : Fin 16
  tally : BitVec 17
  deriving DecidableEq, Repr

/-- RD, RA, RB and T (END). -/
structure EndF where
  p : Fin 8
  rd : Fin 32
  ra : Fin 32
  rb : Fin 32
  t : Bool
  deriving DecidableEq, Repr

/-- RD and IMM10 (CSRR, TRAP, TIME). -/
structure CtlF where
  p : Fin 8
  rd : Fin 32
  imm : BitVec 10
  deriving DecidableEq, Repr

/-- A command of the block. The operand `m` of a command lists the errors that its accesses of memories, stores and caches meet (`State.meet`), by
default none; an access falls in BAR0 unless `sp` says otherwise. -/
inductive Instr where
  -- host accesses, rings and jobs (03, 04)
  | registerWrite (fn : Fn) (off : BitVec 25) (bytes : Nat) (val : W64) (sp : Space := .bar0)
  | rcRegisterRead (fn : Fn) (off : BitVec 25) (bytes : Nat) (sp : Space := .bar0)
  | gtNowRead (fn : Fn) (half : GtRead)
  | jrTailDb (fn : Fn) (r : Fin 8) (val : W32)
  | fetchBatch (p : Fin 16) (r : Fin 8)
  | descriptorArrival (p : Fin 16) (r : Fin 8) (d : Option (BitVec 1024)) (wait : Bool := false)
  | argBlockFetched (job : Nat) (d : HostRead)
  | jobStart (p : Fin 16) (m : List MemEv := [])
  | deferPromote (p : Fin 16) (cls : Fin 4)
  | deadlineExpiry (job : Nat)
  | jobFinalCompletion (job : Nat)
  | crHeadDb (fn : Fn) (r : Fin 8) (val : W32)
  | srHeadDb (fn : Fn) (r : Fin 16) (val : W32)
  | erHeadDb (fn : Fn) (val : W32)
  | gerHeadDb (fn : Fn) (val : W32)
  | faultResumeDb (fn : Fn) (val : W32)
  | cancelDb (fn : Fn) (val : W32)
  | ringEnable (fn : Fn) (p : Fin 16) (ring : RingRef) (size : BitVec 3)
  | ringDisable (fn : Fn) (p : Fin 16) (ring : RingRef)
  | errorRingDisable (fn : Fn) (p : Option (Fin 16))
  | functionLevelReset (fn : Fn)
  | hostLinkDown (io : Fin 2)
  | linkLossTimeout (io : Fin 2)
  | perst1Assert
  -- scalar, predicate, load, store and jump instructions (05 Table 5.5)
  | add (c : Fin 32) (o : R3) | sub (c : Fin 32) (o : R3) | and (c : Fin 32) (o : R3) | or (c : Fin 32) (o : R3)
  | xor (c : Fin 32) (o : R3) | sll (c : Fin 32) (o : R3) | srl (c : Fin 32) (o : R3) | sra (c : Fin 32) (o : R3)
  | mul (c : Fin 32) (o : R3) | mulh (c : Fin 32) (o : R3) | mulhu (c : Fin 32) (o : R3)
  | min (c : Fin 32) (o : R3) | max (c : Fin 32) (o : R3) | minu (c : Fin 32) (o : R3) | maxu (c : Fin 32) (o : R3)
  | addi (c : Fin 32) (o : I12) | andi (c : Fin 32) (o : I12) | ori (c : Fin 32) (o : I12) | xori (c : Fin 32) (o : I12)
  | slli (c : Fin 32) (o : I12) | srli (c : Fin 32) (o : I12) | srai (c : Fin 32) (o : I12)
  | lui (c : Fin 32) (o : U20)
  | ceq (c : Fin 32) (o : R3) | cne (c : Fin 32) (o : R3) | clt (c : Fin 32) (o : R3) | cltu (c : Fin 32) (o : R3)
  | cge (c : Fin 32) (o : R3) | cgeu (c : Fin 32) (o : R3)
  | pand (c : Fin 32) (o : R3) | por (c : Fin 32) (o : R3) | pxor (c : Fin 32) (o : R3) | pnot (c : Fin 32) (o : R3)
  | ldb (c : Fin 32) (o : I12) | ldh (c : Fin 32) (o : I12) | ldw (c : Fin 32) (o : I12) | ldd (c : Fin 32) (o : I12)
  | ldbu (c : Fin 32) (o : I12) | ldhu (c : Fin 32) (o : I12) | ldwu (c : Fin 32) (o : I12) | ldx (c : Fin 32) (o : I12) (m : List MemEv := [])
  | stb (c : Fin 32) (o : I12) | sth (c : Fin 32) (o : I12) | stw (c : Fin 32) (o : I12) | std (c : Fin 32) (o : I12)
  | stx (c : Fin 32) (o : I12)
  | jal (c : Fin 32) (o : U20) | jalr (c : Fin 32) (o : I12)
  -- vector instructions (05 Table 5.6)
  | vadd (c : Fin 32) (o : V3) | vadds (c : Fin 32) (o : V3) | vsub (c : Fin 32) (o : V3) | vmul (c : Fin 32) (o : V3)
  | vmax (c : Fin 32) (o : V3) | vmin (c : Fin 32) (o : V3) | vand (c : Fin 32) (o : V3) | vor (c : Fin 32) (o : V3)
  | vxor (c : Fin 32) (o : V3) | vshl (c : Fin 32) (o : V3) | vshr (c : Fin 32) (o : V3) | vsplat (c : Fin 32) (o : V3)
  | vext (c : Fin 32) (o : V3) | vredadd (c : Fin 32) (o : V3) | vredmax (c : Fin 32) (o : V3)
  | vcmpgt (c : Fin 32) (o : V3) | vsel (c : Fin 32) (o : V3) | vexp2 (c : Fin 32) (o : V3) | vlog2 (c : Fin 32) (o : V3)
  | vbsort (c : Fin 32) (o : V3) | vmov (c : Fin 32) (o : V3)
  | vld (c : Fin 32) (o : R3) (m : List MemEv := []) | vst (c : Fin 32) (o : R3)
  -- descriptor, tally, tensor and ring instructions (05 Tables 5.7, 5.9, 5.10, R126)
  | dld (c : Fin 32) (o : DMem) | dst (c : Fin 32) (o : DMem)
  | dsetw (c : Fin 32) (o : DReg) | dgetw (c : Fin 32) (o : DReg) | daddo (c : Fin 32) (o : DReg) | dmov (c : Fin 32) (o : DReg)
  | wait (c : Fin 32) (o : R3) | waitTimeout (c : Fin 32)
  | signal (c : Fin 32) (o : R3) | tadd (c : Fin 32) (o : R3) | tread (c : Fin 32) (o : R3)
  | pin (c : Fin 32) (o : Ten) | unpin (c : Fin 32) (o : Ten) | mig (c : Fin 32) (o : Ten)
  | rsend (c : Fin 32) (o : Rng) | rrecv (c : Fin 32) (o : Rng) | rreduce (c : Fin 32) (o : Rng)
  -- engine issue (05 Table 5.13)
  | xmul (c : Fin 32) (o : EngF) | mvmul (c : Fin 32) (o : EngF) | topk (c : Fin 32) (o : EngF) | lscan (c : Fin 32) (o : EngF)
  | gath (c : Fin 32) (o : EngF) | scat (c : Fin 32) (o : EngF)
  | kvcmpOpen (c : Fin 32) (o : EngF) | kvcmpReserve (c : Fin 32) (o : EngF) | kvcmpSetlen (c : Fin 32) (o : EngF)
  | kvcmpCompact (c : Fin 32) (o : EngF) | kvcmpState (c : Fin 32) (o : EngF) | kvcmpClose (c : Fin 32) (o : EngF)
  | samp (c : Fin 32) (o : EngF) | mconv (c : Fin 32) (o : EngF) | ttok (c : Fin 32) (o : EngF) | tdtk (c : Fin 32) (o : EngF)
  | hrd (c : Fin 32) (o : EngF) | hwr (c : Fin 32) (o : EngF)
  -- control (05 Table 5.17)
  | nop (c : Fin 32) (o : CtlF) | endc (c : Fin 32) (o : EndF) | drain (c : Fin 32) (o : CtlF) | time (c : Fin 32) (o : CtlF)
  | csrr (c : Fin 32) (o : CtlF) | trap (c : Fin 32) (o : CtlF)
  -- engine starts and completions; `parity` marks a parity error that fails the operation (06 R164), `m` the errors met on the way
  | engineOpStart (c : Fin 32) (k : QKind) (m : List MemEv := [])
  | xmulDone (op : Nat) (parity : Bool) (m : List MemEv := []) | mvmulDone (op : Nat) (parity : Bool) (m : List MemEv := []) | topkDone (op : Nat) (parity : Bool) (m : List MemEv := [])
  | lscanDone (op : Nat) (parity : Bool) (m : List MemEv := []) | gathDone (op : Nat) (parity : Bool) (m : List MemEv := []) | scatDone (op : Nat) (parity : Bool) (m : List MemEv := [])
  | compactDone (op : Nat) (parity : Bool) (m : List MemEv := []) | sampDone (op : Nat) (parity : Bool) (m : List MemEv := []) | mconvDone (op : Nat) (parity : Bool) (src cb : HostRead) (m : List MemEv := [])
  | ttokDone (op : Nat) (parity : Bool) (m : List MemEv := []) | tdtkDone (op : Nat) (parity : Bool) (m : List MemEv := [])
  | hrdDone (op : Nat) (d : HostRead) (m : List MemEv := []) | hwrDone (op : Nat) (m : List MemEv := [])
  | mgeLoadDone (p : Fin 16) (base : Nat) (d : HostRead) (m : List MemEv := [])
  | writebackDone (p : Fin 16) (base : Nat) (m : List MemEv := [])
  | moveDone (p : Fin 16) (base : Nat) (m : List MemEv := [])
  -- translation, directory, zeroing, KV and constraint registers (07, 12, 13)
  | pageWalkDone (p : Fin 16) (cfg : Bool) (page : BitVec 36) (w : WalkRead)
  | faultHoldExpiry (p : Fin 16) (fid : W16)
  | iotlbInvRange (fn : Fn) (p : Fin 16) | iotlbInvAll (fn : Fn) (p : Fin 16) | iotlbInvDone (p : Fin 16)
  | create (fn : Fn) (p : Fin 16) | destroy (fn : Fn) (p : Fin 16) | query (fn : Fn) (p : Fin 16) | flush (fn : Fn) (p : Fin 16)
  | zeroingComplete (p : Fin 16)
  | kvPoolWrite (fn : Fn) (p : Fin 16) (val : W32) | kvGeomWrite (fn : Fn) (p : Fin 16) (val : W32)
  | load (fn : Fn) (p : Fin 16) (set : Byte) | unload (fn : Fn) (p : Fin 16) (set : Byte)
  | csLoadDone (p : Fin 16) (m : List MemEv := []) | csUnloadDone (p : Fin 16)
  -- partitions, swaps (08)
  | cfgWindowWrite (fn : Fn) (p : Fin 16) (cfg : Bool) (off : BitVec 9) (bytes : Nat) (val : W64)
  | fence (fn : Fn) (p : Fin 16) | unfence (fn : Fn) (p : Fin 16) | partitionReset (fn : Fn) (p : Fin 16)
  | swap (fn : Fn) (p : Fin 16) | swapCancel (fn : Fn) (p : Fin 16)
  | swapValidationDone (p : Fin 16) (img : HostRead) | swapTakeEffect (p : Fin 16)
  | gswap (fn : Fn) | gswapTakeEffect
  -- clocks and time (15)
  | gtSet (fn : Fn) (val : W64) | cclkStep
  | timeExchange (port : Fin 4) | timeMsg (port : Fin 4) (neighbour : W64) (delay : Nat)
  | holdoverTimeout | pllLockLoss (dom : Fin 9) | oscillatorStop | fabricError (link : Fin 14) (corrected : Bool)
  -- error acknowledgement (18)
  | erAck (fn : Fn) (p : Fin 16) (seq : W32) | gerAck (fn : Fn) (seq : W32)
  -- Drawlink (16)
  | flitReceived (port : Fin 4) (flit : BitVec 2048) (shared first : Option (Fin 545)) (bufErr : Bool := false)
  | replayTimeout (port : Fin 4) | dlkErrThreshold (port : Fin 4) (th : ErrTh) | signalLoss (port : Fin 4)
  | trainingPatternDetected (port : Fin 4) | autoTrainingTimer (port : Fin 4)
  | retrainAttemptDone (port : Fin 4) (r : TrainRes) | fullTrainingDone (port : Fin 4) (r : TrainRes)
  | retrain (fn : Fn) (port : Fin 4) | bypass (fn : Fn) (sw : Fin 2)
  | joinWindowExpiry (pair : Fin 2) | switchSenseTimeout (pair : Fin 2) | pairDownTimeout (pair : Fin 2)
  -- ring messages and timers (17)
  | req (h : MsgHdr) (len : W64) (tag : BitVec 14) (vc : BitVec 2) (rop : BitVec 3) (fmt : Byte) (rank : BitVec 6)
  | reqRetry (xid : W16) | grantIssue (src : BitVec 17) (xid : W16)
  | grant (h : MsgHdr) (first : W32) (n : W16)
  | data (h : MsgHdr) (off : BitVec 28) (payload : BitVec 1888)
  | xack (h : MsgHdr) (first : W32) (n : W16)
  | refuse (h : MsgHdr) (reason : Byte)
  | tally (h : MsgHdr) (t : BitVec 17) (signal : Bool) (val : W32)
  | topo (port : Fin 4) (kind : Byte) (dev : BitVec 17) (lport : Byte)
  | state (port : Fin 4) (src : BitVec 17) (ports : BitVec 12)
  | stateBroadcast | xferTimeout (xid : W16) (sender : Bool) (partner : BitVec 17)
  | hopAudit (port : Fin 4) (peerFree : Nat) (inFlight : Nat) | creditReclaim (port : Fin 4) | leaveTimeout (pair : Fin 2)
  -- power, reset, start-up, flash (20)
  | vsbUp (addr : BitVec 3) (autoOn : Bool) (testMode : Bool) (pwrEn : Bool) (pwrWarn : Bool)
  | vsbLoss | startCondition (recovery : Bool) | startupStageDone (r : StageRes)
  | pwrEnRise | pwrEnFall | pwrWarnAssert | pwrWarnDeassert | vinOutOfRange (v : W16)
  | shutdown (fn : Fn) (stayOff : Bool) | offHoldExpiry | perst0Assert | perst0Deassert
  | pwrClrst (fn : Fn) (mask : W32) | go (fn : Fn)
  | flashRead (fn : Fn) | flashProgram (fn : Fn) | flashErase (fn : Fn) | flashCmdDone (ok : Bool)
  -- management bus (19); `pec`: the controller takes (reads) or sends (writes: its value) a PEC byte
  | identity (pec : Bool) | health (pec : Bool) | temps (pec : Bool) | power (pec : Bool) | bypassStatus (pec : Bool)
  | ring (pec : Bool) | logHead (pec : Bool) | logSelect (val : Byte) (pec : Option Byte) | logSelectRead (pec : Bool)
  | logRead (pec : Bool) | busStatus (pec : Bool) | scratchWrite (bs : List Byte) (pec : Option Byte) | scratchRead (pec : Bool)
  | mbSclTimeout (cmd : Byte) | mbSdaTimeout | mirrorUpdate
  -- tray bus (19)
  | tbSampleSlot (scl : Bool) (sda : Bool) | tbSampleDone (r : TbRaw) (pin : W16) | tbSclTimeout (scl : Bool) (freedAt : Option (Fin 9)) | tbSdaTimeout (scl : Bool) (freedAt : Option (Fin 9))
  -- thermal and rotation (21)
  | dieSensorRead (die : Fin 4) (t : Vector W16 64) | ladderRise | ladderFall
  | monthBoundary (die : Fin 4) | rotationStep (die : Fin 4) (k : RotKind) | rotHoldExpiry (die : Fin 4) (k : RotKind)
  -- TAP (22)
  | idcode | samplePreload (capture : BitVec 148) | extest | extestPulse | extestTrain | clamp | highz
  | dbg (write : Bool) (off : BitVec 12) (val : W64) | tapBypass (code : Byte) | tapReset
  -- debug (22)
  | dbgHalt (fn : Fn) (mask : W32) | dbgStep (fn : Fn) (mask : W32) | dbgGo (fn : Fn) | relock (fn : Fn) | dbgVerifyDone
  -- later rows
  | hostLinkUp (io : Fin 2) (width : BitVec 2) (rate : BitVec 3) | perst1Deassert | pcieConfigWrite (fn : Fn) (w : CfgWrite)
  | gswapCheckDone | mainRailsDown | vinInRange (v : W16) | clusterResetDone (c : Fin 32)
  | engineSliceExpiry (k : QKind) (unit : Nat) | dlkErrWindowEnd (port : Fin 4) | pllLockRegained (dom : Fin 9)
  | mbBadCommand (code : Byte)
  deriving DecidableEq, Repr

end Sys2Proof
end

