-- ==== Sys2Proof/Machine/State.lean ====
section
/-! DEFINITION. The state of the PN-416 as plain data, and `State.reset`: the machine right after the standby rail has come
up (20 R481), with every register at the Reset column of its table. Each field's docstring names the rule that gives it. -/

namespace Sys2Proof.Machine

/-- A run of the block never ends in a fault: every error of 18 is the device's own behaviour, a next state with the
record written and the job, partition or device contained, so no constructor is needed. -/
inductive Fault
  deriving DecidableEq, Repr

/-- Why a command has no meaning. -/
inductive Refusal where
  /-- Raised by an arm of `exec` for a row that has no meaning yet. Safe: nothing is claimed of it. -/
  | notModelled (mnemonic : String)
  /-- Raised by a command whose operand data is not of the length its rule fixes (an argument block of another length, for
  one): no such event exists on the hardware. Safe: nothing is claimed of it. -/
  | illFormed
  deriving DecidableEq, Repr

/-- Sparse bytes: T0/T1 contents by UTA, scalar data and instruction stores, flash, recovery window. -/
abbrev Cells := List Host.Cell

/-! ## Fuses, power, I/O dies -/

/-- What is fused at manufacture (22 R509, R514; 20 R470). -/
structure Fuses where
  stackCode : BitVec 2
  i2 : Bool
  serial : W64
  locked : Bool
  keyProg : BitVec 4
  keyRevoked : BitVec 4
  keyHash : Vector (BitVec 384) 4
  secVerMin : W16
  deriving DecidableEq, Repr

/-- POWER states (19 Table 19.5). -/
inductive PwrSt where
  | off | starting | on | shuttingDown | offHold
  deriving DecidableEq, Repr

/-- The always-on power state machine and the PWR block (20 R464-R482). -/
structure Pwr where
  vsb : Bool
  st : PwrSt
  stage : BitVec 3
  failUnit : Byte
  rails : Bool
  autoOn : Bool
  recovStrap : Bool
  testMode : Bool
  pwrEn : Bool
  pwrWarn : Bool
  /-- a rising edge of PWR_EN counted for 20 R464 since the device entered OFF -/
  edge : Bool
  stayOff : Bool
  vinOk : Bool
  vin : W16
  pin : W16
  recovMode : Bool
  sdCause : BitVec 3
  triggers : BitVec 6
  supplyReturned : Bool
  leaveTimeout : Bool
  bootSlot : Bool
  fromWindow : Bool
  bootMode : BitVec 2
  failA : BitVec 4
  failB : BitVec 4
  failR : BitVec 4
  secVer : W16
  clrst : W32
  recovLen : BitVec 23
  window : Cells
  flashAddr : BitVec 26
  /-- the address of the command in progress -/
  flashAt : BitVec 26
  flashOp : BitVec 2
  flashErr : Bool
  flashDropped : Bool
  flashBuf : BitVec 2048
  flash : Cells
  upAt : Option W64
  /-- PERST0# and PERST1# levels, true while asserted (22 Table 22.1) -/
  perst0 : Bool
  perst1 : Bool
  /-- the last loss of the main rails was preceded by the shutdown sequence, or was seen in OFF or OFF_HOLD (20 R480) -/
  cleanOff : Bool
  /-- start-up is the rerun after a warm reset (20 R472) -/
  warm : Bool
  deriving DecidableEq, Repr

/-- One IOTLB entry (07 R185, R186): `pages` 4 KiB pages from IOVA page `page` map to physical address `pa` on. -/
structure Tlb where
  ptn : Fin 16
  cfg : Bool
  page : Nat
  pages : Nat
  pa : Nat
  r : Bool
  w : Bool
  deriving DecidableEq, Repr

/-- One I/O die's host link (03), with its IOTLB, most recently used entry first. Index 0 of a vector is the PF, index
n + 1 the VF of partition n. -/
structure IoDie where
  link : Bool
  width : BitVec 2
  rate : BitVec 3
  downAt : Option W64
  inReset : Bool
  sriov : Bool
  bme : Vector Bool 17
  relaxed : Vector Bool 17
  mps : Vector (BitVec 3) 17
  mrrs : Vector (BitVec 3) 17
  d3 : Vector Bool 17
  tlb : List Tlb
  deriving DecidableEq, Repr

/-! ## Partition block -/

/-- A job ring (03 R62-R65, R84). -/
structure JRing where
  base : W64
  mirror : W64
  en : Bool
  halt : Bool
  size : BitVec 3
  head : BitVec 12
  tail : BitVec 12
  fetched : W32
  deriving DecidableEq, Repr

/-- A record waiting to be posted to a completion or stream ring. `op` is, for a stream record, the operation that made it; for a
completion record, some 0 marks a refused job's notice and some (n + 1) the final record of job n. -/
structure RecOut where
  data : BitVec 512
  op : Option Nat
  deriving DecidableEq, Repr

/-- A completion or stream ring (03 R66, R68, R78, R84, R523). `head` is the consumer index, `resv` the reserved slots. -/
structure PRing where
  base : W64
  en : Bool
  size : BitVec 3
  stall : Bool
  wfail : Bool
  tail : BitVec 12
  phase : Bool
  head : BitVec 12
  resv : Nat
  clearing : Bool
  outq : List RecOut
  deriving DecidableEq, Repr

/-- A HANDLING flag with its parent's SEQ and nested count (18 R424). -/
structure Hand where
  unit : Byte
  parent : W32
  nested : Nat
  deriving DecidableEq, Repr

/-- A record, or an EXCEPTION pair, issued and not yet written (18 R423, R428, R432). -/
structure WaitRec where
  recs : List (BitVec 256)
  sev : Nat
  deriving DecidableEq, Repr

/-- An error ring (18 R419, R438). `wfail` is WFAIL of a partition ring and HALT of the global ring. -/
structure ErrRing where
  base : W64
  en : Bool
  wfail : Bool
  tail : BitVec 10
  phase : Bool
  head : BitVec 10
  ackDrop : Bool
  nextSeq : W32
  ovf : W32
  hand : List Hand
  waitq : List WaitRec
  deriving DecidableEq, Repr

/-- An entry point of a program image (05 Table 5.22). -/
structure Entry where
  pc : Nat
  k : Nat
  t0 : Nat
  t1 : Nat
  kv : Nat
  buf : Nat
  deriving DecidableEq, Repr

/-- An image buffer (08 R206, R219). -/
structure Image where
  valid : Bool
  bad : Bool
  text : Cells
  textEnd : Nat
  sdata : Cells
  entries : List Entry
  deriving DecidableEq, Repr

/-- SWAP_STATUS.STATE (08 Table 8.3). -/
inductive SwapSt where
  | idle | validating | waitFence | waitResource | pending | done | refused
  deriving DecidableEq, Repr

/-- The swap registers of a partition, and whether its swap in progress has claimed its resources (08 R205-R216). -/
structure Swap where
  st : SwapSt
  active : Bool
  reason : BitVec 4
  collapsed : Bool
  wrDrop : Bool
  releasing : Bool
  badOff : BitVec 9
  holder : BitVec 4
  claims : Bool
  /-- the swap has entered VALIDATING (08 R207) -/
  began : Bool
  /-- its place in the order of SWAP arrival over the device (08 R216) -/
  arr : Nat
  /-- what the last boundary dropped has gone to zeroing -/
  asked : Bool
  deriving DecidableEq, Repr

/-- Frames by granule; (true, g) is T1 granule g, (false, g) T0 granule g. -/
abbrev Frames := List ((Bool × Nat) × Nat)

/-- Frames set aside by granule, each with the tensor whose eviction write-back has still to read it, if one does (07 R178). -/
abbrev Claim := List ((Option Nat × (Bool × Nat)) × Nat)

/-- What a moving tensor is doing (07 R175, R177, R178). -/
inductive Mv where
  | load | writeback (evict : Bool) | flush | move (toT1 : Bool)
  deriving DecidableEq, Repr

/-- What follows when a tensor's present move completes (07 R175, R193): a move of its own, with its destination frames, and
the pin of a PIN that waited. -/
structure NextMv where
  go : Option Mv
  cause : Option Nat
  dest : Claim
  pinJob : Option Nat
  deriving DecidableEq, Repr

/-- A tensor directory entry (07 Table 7.2) with its frames by granule. -/
structure Tensor where
  base : Nat
  size : Nat
  backed : Bool
  place : BitVec 2
  home : BitVec 3
  t2 : Nat
  pins : Nat
  tier : BitVec 2
  dirty : Bool
  die : Fin 4
  lastUnpin : W64
  /-- HOME 7: the die on which it was first placed (07 Table 7.2) -/
  homed : Option (Fin 4)
  frames : Frames
  /-- frames reserved at the destination of a load or move in progress -/
  dest : Claim
  moving : Option Mv
  /-- the job that caused the move, whose class it takes (07 R521) -/
  cause : Option Nat
  next : List NextMv
  /-- pins of ended jobs that fall when the load in progress completes (07 R195) -/
  drop : Nat
  deriving DecidableEq, Repr

/-- A PIN, MIG or UNPIN whose tally waits: on tensors still to arrive, or on operations still to complete. -/
structure TWait where
  job : Nat
  bases : List Nat
  ops : List Nat
  unpin : Bool
  tally : Option Nat
  deriving DecidableEq, Repr

/-- A directory command that waits (07 R172, R173): its OP, the tensor base. -/
structure TdWait where
  op : Nat
  base : Nat
  deriving DecidableEq, Repr

/-- Resources whose zeroing is under way (07 R190, R191), as masks, and why. -/
inductive ZWhy where
  | fence | reset | release | create
  deriving DecidableEq, Repr

structure Zero where
  t0 : BitVec 96
  t1 : BitVec 128
  tally : BitVec 128
  cl : BitVec 32
  why : ZWhy
  deriving DecidableEq, Repr

/-- The RC counters of a partition block, in the order of their offsets. -/
inductive Ctr where
  | hlDbDrop
  | adm0 | adm1 | adm2 | adm3 | adm4 | adm5 | adm6 | adm7 | wuOverrun | dlMiss
  | cndExc | cndQstall
  | mxaBusy | mxaStall | mvpBusy | accSat | engZero
  | fltCnt | fltFail | noRoom | evict | wb | zeroStall
  | swapCnt
  | txuRepl | txuFb | txuReject | txuDtkRepl | txuFlush | txuCtxDrop
  | lseBusy | lseLutLoad | lseMaxList | ssuEnter | srchStatSat
  | gseBusy | gseHit | gseFetch | tblOor | tblHotHits | tblHotCnt
  | kvNoroom | kvcmpCnt | kvMoved | kvRollback
  | smuRow | csMask | csForce | csExhaust | smuSkip
  | cvtSat | cvtNan
  | ringXfer | ringLost | ringDup
  deriving DecidableEq, Repr

/-- The number of counters, with the remainder of each counter that counts in units of 1,024. -/
abbrev nCtr : Nat := 56

/-- A fetched descriptor that has arrived and is still to be decided (04 R90). -/
structure Undec where
  ring : Fin 8
  slot : Nat
  fseq : W32
  desc : BitVec 1024
  deriving DecidableEq, Repr

/-- One partition: its two configuration sets, control, rings, directory, tensors and every register of its PTN block. -/
structure Ptn where
  cfgA : BitVec 4096
  cfgB : BitVec 4096
  imgA : Image
  imgB : Image
  fenced : Bool
  fencing : Bool
  activeValid : Bool
  unfenceDrop : Bool
  fenceCause : BitVec 4
  /-- the fence in force is that of a partition reset, which needs no UNFENCE (08 R212) -/
  resetting : Bool
  swap : Swap
  jr : Vector JRing 8
  cr : Vector PRing 8
  sr : Vector PRing 16
  er : ErrRing
  /-- descriptors fetched and not yet decided, in the order of their arrival; the job ring whose descriptor was decided last (04 R90) -/
  undec : List Undec
  turn : Fin 8
  /-- cancels of undecided jobs: ring, slot and fetch number (04 R101) -/
  cancels : List (Fin 8 × Nat × W32)
  cnt : Vector W32 nCtr
  frac : Vector Nat nCtr
  waitLimit : W32
  excCause : Byte
  excCluster : BitVec 5
  excPc : W16
  dir : List Tensor
  mem : Cells
  /-- 64-byte units (UTA ÷ 64) whose resident copy is uncorrectable (07 R197) -/
  bad : List Nat
  tdBusy : Bool
  tdResult : BitVec 3
  tdDropped : Bool
  tdArg0 : W64
  tdArg1 : W32
  tdArg2 : W64
  tdRes : Vector W64 4
  tdWait : Option TdWait
  waits : List TWait
  invAddr : W64
  invLen : W32
  invBusy : Bool
  invDropped : Bool
  /-- the reads that used a translation being invalidated (07 R186) -/
  invWait : List Nat
  nextFid : W16
  zero : List Zero
  idxValid : BitVec 32
  idxCur : BitVec 32
  idxDrain : Vector (W16 × W16) 32
  tblValid : BitVec 64
  tblCur : BitVec 64
  tblDrain : Vector (W16 × W16) 64
  maxList : BitVec 21
  maxIndex : BitVec 5
  hotIdx : W64
  hotThresh : W32
  kvPages : BitVec 19
  kvRow : BitVec 13
  kvNreg : BitVec 12
  kvWrDrop : Bool
  csLoaded : BitVec 256
  csBusy : Bool
  csResult : BitVec 3
  csDropped : Bool
  csOp : BitVec 2
  csSet : Byte
  csA : BitVec 13
  csB : BitVec 13
  deriving DecidableEq, Repr

/-! ## Jobs, conductors, operations -/

/-- Where a job stands (04 R89-R100): waiting in a defer queue, admitted, running, or ended with its final record still to be
written. -/
inductive JobPh where
  | deferred | admitted | running | ended
  deriving DecidableEq, Repr

/-- A deferred or admitted job. -/
structure Job where
  id : Nat
  ptn : Fin 16
  ring : Fin 8
  slot : Nat
  fseq : W32
  desc : BitVec 1024
  ph : JobPh
  cfg : Bool
  order : Nat
  k : Nat
  /-- it holds an admission slot of its class (04 R89) -/
  slotHeld : Bool
  start : W64
  startCyc : Nat
  clusters : List (Fin 32)
  /-- index and table slots bound at the decision (10 R246, 11 R267) -/
  idx : List (Nat × Bool)
  tbl : List (Nat × Bool)
  /-- unused frames of the admission reservation, by granule (04 R91, 07 R179) -/
  resT0 : Claim
  /-- the T0 frames of its argument block, held for its whole life (05 R133, R134) -/
  argT0 : Claim
  resT1 : Claim
  resKv : Nat
  resBuf : Nat
  argReady : Bool
  arg : Cells
  pins : List Nat
  exhausted : Bool
  /-- generation channels that have written, with their stream ring -/
  chans : List (Nat × Nat)
  resultLen : W32
  result : BitVec 128
  trunc : Bool
  deriving DecidableEq, Repr

/-- Operations of 05 Table 5.13 and R126. -/
inductive EngOp where
  | xmul | mvmul | topk | lscan | gath | scat | kvcmp | samp | mconv | ttok | tdtk | hrd | hwr | rsend | rrecv | rreduce
  deriving DecidableEq, Repr

/-- An exception: its cause (05 Table 5.19), the descriptor register at fault, and the address it or a structure names, with its
segment and FORM (18 Table 18.5, EXC_ADDR). -/
structure Exc where
  cause : Nat
  dreg : Option (Fin 16)
  addr : Option (Nat × Nat × Bool)
  deriving DecidableEq, Repr

/-- Why an operation fails its job. -/
inductive EngErr where
  /-- an EXCEPTION of 05 Table 5.19 -/
  | exc (e : Exc)
  /-- a JOB_DATA record: cause and bytes 20-27 (18 Table 18.5) -/
  | data (cause detail : Nat)
  /-- a TRANSFER record: cause, XID, partner, sender -/
  | xfer (cause xid partner : Nat) (sender : Bool)
  deriving DecidableEq, Repr

/-- An issued, incomplete engine or ring operation (05 R128). -/
structure Op where
  id : Nat
  k : QKind
  mn : EngOp
  c : Fin 32
  job : Nat
  ptn : Fin 16
  cfg : Bool
  pc : W16
  w1 : W32
  w2 : W32
  dA : BitVec 256
  dB : BitVec 256
  dC : BitVec 256
  dD : BitVec 256
  rA : Fin 16
  rB : Fin 16
  rC : Fin 16
  rD : Fin 16
  den : Bool
  accum : Bool
  notally : Bool
  sp : W64
  tally : Nat
  /-- the unit it runs on, once started -/
  run : Option Nat
  startCyc : Nat
  /-- when its present slice began (04 R95) -/
  sliceCyc : Nat
  /-- when it was issued, in tenths of CCLK -/
  issued : Nat
  /-- bytes of the partition's memory that others wrote since it was issued, with what they held, and whether a SCAT wrote them (06
  R162, 09 R232, 10 R252, 11 R276) -/
  stale : List (Nat × Byte × Bool)
  /-- the unit it started on, where a suspended one goes on (10 R257, 12 R305) -/
  home : Option Nat
  /-- GSE: the places in its index list where its buffer was emptied for another partition (11 R271) -/
  cuts : List Nat
  /-- XMUL: cycles of its first plane's load that an earlier XMUL hid (06 Table 6.2) -/
  hid : Nat
  /-- MCONV: the error with which the job fails once the blocks before it are in T2 (02 R53) -/
  doom : Option EngErr
  /-- the codebook sets of dA, dB and dC as read when it started (02 R51); empty for none -/
  cbs : List (List Byte)
  deriving DecidableEq, Repr

/-- Why a conductor does not issue (05 R119, R128, R135, R136). -/
inductive Stall where
  | none
  | wait (tally : Nat) (val : W32) (since : W64)
  | queue (op : Op) (sinceCyc : Nat)
  /-- an access to a tensor whose frames are still being zeroed (07 R191) -/
  | zeroing (base : Nat) (sinceCyc : Nat)
  | drain
  | endDrain
  deriving DecidableEq, Repr

/-- One conductor with the registers of its cluster (05 Table 5.1), its image, and its debug trace (22 R513). -/
structure Cluster where
  job : Option Nat
  rank : Nat
  s : Vector W64 32
  p : Vector Bool 8
  v : Vector (BitVec 2048) 32
  d : Vector (BitVec 256) 16
  pc : W16
  istore : Cells
  textEnd : Nat
  sds : Cells
  stall : Stall
  ended : Bool
  startCyc : Nat
  owner : Option (Fin 16)
  trace : Sparse W64
  traceTotal : BitVec 22
  traceCyc : Nat
  deriving DecidableEq, Repr

/-- The partition of the previous operation of a physical unit (06 R165). -/
structure Owner where
  k : QKind
  unit : Nat
  ptn : Fin 16
  deriving DecidableEq, Repr

/-- Measured use of a shared resource by a partition (04 R94 point 3), and when. `res` numbers the resource (`resEngine`, `resLink`); `amount`
counts tenths of CCLK cycles of an engine, bytes of a link. -/
structure Use where
  res : Nat
  ptn : Fin 16
  at_ : W64
  amount : Nat
  deriving DecidableEq, Repr

/-! ## DMA -/

/-- Where a DMA transfer stands (07 R187, R188): waiting for a walk, issued to the link, held. -/
inductive XSt where
  | walking
  | issued
  | held (fid : W16) (since : W64)
  /-- without a record; `n` orders the faults (07 R188) -/
  | heldUnrec (reason n : Nat)
  deriving DecidableEq, Repr

/-- A DMA transfer. `chan` is the CHANNEL code of 18 Table 18.5; `done` counts the bytes already translated and issued. -/
structure Xfer where
  id : Nat
  ptn : Fin 16
  cfg : Bool
  chan : Nat
  job : Option Nat
  op : Option Nat
  base : Nat
  iova : Nat
  len : Nat
  write : Bool
  done : Nat
  st : XSt
  ring : RingRef
  slot : Nat
  fseq : W32
  live : Bool
  data : List Byte
  /-- the first uncorrectable unit that a write-back meets (07 R197) -/
  bad1 : Option Nat
  deriving DecidableEq, Repr

/-- A write posted to host memory (MODEL's own output). -/
structure Posted where
  chan : Nat
  ptn : Option (Fin 16)
  pa : Nat
  data : List Byte
  /-- the write carries Relaxed Ordering (03 Table 3.1) -/
  relaxed : Bool
  deriving DecidableEq, Repr

/-! ## Channels, text units, search stores -/

/-- An open generation channel (12 R281, R285; 13 R310). -/
structure Chan where
  ptn : Fin 16
  mode : BitVec 2
  adapter : Option (BitVec 12)
  len : Nat
  pages : List Nat
  step : W32
  tail : List Nat
  cursor : Option (Nat × Nat × Nat)
  exhausted : Bool
  deriving DecidableEq, Repr

/-- A text unit's stream context (09 R224), and the stream offset of its next byte (09 R227). -/
structure Ctx where
  txu : Nat
  ix : Nat
  carry : List Byte
  held : List Byte
  off : Nat
  jobs : List Nat
  deriving DecidableEq, Repr

/-- Detokenizer state of a channel (09 R234; SEQ of 03 Table 3.8). -/
structure Dtk where
  chan : Nat
  ptn : Fin 16
  withheld : List Byte
  seq : W16
  deriving DecidableEq, Repr

/-- A query block cached in an LSE's lookup-table store (10 R252). -/
structure LutTag where
  lse : Nat
  ptn : Fin 16
  uta : Nat
  query : Nat
  /-- bytes it takes -/
  size : Nat
  deriving DecidableEq, Repr

/-- A merge entry cached in a text unit (09 R232). -/
structure MergeTag where
  txu : Nat
  ptn : Fin 16
  uta : Nat
  slot : Nat
  deriving DecidableEq, Repr

/-! ## Global blocks -/

/-- GSWAP_STATUS.STATE (08 Table 8.8). -/
inductive GSwapSt where
  | idle | checking | pending | done | refused
  deriving DecidableEq, Repr

/-- The global set and the identification block's writable state (08 R203, 22 R507). -/
structure Gcr where
  led : Bool
  gA : BitVec 2048
  gB : BitVec 2048
  st : GSwapSt
  active : Bool
  collapsed : Bool
  wrDrop : Bool
  badOff : Byte
  valid : Bool
  deriving DecidableEq, Repr

/-- The debug registers (22 R512-R515); DBG_HALTED is the mask `halt`, since a halt acts at once (log 5). -/
structure Dbg where
  isOpen : Bool
  refused : Bool
  busy : Bool
  result : BitVec 3
  fails : BitVec 4
  scope : BitVec 2
  challenge : BitVec 256
  block : BitVec 1664
  halt : W32
  traceEn : W32
  regSel : W32
  traceSel : W32
  deriving DecidableEq, Repr

/-- What the boundary cells do (22 R511). -/
inductive TapDrive where
  | mission | extest | pulse | train | clamp | highz
  deriving DecidableEq, Repr

/-- The TAP (22 R510). -/
structure Tap where
  ir : Byte
  boundary : BitVec 148
  drive : TapDrive
  deriving DecidableEq, Repr

/-- GT_STATUS.STATE (15 R358). -/
inductive GtSt where
  | free | acquire | locked | holdover
  deriving DecidableEq, Repr

/-- Clocks and global time (15 R356-R365). `cyc10` counts tenths of the CCLK cycles delivered since reset. The model's own: `ns` counts the
nanoseconds passed, `stepAt` and `exchAt` note the last CCLK step and the last upstream exchange by it. -/
structure Clk where
  lock : BitVec 9
  cur : BitVec 5
  target : BitVec 5
  walking : Bool
  throttled : Bool
  gt : W64
  latch : Option W32
  st : GtSt
  stepped : Bool
  setDrop : Bool
  upstream : BitVec 2
  offset : W16
  lockRun : Nat
  badRun : Nat
  slew : Int
  slewCnt : Nat
  joinStep : Bool
  cyc10 : Nat
  ns : Nat
  stepAt : Option Nat
  exchAt : Nat
  deriving DecidableEq, Repr

/-- THM_STATUS.TRAY (21 R484). -/
inductive TraySt where
  | unknown | valid | missing | implausible
  deriving DecidableEq, Repr

/-- One die's sensors (21 R488): hottest reading, its index, failed marks. -/
structure DieT where
  temp : W16
  sensor : BitVec 6
  failed : BitVec 64
  deriving DecidableEq, Repr

/-- OFFSET of each rotating kind of a die (21 R491). -/
structure RotOff where
  mxa : BitVec 3
  mvp : BitVec 3
  ssu : BitVec 3
  lse : BitVec 2
  gse : BitVec 1
  deriving DecidableEq, Repr

/-- A hold of a kind on a die (21 R492), with the limit and the stride of its month. -/
structure Hold where
  die : Fin 4
  k : RotKind
  since : W64
  limit : Nat
  stride : Nat
  deriving DecidableEq, Repr

/-- Thermal logic and rotation (21 R483-R500). The runs count consecutive tray samples of 100 ms. -/
structure Thm where
  tray : TraySt
  level : BitVec 3
  hbWarn : Bool
  coolWarn : Bool
  dieHot : Bool
  ceil : BitVec 5
  die : Vector DieT 4
  q : W16
  pinW : W16
  month : BitVec 4
  strideIx : BitVec 2
  seasons : BitVec 26
  off : Vector RotOff 4
  skip : W32
  throttleCnt : W32
  okRun : Nat
  disRun : Nat
  agreeRun : Nat
  hotRun : Nat
  roseAt : Option Nat
  coolAt : Option Nat
  trayFaultRec : Bool
  rotOn : Bool
  rotT0 : W64
  rotK : Vector Nat 4
  holds : List Hold
  deriving DecidableEq, Repr

/-- The management bus mirror of powered-domain values (19 R441-R443). -/
structure Mirror where
  flags : BitVec 7
  ring : BitVec 56
  temps : BitVec 64
  cclk : BitVec 5
  deriving DecidableEq, Repr

/-- The MB target (19 R440-R446, R460). -/
structure Mbs where
  filt : BitVec 5
  sclTo : Byte
  sdaTo : Byte
  addr : BitVec 3
  fScl : Bool
  fSda : Bool
  pecErr : Bool
  badCmd : Bool
  txnCnt : W32
  errCnt : W32
  logSel : BitVec 6
  scratch : List Byte
  mirror : Mirror
  deriving DecidableEq, Repr

/-- The TB controller (19 R447-R453, R460). -/
structure Tbs where
  en : Bool
  speed : BitVec 2
  pecEn : Bool
  filt : BitVec 5
  sclTo : Byte
  sdaTo : Byte
  addr : BitVec 7
  fScl : Bool
  fSda : Bool
  fRec : Bool
  result : BitVec 3
  busy : Bool
  valid : Bool
  failRun : Byte
  sampleTime : W64
  failCnt : W32
  recCnt : W32
  sample : Vector W16 16
  stale : Nat
  /-- the SDA-stuck timeout runs (19 R451); while BUSY too, for a slot that found SDA low (19 R453) -/
  sdaWait : Bool
  /-- when the SCL-low timeout last expired, in the model's nanoseconds (19 R457) -/
  sclAt : Option Nat
  /-- PEC_EN in force for the sample under way (19 R454) -/
  usePec : Bool
  /-- the result already recorded (19 R458) -/
  lastRec : BitVec 3
  deriving DecidableEq, Repr

/-- The ERR block (18 R429, R438). `firstS4` holds the SEQ of the first S4 since reset. -/
structure ErrBlk where
  ger : ErrRing
  fatal : Bool
  log : Vector (BitVec 256) 64
  logNext : BitVec 6
  logTotal : BitVec 26
  firstS4 : Option W32
  /-- when the device stopped, in the model's nanoseconds -/
  fatalNs : Nat
  deriving DecidableEq, Repr

/-- DLK_PORT_STATUS.STATE (16 Table 16.2). -/
inductive PortSt where
  | down | loopback | train | up | retrain
  deriving DecidableEq, Repr

/-- A DATA or CTRL flit sent and not yet acknowledged, or waiting to be sent (16 R368, R370). `half` is the dateline half (17 R393);
`crVc` and `crCnt` the credits that a sent one returns; `job` the job it serves (17 R392). -/
structure TxFlit where
  seq : Byte
  ctrl : Bool
  vc : Fin 4
  half : Bool
  hdr : BitVec 96
  pay : BitVec 1888
  crVc : Fin 4
  crCnt : Nat
  job : Option Nat
  /-- the input port and the VC whose slot it holds, for a flit in transit through this device (17 R391, R392) -/
  inp : Option (Fin 4 × Fin 4)
  deriving DecidableEq, Repr

/-- A Drawlink port (16 R366-R386) with its input buffer, credits and output queue (17 R391). `credit` is what the peer granted this end,
indexed by 2 × VC + half. The slots of the input buffer, `issued` in all, are counted by VC: `granted` as credits at the peer, `rxHeld` by flits,
`owed` as returns not yet sent, and `reclaim` as credits of a lost peer (17 R407); the returns in unacknowledged flits are the rest. -/
structure Port where
  auto : Bool
  st : PortSt
  loopOk : Bool
  attempt : BitVec 2
  spanFail : Bool
  corrTh : Bool
  uncorrTh : Bool
  retryTh : Bool
  flap : Bool
  peer : BitVec 17
  peerValid : Bool
  span : Byte
  corrThr : W32
  uncorrThr : W16
  retryThr : W16
  corrCnt : W32
  uncorrCnt : W32
  retryCnt : W32
  retrainCnt : W32
  downCnt : W32
  loss : Byte
  winCorr : Nat
  winUncorr : Nat
  winRetry : Nat
  retrains : List W64
  flapAt : Option W64
  txSeq : Byte
  rxSeq : Byte
  /-- the sequence is broken and NAK was sent, or goes with the next flit (16 R369) -/
  nakSent : Bool
  nakDue : Bool
  retry : List TxFlit
  issued : Nat
  rxHeld : Vector Nat 4
  credit : Vector Nat 8
  granted : Vector Nat 4
  owed : Vector Nat 4
  reclaim : Vector Nat 4
  outq : List TxFlit
  /-- the VC0 flit that goes ahead of everything, and whether it holds its credit (17 R408) -/
  urgent : Option TxFlit
  urgentCr : Bool
  /-- CTRL flits to send (17 R405, R406) -/
  ctrlDue : Nat
  /-- the ring position and segment size that the peer named, and that it has begun an orderly leave (16 R372, 17 R405) -/
  peerPos : Nat
  peerSize : Nat
  peerLeft : Bool
  /-- the attempt in progress starts from the stored equaliser settings (16 R372) -/
  eqStored : Bool
  auditFail : Nat
  /-- the place in the 8:8:1 turn of VC1-VC3, and transit flits sent since an injected one (17 R392) -/
  arb : Nat
  sinceInj : Vector Nat 4
  /-- flits received since an ACK was last sent (16 R369) -/
  unacked : Nat
  deriving DecidableEq, Repr

/-- A bypass switch and the join of its port pair (16 R374-R376). -/
structure Switch where
  closed : Bool
  drive : Bool
  fault : Bool
  cause : BitVec 3
  bypass : Bool
  joining : Bool
  joined : Bool
  /-- a join has failed and the ring role has not been written since -/
  barred : Bool
  leaving : Bool
  /-- the credits held have been returned; the East and the West neighbour have answered (17 R405) -/
  returned : Bool
  ackE : Bool
  ackW : Bool
  deriving DecidableEq, Repr

/-- The DLK block (16 Table 16.8). -/
structure Dlk where
  corrRetrain : Bool
  errWin : W16
  sw : Vector Switch 2
  port : Vector Port 4
  deriving DecidableEq, Repr

/-- A transfer this device sends (17 R399). Entries are 4 KiB; `grants` are the ranges granted, `sent` the 236-byte units sent,
`acked` the entries XACKed; `pass2` marks the second pass of an RREDUCE (17 R403). -/
structure TxX where
  xid : W16
  op : Nat
  ptn : Fin 16
  dst : BitVec 17
  dptn : Fin 16
  tag : BitVec 14
  len : Nat
  vc : Nat
  fmt : Nat
  rop : Nat
  rank : Nat
  answered : Bool
  busy : Bool
  grants : List (Nat × Nat)
  sent : List Nat
  acked : List Nat
  pass2 : Bool
  progress : W64
  deriving DecidableEq, Repr

/-- A transfer this device receives (17 R399, R401): `next` entries granted so far, the 236-byte units received, the entries
combined under RREDUCE and those drained. A completed one is kept to answer duplicates. -/
structure RxX where
  src : BitVec 17
  sptn : Fin 16
  xid : W16
  op : Nat
  ptn : Fin 16
  len : Nat
  next : Nat
  units : List Nat
  comb : List Nat
  drained : List Nat
  buf : Cells
  pass2 : Bool
  done : Bool
  progress : W64
  deriving DecidableEq, Repr

/-- A REQ with no matching RRECV yet (17 R399). -/
structure ReqM where
  src : BitVec 17
  sptn : Fin 16
  dptn : Fin 16
  xid : W16
  len : Nat
  tag : BitVec 14
  vc : Nat
  rop : Nat
  fmt : Nat
  rank : Nat
  deriving DecidableEq, Repr

/-- A remote tally message sent and the instruction that sent it (17 R404). -/
structure TallyOut where
  xid : W16
  dst : BitVec 17
  job : Nat
  c : Fin 32
  pc : W16
  w1 : W32
  deriving DecidableEq, Repr

/-- RING_STATUS.STATE (17 Table 17.9). -/
inductive RingSt where
  | unjoined | joining | joined | leaving
  deriving DecidableEq, Repr

/-- A route map (17 R394), positions ascending: those at the West end of a link shown DOWN, those whose device has been heard of, and those whose
device is leaving. -/
structure RMap where
  down : List Nat
  heard : List Nat
  leaving : List Nat
  deriving DecidableEq, Repr

/-- The ring layer (17). The maps are that of plane 1 of the segment, and that of pair 1: of plane 2, or of the upper ring. -/
structure RingL where
  st : RingSt
  plane2 : Bool
  gateway : Bool
  map : Vector RMap 2
  /-- this segment's gateway is known not to be joined in the upper ring (17 R389) -/
  gwOut : Bool
  badCnt : W32
  nextXid : W16
  tx : List TxX
  rx : List RxX
  reqs : List ReqM
  tallySeen : List (BitVec 17 × W16)
  tallyOut : List TallyOut
  deriving DecidableEq, Repr

/-- The ledger's totals (17 R406, Table 17.9), class by class. -/
structure Ldg where
  issued : Vector W32 6
  freeU : Vector W32 6
  held : Vector W32 6
  transit : Vector W32 6
  frozen : Bool
  rebuilt : Bool
  mismatch : Bool
  cls : BitVec 3
  reclaimCnt : W32
  deriving DecidableEq, Repr

/-- The whole machine. -/
structure State where
  /-- commands waiting, first in, first out (the task's form) -/
  pending : List Instr
  /-- MODEL's own: the number of free values taken (log 1) -/
  free : Nat
  fuses : Fuses
  pwr : Pwr
  io : Vector IoDie 2
  ptn : Vector Ptn 16
  cl : Vector Cluster 32
  jobs : List Job
  nextJob : Nat
  ops : List Op
  nextOp : Nat
  tallies : Sparse W32
  owners : List Owner
  uses : List Use
  xfers : List Xfer
  nextXfer : Nat
  chans : List (Nat × Chan)
  ctxs : List Ctx
  dtks : List Dtk
  luts : List LutTag
  merges : List MergeTag
  gcr : Gcr
  dbg : Dbg
  tap : Tap
  clk : Clk
  thm : Thm
  mbs : Mbs
  tbs : Tbs
  err : ErrBlk
  dlk : Dlk
  ringl : RingL
  ldg : Ldg
  /-- MODEL's own outputs (log 3): writes posted to host memory, and flits put on the lanes of a port, oldest first; the last read completion; the
  last MB response; the last 64-bit DBG word shifted out of the TAP -/
  posted : List Posted
  lanes : List (Fin 4 × BitVec 2048)
  readData : W64
  mbOut : List Byte
  tdo : W64
  deriving DecidableEq, Repr

/-! ## Reset -/

def Fuses.reset : Fuses :=
  { stackCode := 2, i2 := true, serial := 0, locked := true, keyProg := 0, keyRevoked := 0, keyHash := Vector.replicate 4 0, secVerMin := 0 }

def Pwr.reset : Pwr :=
  { vsb := true, st := .off, stage := 0, failUnit := 0xFF, rails := false, autoOn := false, recovStrap := false, testMode := false
    pwrEn := false, pwrWarn := false, edge := false, stayOff := false, vinOk := false, vin := 0, pin := 0, recovMode := false
    sdCause := 0, triggers := 0, supplyReturned := false, leaveTimeout := false, bootSlot := false, fromWindow := false
    bootMode := 0, failA := 0, failB := 0, failR := 0, secVer := 0, clrst := 0, recovLen := 0, window := [], flashAddr := 0, flashAt := 0
    flashOp := 0, flashErr := false, flashDropped := false, flashBuf := 0, flash := [], upAt := none, perst0 := true, perst1 := true
    cleanOff := true, warm := false }

def IoDie.reset : IoDie :=
  { link := false, width := 0, rate := 0, downAt := none, inReset := true, sriov := false, bme := Vector.replicate 17 false
    relaxed := Vector.replicate 17 true, mps := Vector.replicate 17 0, mrrs := Vector.replicate 17 2, d3 := Vector.replicate 17 false, tlb := [] }

def JRing.reset : JRing :=
  { base := 0, mirror := 0, en := false, halt := false, size := 0, head := 0, tail := 0, fetched := 0 }

def PRing.reset : PRing :=
  { base := 0, en := false, size := 0, stall := false, wfail := false, tail := 0, phase := false, head := 0, resv := 0
    clearing := false, outq := [] }

def ErrRing.reset : ErrRing :=
  { base := 0, en := false, wfail := false, tail := 0, phase := false, head := 0, ackDrop := false, nextSeq := 0, ovf := 0
    hand := [], waitq := [] }

def Image.reset : Image :=
  { valid := false, bad := false, text := [], textEnd := 0, sdata := [], entries := [] }

def Swap.reset : Swap :=
  { st := .idle, active := true, reason := 0, collapsed := false, wrDrop := false, releasing := false, badOff := 0, holder := 0
    claims := false, began := false, arr := 0, asked := false }

def Ptn.reset : Ptn :=
  { cfgA := 0, cfgB := 0, imgA := Image.reset, imgB := Image.reset, fenced := false, fencing := false, activeValid := false
    unfenceDrop := false, fenceCause := 0, resetting := false, swap := Swap.reset, jr := Vector.replicate 8 JRing.reset
    cr := Vector.replicate 8 PRing.reset, sr := Vector.replicate 16 PRing.reset, er := ErrRing.reset
    undec := [], turn := 7, cancels := [], cnt := Vector.replicate nCtr 0, frac := Vector.replicate nCtr 0, waitLimit := 0x001E8480
    excCause := 0, excCluster := 0, excPc := 0
    dir := [], mem := [], bad := [], tdBusy := false, tdResult := 0, tdDropped := false, tdArg0 := 0, tdArg1 := 0, tdArg2 := 0
    tdRes := Vector.replicate 4 0, tdWait := none, waits := [], invAddr := 0, invLen := 0, invBusy := false, invDropped := false, invWait := []
    nextFid := 1, zero := [], idxValid := 0, idxCur := 0, idxDrain := Vector.replicate 32 (0, 0), tblValid := 0, tblCur := 0
    tblDrain := Vector.replicate 64 (0, 0), maxList := 0, maxIndex := 0, hotIdx := 0, hotThresh := 0x1000, kvPages := 0, kvRow := 0
    kvNreg := 0, kvWrDrop := false, csLoaded := 0, csBusy := false, csResult := 0, csDropped := false, csOp := 0, csSet := 0
    csA := 0, csB := 0 }

def Cluster.reset : Cluster :=
  { job := none, rank := 0, s := Vector.replicate 32 0, p := Vector.replicate 8 false, v := Vector.replicate 32 0
    d := Vector.replicate 16 0, pc := 0, istore := [], textEnd := 0, sds := [], stall := .none, ended := false
    startCyc := 0, owner := none, trace := [], traceTotal := 0, traceCyc := 0 }

def Gcr.reset : Gcr :=
  { led := false, gA := 0, gB := 0, st := .idle, active := true, collapsed := false, wrDrop := false, badOff := 0, valid := false }

def Dbg.reset : Dbg :=
  { isOpen := false, refused := false, busy := false, result := 0, fails := 0, scope := 0, challenge := 0, block := 0, halt := 0
    traceEn := 0, regSel := 0, traceSel := 0 }

def Tap.reset : Tap := { ir := 0x01, boundary := 0, drive := .mission }

def Clk.reset : Clk :=
  { lock := 0, cur := 10, target := 10, walking := false, throttled := false, gt := 0, latch := none, st := .free, stepped := false
    setDrop := false, upstream := 0, offset := 0, lockRun := 0, badRun := 0, slew := 0, slewCnt := 0, joinStep := false, cyc10 := 0
    ns := 0, stepAt := none, exchAt := 0 }

def Thm.reset : Thm :=
  { tray := .unknown, level := 0, hbWarn := false, coolWarn := false, dieHot := false, ceil := 10
    die := Vector.replicate 4 { temp := 0, sensor := 0, failed := 0 }, q := 0, pinW := 0, month := 0, strideIx := 0, seasons := 0
    off := Vector.replicate 4 { mxa := 0, mvp := 0, ssu := 0, lse := 0, gse := 0 }, skip := 0, throttleCnt := 0, okRun := 0
    disRun := 0, agreeRun := 0, hotRun := 0, roseAt := none, coolAt := none, trayFaultRec := false, rotOn := false, rotT0 := 0, rotK := Vector.replicate 4 0, holds := [] }

def Mbs.reset : Mbs :=
  { filt := 5, sclTo := 0x19, sdaTo := 0x23, addr := 0, fScl := false, fSda := false, pecErr := false, badCmd := false, txnCnt := 0
    errCnt := 0, logSel := 0, scratch := [0], mirror := { flags := 0, ring := 0, temps := 0, cclk := 0 } }

def Tbs.reset : Tbs :=
  { en := true, speed := 1, pecEn := false, filt := 5, sclTo := 0x19, sdaTo := 0x23, addr := 0x4C, fScl := false, fSda := false
    fRec := false, result := 0, busy := false, valid := false, failRun := 0, sampleTime := 0, failCnt := 0, recCnt := 0
    sample := Vector.replicate 16 0, stale := 0, sdaWait := false, sclAt := none, usePec := false, lastRec := 0 }

def ErrBlk.reset : ErrBlk :=
  { ger := ErrRing.reset, fatal := false, log := Vector.replicate 64 0, logNext := 0, logTotal := 0, firstS4 := none, fatalNs := 0 }

def Port.reset : Port :=
  { auto := true, st := .down, loopOk := false, attempt := 0, spanFail := false, corrTh := false, uncorrTh := false, retryTh := false
    flap := false, peer := 0, peerValid := false, span := 0, corrThr := 0x0007A120, uncorrThr := 0x0010, retryThr := 0x0008
    corrCnt := 0, uncorrCnt := 0, retryCnt := 0, retrainCnt := 0, downCnt := 0, loss := 0, winCorr := 0, winUncorr := 0, winRetry := 0
    retrains := [], flapAt := none, txSeq := 0, rxSeq := 0xFF, nakSent := false, nakDue := false, retry := [], issued := 0
    rxHeld := Vector.replicate 4 0, credit := Vector.replicate 8 0, granted := Vector.replicate 4 0, owed := Vector.replicate 4 0
    reclaim := Vector.replicate 4 0, outq := [], urgent := none, urgentCr := false, ctrlDue := 0, peerPos := 0, peerSize := 0
    peerLeft := false, eqStored := false, auditFail := 0, arb := 0, sinceInj := Vector.replicate 4 0, unacked := 0 }

def Switch.reset : Switch :=
  { closed := true, drive := false, fault := false, cause := 1, bypass := false, joining := false, joined := false, barred := false
    leaving := false, returned := false, ackE := false, ackW := false }

def Dlk.reset : Dlk :=
  { corrRetrain := false, errWin := 0x03E8, sw := Vector.replicate 2 Switch.reset, port := Vector.replicate 4 Port.reset }

def RMap.reset : RMap := { down := [], heard := [], leaving := [] }

def RingL.reset : RingL :=
  { st := .unjoined, plane2 := false, gateway := false, map := Vector.replicate 2 RMap.reset, gwOut := false, badCnt := 0, nextXid := 0, tx := [], rx := []
    reqs := [], tallySeen := [], tallyOut := [] }

def Ldg.reset : Ldg :=
  { issued := Vector.replicate 6 0, freeU := Vector.replicate 6 0, held := Vector.replicate 6 0, transit := Vector.replicate 6 0
    frozen := false, rebuilt := false, mismatch := false, cls := 0, reclaimCnt := 0 }

/-- The machine when the standby rail has come up and every register holds the value of its Reset column (00 R8, 20 R481).
The fused values, straps and pins it names are the model's choice (log 4). -/
def State.reset : State :=
  { pending := [], free := 0, fuses := Fuses.reset, pwr := Pwr.reset, io := Vector.replicate 2 IoDie.reset
    ptn := Vector.replicate 16 Ptn.reset, cl := Vector.replicate 32 Cluster.reset, jobs := [], nextJob := 0, ops := [], nextOp := 0
    tallies := [], owners := [], uses := [], xfers := [], nextXfer := 0, chans := [], ctxs := [], dtks := [], luts := [], merges := []
    gcr := Gcr.reset, dbg := Dbg.reset, tap := Tap.reset, clk := Clk.reset, thm := Thm.reset, mbs := Mbs.reset, tbs := Tbs.reset
    err := ErrBlk.reset, dlk := Dlk.reset, ringl := RingL.reset, ldg := Ldg.reset, posted := [], lanes := [], readData := 0
    mbOut := [], tdo := 0 }

end Sys2Proof.Machine
end

