-- ==== Sys2Proof/Machine/Bits.lean ====
section
/-! DEFINITION. Bit fields, little-endian byte order (00 R6), sign extension, saturating counters. -/

namespace Sys2Proof.Machine

/-- The answer of a command. -/
abbrev Out := Host.Outcome State Fault Refusal

/-- Bits [lo + w - 1 : lo] of a number. -/
def bits (x lo w : Nat) : Nat := x / 2 ^ lo % 2 ^ w

/-- Bits [lo + w - 1 : lo] of a word. -/
def fld {n : Nat} (x : BitVec n) (lo w : Nat) : Nat := bits x.toNat lo w

/-- One bit of a word. -/
def bit {n : Nat} (x : BitVec n) (i : Nat) : Bool := x.toNat.testBit i

/-- A word with bits [lo + w - 1 : lo] replaced. -/
def setFld {n : Nat} (x : BitVec n) (lo w v : Nat) : BitVec n :=
  BitVec.ofNat n (x.toNat - fld x lo w * 2 ^ lo + v % 2 ^ w * 2 ^ lo)

/-- A word with one bit replaced. -/
def setBit {n : Nat} (x : BitVec n) (i : Nat) (b : Bool) : BitVec n := setFld x i 1 b.toNat

/-- The `n` low bytes of a number, least significant first. -/
def leBytes (n v : Nat) : List Byte := (List.range n).map fun i => BitVec.ofNat 8 (v / 256 ^ i)

/-- The number of a byte string, least significant byte first. -/
def ofLe : List Byte → Nat
  | [] => 0
  | b :: t => b.toNat + 256 * ofLe t

/-- Bytes lo to lo + n - 1 of a byte string, zero past its end. -/
def sliceLe (bs : List Byte) (lo n : Nat) : Nat := ofLe ((bs.drop lo).take n)

/-- A number of `w` bits read as two's complement. -/
def sx (w v : Nat) : Int := if (v % 2 ^ w).testBit (w - 1) then (v % 2 ^ w : Int) - 2 ^ w else v % 2 ^ w

/-- The low `w` bits of an integer. -/
def wrap (w : Nat) (v : Int) : Nat := (v % (2 ^ w : Int)).toNat

/-- An integer held to the range of `w` bits, signed. -/
def sat (w : Nat) (v : Int) : Int := max (-(2 ^ (w - 1) : Int)) (min (2 ^ (w - 1) - 1) v)

/-- A counter of `n` bits that holds at all ones. -/
def satAdd {n : Nat} (x : BitVec n) (k : Nat) : BitVec n := BitVec.ofNat n (min (2 ^ n - 1) (x.toNat + k))

def divUp (a b : Nat) : Nat := (a + b - 1) / b

def roundUp (a b : Nat) : Nat := divUp a b * b

/-- The positions of the ones of a mask, ascending. -/
def ones (n m : Nat) : List Nat := (List.range n).filter (m.testBit ·)

def popCount (n m : Nat) : Nat := (ones n m).length

/-- The mask of a list of positions. -/
def maskOf (l : List Nat) : Nat := l.foldl (fun m i => m ||| 2 ^ i) 0

/-- The element of a list that comes first under `lt`, the earlier one where neither does. -/
def firstBy {α : Type} (lt : α → α → Bool) : List α → Option α
  | [] => none
  | a :: t => match firstBy lt t with
    | none => some a
    | some b => if lt b a then some b else some a

/-- Insertion sort: stable. -/
def insSorted {α : Type} (lt : α → α → Bool) (a : α) : List α → List α
  | [] => [a]
  | b :: t => if lt b a then b :: insSorted lt a t else a :: b :: t

def sortBy {α : Type} (lt : α → α → Bool) : List α → List α
  | [] => []
  | a :: t => insSorted lt a (sortBy lt t)

/-- Round-to-nearest-even of x ÷ 2^k. -/
def rne (x : Int) (k : Nat) : Int :=
  let d : Int := 2 ^ k
  let q := x / d
  let r2 := 2 * (x % d)
  if r2 > d ∨ (r2 = d ∧ q % 2 ≠ 0) then q + 1 else q

/-- CRC-32 of IEEE 802.3 over one byte (05 R138; the polynomial is the standard's, PRESUMED, log 6). -/
def crc32Byte (crc : Nat) (b : Byte) : Nat :=
  (List.range 8).foldl (fun c _ => if c % 2 = 1 then (c / 2) ^^^ 0xEDB88320 else c / 2) (crc ^^^ b.toNat)

def crc32 (bs : List Byte) : Nat := (bs.foldl crc32Byte 0xFFFFFFFF) ^^^ 0xFFFFFFFF

/-- The SMBus PEC: CRC-8 with x^8 + x^2 + x + 1 (19 R444 and the table of its chapter). -/
def crc8Byte (crc : Nat) (b : Byte) : Nat :=
  (List.range 8).foldl (fun c _ => if c ≥ 128 then (c * 2 % 256) ^^^ 7 else c * 2) (crc ^^^ b.toNat)

def crc8 (bs : List Byte) : Byte := BitVec.ofNat 8 (bs.foldl crc8Byte 0)

end Sys2Proof.Machine
end

