-- ==== Sys2Proof/Decode.lean ====
section
/-! DEFINITION. The table's words, and the Folainar instruction word (05 R114, R127). spec/opcode_table.json gives no row any
bits, so no table word spells a command. A conductor command carries its operand fields; the word decoder below serves the
debug single step (22 R512), which issues what the instruction store holds, and the encoder the words an exception records. -/

namespace Sys2Proof

/-- The command a table word spells: none, since the table gives no row any bits. -/
def decodeTableWord (_nbits _w : Nat) : Option Instr := none

open Machine

/-- Class 0x0 by FUNC (05 Table 5.5). -/
def aluOf : Nat → Option (Fin 32 → R3 → Instr)
  | 0 => some .add
  | 1 => some .sub
  | 2 => some .and
  | 3 => some .or
  | 4 => some .xor
  | 5 => some .sll
  | 6 => some .srl
  | 7 => some .sra
  | 8 => some .mul
  | 9 => some .mulh
  | 10 => some .mulhu
  | 11 => some .min
  | 12 => some .max
  | 13 => some .minu
  | 14 => some .maxu
  | _ => none

/-- Class 0x1 by FUNC. -/
def aluiOf : Nat → Option (Fin 32 → I12 → Instr)
  | 0 => some .addi
  | 1 => some .andi
  | 2 => some .ori
  | 3 => some .xori
  | 4 => some .slli
  | 5 => some .srli
  | 6 => some .srai
  | _ => none

/-- Class 0x3 by FUNC. -/
def predOf : Nat → Option (Fin 32 → R3 → Instr)
  | 0 => some .ceq
  | 1 => some .cne
  | 2 => some .clt
  | 3 => some .cltu
  | 4 => some .cge
  | 5 => some .cgeu
  | 8 => some .pand
  | 9 => some .por
  | 10 => some .pxor
  | 11 => some .pnot
  | _ => none

/-- Class 0x4 by SZ. -/
def loadOf : Nat → Option (Fin 32 → I12 → Instr)
  | 0 => some .ldb
  | 1 => some .ldh
  | 2 => some .ldw
  | 3 => some .ldd
  | 4 => some .ldbu
  | 5 => some .ldhu
  | 6 => some .ldwu
  | 7 => some fun c o => .ldx c o []
  | _ => none

/-- Class 0x5 by SZ. -/
def storeOf : Nat → Option (Fin 32 → I12 → Instr)
  | 0 => some .stb
  | 1 => some .sth
  | 2 => some .stw
  | 3 => some .std
  | 7 => some .stx
  | _ => none

/-- Class 0x8 by FUNC (05 Table 5.6). -/
def vecOf : Nat → Option (Fin 32 → V3 → Instr)
  | 0 => some .vadd
  | 1 => some .vadds
  | 2 => some .vsub
  | 3 => some .vmul
  | 4 => some .vmax
  | 5 => some .vmin
  | 6 => some .vand
  | 7 => some .vor
  | 8 => some .vxor
  | 9 => some .vshl
  | 10 => some .vshr
  | 11 => some .vsplat
  | 12 => some .vext
  | 13 => some .vredadd
  | 14 => some .vredmax
  | 15 => some .vcmpgt
  | 16 => some .vsel
  | 17 => some .vexp2
  | 18 => some .vlog2
  | 19 => some .vbsort
  | 20 => some .vmov
  | _ => none

/-- Class 0x9 by bit 0 (05 R117). -/
def vmemOf : Nat → Option (Fin 32 → R3 → Instr)
  | 0 => some fun c o => .vld c o []
  | 1 => some .vst
  | _ => none

/-- Class 0xA, the memory forms (05 Table 5.7). -/
def descMemOf : Nat → Option (Fin 32 → DMem → Instr)
  | 0 => some .dld
  | 1 => some .dst
  | _ => none

/-- Class 0xA, the register forms. -/
def descRegOf : Nat → Option (Fin 32 → DReg → Instr)
  | 2 => some .dsetw
  | 3 => some .dgetw
  | 4 => some .daddo
  | 5 => some .dmov
  | _ => none

/-- Class 0xB by FUNC (05 Table 5.9). -/
def tallyOf : Nat → Option (Fin 32 → R3 → Instr)
  | 0 => some .wait
  | 1 => some .signal
  | 2 => some .tadd
  | 3 => some .tread
  | _ => none

/-- Class 0xC by FUNC (05 Table 5.10). -/
def tensorOf : Nat → Option (Fin 32 → Ten → Instr)
  | 0 => some .pin
  | 1 => some .unpin
  | 2 => some .mig
  | _ => none

/-- Class 0xD by FUNC (05 R126). -/
def ringOf : Nat → Option (Fin 32 → Rng → Instr)
  | 0 => some .rsend
  | 1 => some .rrecv
  | 2 => some .rreduce
  | _ => none

/-- Class 0xF by FUNC, less END (05 Table 5.17). -/
def ctrlOf : Nat → Option (Fin 32 → CtlF → Instr)
  | 0 => some .nop
  | 2 => some .drain
  | 3 => some .time
  | 4 => some .csrr
  | 5 => some .trap
  | _ => none

/-- KVCMP by the FUNC of its parameter word (12 R285). A reserved FUNC is issued, under the first function's name, and fails when it
starts. -/
def kvOf : Nat → Option (Fin 32 → EngF → Instr)
  | 0 => some .kvcmpOpen
  | 1 => some .kvcmpReserve
  | 2 => some .kvcmpSetlen
  | 3 => some .kvcmpCompact
  | 4 => some .kvcmpState
  | 5 => some .kvcmpClose
  | 6 | 7 => some .kvcmpOpen
  | _ => none

/-- Class 0xE by ENG and OP (05 Table 5.13); `kf` is the FUNC of KVCMP. -/
def engOf (kf : Nat) : Nat → Nat → Option (Fin 32 → EngF → Instr)
  | 0, 0 => some .xmul
  | 1, 0 => some .mvmul
  | 2, 0 => some .topk
  | 3, 0 => some .lscan
  | 4, 0 => some .gath
  | 4, 1 => some .scat
  | 5, 0 => some .samp
  | 6, 0 => some .mconv
  | 7, 0 => some .ttok
  | 7, 1 => some .tdtk
  | 8, 0 => some .hrd
  | 8, 1 => some .hwr
  | 4, 2 => kvOf kf
  | _, _ => none

/-- Bits [lo + 4 : lo] of a word, as a register number. -/
def reg5 (w lo : Nat) : Fin 32 := ⟨bits w lo 5, Nat.mod_lt _ (by decide)⟩

/-- Bits [lo + 3 : lo] of a word, as a descriptor register number. -/
def reg4 (w lo : Nat) : Fin 16 := ⟨bits w lo 4, Nat.mod_lt _ (by decide)⟩

/-- PRED of a word. -/
def predField (w : Nat) : Fin 8 := ⟨bits w 25 3, Nat.mod_lt _ (by decide)⟩

def r3Of (w : Nat) : R3 := { p := predField w, rd := reg5 w 20, ra := reg5 w 15, rb := reg5 w 10 }

def i12Of (w : Nat) : I12 := { p := predField w, rd := reg5 w 20, ra := reg5 w 15, imm := BitVec.ofNat 12 (bits w 0 12) }

def u20Of (w : Nat) : U20 := { p := predField w, rd := reg5 w 20, imm := BitVec.ofNat 20 (bits w 0 20) }

def engFOf (w v : Nat) : EngF :=
  { p := predField w, sp := reg5 w 11, dD := reg4 w 7, den := bits w 6 1 == 1, notally := bits w 5 1 == 1, accum := bits w 4 1 == 1
    dA := reg4 v 28, dB := reg4 v 24, dC := reg4 v 20, tally := BitVec.ofNat 17 (bits v 0 17) }

/-- The instruction that conductor `c` reads from the word `w` and, for class 0xE, the word `v` after it; none where the class
or function is reserved, or a bit with no field is nonzero (05 R114). `kf` gives the FUNC of a KVCMP from its SP. -/
def decodeWord (kf : Fin 32 → Nat) (c : Fin 32) (w v : Nat) : Option Instr :=
  match bits w 28 4 with
  | 0x0 => if bits w 5 5 = 0 then (aluOf (bits w 0 5)).map fun f => f c (r3Of w) else none
  | 0x1 => (aluiOf (bits w 12 3)).map fun f => f c (i12Of w)
  | 0x2 => some (.lui c (u20Of w))
  | 0x3 => if bits w 5 5 = 0 then (predOf (bits w 0 5)).map fun f => f c (r3Of w) else none
  | 0x4 => (loadOf (bits w 12 3)).map fun f => f c (i12Of w)
  | 0x5 => (storeOf (bits w 12 3)).map fun f => f c (i12Of w)
  | 0x6 => some (.jal c (u20Of w))
  | 0x7 => if bits w 12 3 = 0 then some (.jalr c (i12Of w)) else none
  | 0x8 =>
    if bits w 6 3 = 0 then
      (vecOf (bits w 0 6)).map fun f =>
        f c { p := predField w, rd := reg5 w 20, ra := reg5 w 15, rb := reg5 w 10, w := bits w 9 1 == 1 }
    else none
  | 0x9 => if bits w 1 9 = 0 then (vmemOf (bits w 0 1)).map fun f => f c (r3Of w) else none
  | 0xA =>
    if bits w 0 3 < 2 then
      if bits w 3 2 = 0 then
        (descMemOf (bits w 0 3)).map fun f =>
          f c { p := predField w, rd := reg5 w 20, ra := reg5 w 15, off := BitVec.ofNat 10 (bits w 5 10) }
      else none
    else if bits w 5 5 = 0 then
      (descRegOf (bits w 0 3)).map fun f =>
        f c { p := predField w, rd := reg5 w 20, ra := reg5 w 15, rs := reg5 w 10, w := ⟨bits w 3 2, Nat.mod_lt _ (by decide)⟩ }
    else none
  | 0xB => if bits w 2 8 = 0 then (tallyOf (bits w 0 2)).map fun f => f c (r3Of w) else none
  | 0xC =>
    if bits w 9 1 = 0 then
      (tensorOf (bits w 0 2)).map fun f =>
        f c { p := predField w, rd := reg5 w 20, ra := reg5 w 15, rb := reg5 w 10, cnt := reg4 w 5
              tier := ⟨bits w 3 2, Nat.mod_lt _ (by decide)⟩, nt := bits w 2 1 == 1 }
    else none
  | 0xD =>
    if bits w 7 3 = 0 then
      (ringOf (bits w 0 2)).map fun f =>
        f c { p := predField w, rd := reg5 w 20, ra := reg5 w 15, rb := reg5 w 10
              rop := ⟨bits w 4 3, Nat.mod_lt _ (by decide)⟩, vc := ⟨bits w 2 2, Nat.mod_lt _ (by decide)⟩ }
    else none
  | 0xE =>
    if bits w 0 4 = 0 ∧ bits v 17 3 = 0 then
      (engOf (kf (reg5 w 11)) (bits w 21 4) (bits w 16 5)).map fun f => f c (engFOf w v)
    else none
  | _ =>
    if bits w 0 5 = 1 then
      if bits w 6 4 = 0 then
        some (.endc c { p := predField w, rd := reg5 w 20, ra := reg5 w 15, rb := reg5 w 10, t := bits w 5 1 == 1 })
      else none
    else if bits w 15 5 = 0 then
      (ctrlOf (bits w 0 5)).map fun f => f c { p := predField w, rd := reg5 w 20, imm := BitVec.ofNat 10 (bits w 5 10) }
    else none

/-- CLASS, PRED, RD, RA and the low 15 bits (05 Table 5.3). -/
def wordOf (cls : Nat) (p : Fin 8) (rd ra : Fin 32) (low : Nat) : W32 :=
  BitVec.ofNat 32 (cls * 2 ^ 28 + p.val * 2 ^ 25 + rd.val * 2 ^ 20 + ra.val * 2 ^ 15 + low)

def encR3 (cls fn : Nat) (o : R3) : W32 × W32 := (wordOf cls o.p o.rd o.ra (o.rb.val * 2 ^ 10 + fn), 0)

def encI12 (cls fn : Nat) (o : I12) : W32 × W32 := (wordOf cls o.p o.rd o.ra (fn * 2 ^ 12 + o.imm.toNat), 0)

def encU20 (cls : Nat) (o : U20) : W32 × W32 := (wordOf cls o.p o.rd 0 o.imm.toNat, 0)

def encV3 (fn : Nat) (o : V3) : W32 × W32 := (wordOf 8 o.p o.rd o.ra (o.rb.val * 2 ^ 10 + o.w.toNat * 2 ^ 9 + fn), 0)

def encDMem (fn : Nat) (o : DMem) : W32 × W32 := (wordOf 10 o.p o.rd o.ra (o.off.toNat * 2 ^ 5 + fn), 0)

def encDReg (fn : Nat) (o : DReg) : W32 × W32 := (wordOf 10 o.p o.rd o.ra (o.rs.val * 2 ^ 10 + o.w.val * 2 ^ 3 + fn), 0)

def encTen (fn : Nat) (o : Ten) : W32 × W32 :=
  (wordOf 12 o.p o.rd o.ra (o.rb.val * 2 ^ 10 + o.cnt.val * 2 ^ 5 + o.tier.val * 2 ^ 3 + o.nt.toNat * 2 ^ 2 + fn), 0)

def encRng (fn : Nat) (o : Rng) : W32 × W32 :=
  (wordOf 13 o.p o.rd o.ra (o.rb.val * 2 ^ 10 + o.rop.val * 2 ^ 4 + o.vc.val * 2 ^ 2 + fn), 0)

/-- The two words of an engine issue (05 Table 5.12). -/
def encEng (eng op : Nat) (o : EngF) : W32 × W32 :=
  (BitVec.ofNat 32 (14 * 2 ^ 28 + o.p.val * 2 ^ 25 + eng * 2 ^ 21 + op * 2 ^ 16 + o.sp.val * 2 ^ 11 + o.dD.val * 2 ^ 7
      + o.den.toNat * 2 ^ 6 + o.notally.toNat * 2 ^ 5 + o.accum.toNat * 2 ^ 4),
    BitVec.ofNat 32 (o.dA.val * 2 ^ 28 + o.dB.val * 2 ^ 24 + o.dC.val * 2 ^ 20 + o.tally.toNat))

def encCtl (fn : Nat) (o : CtlF) : W32 × W32 := (wordOf 15 o.p o.rd 0 (o.imm.toNat * 2 ^ 5 + fn), 0)

def encEnd (o : EndF) : W32 × W32 := (wordOf 15 o.p o.rd o.ra (o.rb.val * 2 ^ 10 + o.t.toNat * 2 ^ 5 + 1), 0)

/-- The words of a conductor instruction (05 Tables 5.3 to 5.17); none for every other command. -/
def encodeWord (i : Instr) : Option (W32 × W32) :=
  match i with
  | .add _ o => some (encR3 0 0 o)
  | .sub _ o => some (encR3 0 1 o)
  | .and _ o => some (encR3 0 2 o)
  | .or _ o => some (encR3 0 3 o)
  | .xor _ o => some (encR3 0 4 o)
  | .sll _ o => some (encR3 0 5 o)
  | .srl _ o => some (encR3 0 6 o)
  | .sra _ o => some (encR3 0 7 o)
  | .mul _ o => some (encR3 0 8 o)
  | .mulh _ o => some (encR3 0 9 o)
  | .mulhu _ o => some (encR3 0 10 o)
  | .min _ o => some (encR3 0 11 o)
  | .max _ o => some (encR3 0 12 o)
  | .minu _ o => some (encR3 0 13 o)
  | .maxu _ o => some (encR3 0 14 o)
  | .addi _ o => some (encI12 1 0 o)
  | .andi _ o => some (encI12 1 1 o)
  | .ori _ o => some (encI12 1 2 o)
  | .xori _ o => some (encI12 1 3 o)
  | .slli _ o => some (encI12 1 4 o)
  | .srli _ o => some (encI12 1 5 o)
  | .srai _ o => some (encI12 1 6 o)
  | .lui _ o => some (encU20 2 o)
  | .ceq _ o => some (encR3 3 0 o)
  | .cne _ o => some (encR3 3 1 o)
  | .clt _ o => some (encR3 3 2 o)
  | .cltu _ o => some (encR3 3 3 o)
  | .cge _ o => some (encR3 3 4 o)
  | .cgeu _ o => some (encR3 3 5 o)
  | .pand _ o => some (encR3 3 8 o)
  | .por _ o => some (encR3 3 9 o)
  | .pxor _ o => some (encR3 3 10 o)
  | .pnot _ o => some (encR3 3 11 o)
  | .ldb _ o => some (encI12 4 0 o)
  | .ldh _ o => some (encI12 4 1 o)
  | .ldw _ o => some (encI12 4 2 o)
  | .ldd _ o => some (encI12 4 3 o)
  | .ldbu _ o => some (encI12 4 4 o)
  | .ldhu _ o => some (encI12 4 5 o)
  | .ldwu _ o => some (encI12 4 6 o)
  | .ldx _ o _ => some (encI12 4 7 o)
  | .stb _ o => some (encI12 5 0 o)
  | .sth _ o => some (encI12 5 1 o)
  | .stw _ o => some (encI12 5 2 o)
  | .std _ o => some (encI12 5 3 o)
  | .stx _ o => some (encI12 5 7 o)
  | .jal _ o => some (encU20 6 o)
  | .jalr _ o => some (encI12 7 0 o)
  | .vadd _ o => some (encV3 0 o)
  | .vadds _ o => some (encV3 1 o)
  | .vsub _ o => some (encV3 2 o)
  | .vmul _ o => some (encV3 3 o)
  | .vmax _ o => some (encV3 4 o)
  | .vmin _ o => some (encV3 5 o)
  | .vand _ o => some (encV3 6 o)
  | .vor _ o => some (encV3 7 o)
  | .vxor _ o => some (encV3 8 o)
  | .vshl _ o => some (encV3 9 o)
  | .vshr _ o => some (encV3 10 o)
  | .vsplat _ o => some (encV3 11 o)
  | .vext _ o => some (encV3 12 o)
  | .vredadd _ o => some (encV3 13 o)
  | .vredmax _ o => some (encV3 14 o)
  | .vcmpgt _ o => some (encV3 15 o)
  | .vsel _ o => some (encV3 16 o)
  | .vexp2 _ o => some (encV3 17 o)
  | .vlog2 _ o => some (encV3 18 o)
  | .vbsort _ o => some (encV3 19 o)
  | .vmov _ o => some (encV3 20 o)
  | .vld _ o _ => some (encR3 9 0 o)
  | .vst _ o => some (encR3 9 1 o)
  | .dld _ o => some (encDMem 0 o)
  | .dst _ o => some (encDMem 1 o)
  | .dsetw _ o => some (encDReg 2 o)
  | .dgetw _ o => some (encDReg 3 o)
  | .daddo _ o => some (encDReg 4 o)
  | .dmov _ o => some (encDReg 5 o)
  | .wait _ o => some (encR3 11 0 o)
  | .signal _ o => some (encR3 11 1 o)
  | .tadd _ o => some (encR3 11 2 o)
  | .tread _ o => some (encR3 11 3 o)
  | .pin _ o => some (encTen 0 o)
  | .unpin _ o => some (encTen 1 o)
  | .mig _ o => some (encTen 2 o)
  | .rsend _ o => some (encRng 0 o)
  | .rrecv _ o => some (encRng 1 o)
  | .rreduce _ o => some (encRng 2 o)
  | .xmul _ o => some (encEng 0 0 o)
  | .mvmul _ o => some (encEng 1 0 o)
  | .topk _ o => some (encEng 2 0 o)
  | .lscan _ o => some (encEng 3 0 o)
  | .gath _ o => some (encEng 4 0 o)
  | .scat _ o => some (encEng 4 1 o)
  | .samp _ o => some (encEng 5 0 o)
  | .mconv _ o => some (encEng 6 0 o)
  | .ttok _ o => some (encEng 7 0 o)
  | .tdtk _ o => some (encEng 7 1 o)
  | .hrd _ o => some (encEng 8 0 o)
  | .hwr _ o => some (encEng 8 1 o)
  | .kvcmpOpen _ o => some (encEng 4 2 o)
  | .kvcmpReserve _ o => some (encEng 4 2 o)
  | .kvcmpSetlen _ o => some (encEng 4 2 o)
  | .kvcmpCompact _ o => some (encEng 4 2 o)
  | .kvcmpState _ o => some (encEng 4 2 o)
  | .kvcmpClose _ o => some (encEng 4 2 o)
  | .nop _ o => some (encCtl 0 o)
  | .drain _ o => some (encCtl 2 o)
  | .time _ o => some (encCtl 3 o)
  | .csrr _ o => some (encCtl 4 o)
  | .trap _ o => some (encCtl 5 o)
  | .endc _ o => some (encEnd o)
  | _ => none

end Sys2Proof
end

