-- ==== Sys2Proof/Config.lean ====
section
/-! DEFINITION. What the model leaves free: opaque constants with no body, so that nothing can be proved of a value the
spec does not fix (log 1, log 2), and the arithmetic of FIPS 186-5, which the spec names and does not state. -/

namespace Sys2Proof.Config

/-- A byte the spec leaves undefined (06 R162, 10 R260, 12 R302), applied to the state's free counter. -/
opaque freeByte : Nat → BitVec 8

/-- A number the spec leaves open, applied to the state's free counter. -/
opaque freeNat : Nat → Nat

/-- The 32 bytes of a fresh debug challenge (22 R515, reset value 'Random'), applied to the free counter. -/
opaque challenge : Nat → BitVec 256

/-- Q of an emitted token that has no logit in its row (13 R313 gives none), a function of the six inputs of 13 R316: the logits row, the
parameter record, the channel, STEP, TAIL and the set's contents. -/
opaque tokenQ : List Int → List (BitVec 8) → Nat → Nat → List Nat → List (BitVec 8) → BitVec 12

/-- SHA-384 of a message (20 R470 names FIPS 186-5 with SHA-384 and does not state it). -/
opaque sha384 : List (BitVec 8) → BitVec 384

/-- The curve check of 20 R470: the public key is a valid point on P-384. -/
opaque p384Point : List (BitVec 8) → Bool

/-- The ECDSA P-384 verification of 20 R470 over message, public key, signature, with r and s in range. -/
opaque ecdsaVerify : List (BitVec 8) → List (BitVec 8) → List (BitVec 8) → Bool

/-- The input slots of every fabric link (17 Table 17.6 class 1), which the spec does not count. -/
opaque fabricCredits : Nat

end Sys2Proof.Config
end

