-- ==== Sys2Proof/Machine/Memory.lean ====
section
/-! DEFINITION. Sparse storage in one canonical form: indices strictly rising, and no entry equal to what an unlisted index
reads as. Memories of bytes are Sparse with the default 0, flash with the default 0xFF (20 R478: erased flash, log 7). -/

namespace Sys2Proof.Machine

/-- What index `k` holds. -/
def sget {β : Type} (d : β) : Sparse β → Nat → β
  | [], _ => d
  | (a, b) :: t, k => if a = k then b else sget d t k

/-- Insert an entry before the first larger index. -/
def sins {β : Type} (k : Nat) (v : β) : Sparse β → Sparse β
  | [] => [(k, v)]
  | (a, b) :: t => if k < a then (k, v) :: (a, b) :: t else (a, b) :: sins k v t

/-- Write index `k`; writing the default removes the entry. -/
def sput {β : Type} [DecidableEq β] (d : β) (m : Sparse β) (k : Nat) (v : β) : Sparse β :=
  if v = d then m.filter (·.1 != k) else sins k v (m.filter (·.1 != k))

/-- Every index of the list lies above `k`. -/
def sabove {β : Type} (k : Nat) (m : Sparse β) : Bool := m.all fun e => k < e.1

/-- The canonical form. -/
def swf {β : Type} [DecidableEq β] (d : β) : Sparse β → Bool
  | [] => true
  | (a, b) :: t => decide (b ≠ d) && sabove a t && swf d t

/-- The canonical form of a byte memory whose unlisted bytes read 0. -/
def Memory.wf (m : Cells) : Bool := swf (0 : Byte) m

/-- Erase every index from `lo` up to `lo + n - 1`. -/
def sclear {β : Type} (m : Sparse β) (lo n : Nat) : Sparse β := m.filter fun e => e.1 < lo || lo + n ≤ e.1

/-- `n` bytes from address `a` up. -/
def rdBytes (m : Cells) (a n : Nat) : List Byte := (List.range n).map fun i => sget 0 m (a + i)

/-- A little-endian number of `n` bytes at address `a`. -/
def rdLe (m : Cells) (a n : Nat) : Nat := ofLe (rdBytes m a n)

/-- Store bytes from address `a` up. -/
def wrBytes (m : Cells) (a : Nat) : List Byte → Cells
  | [] => m
  | b :: t => wrBytes (sput 0 m a b) (a + 1) t

def wrLe (m : Cells) (a n v : Nat) : Cells := wrBytes m a (leBytes n v)

/-- The memory that holds the bytes of a list from address 0 up. -/
def memOf (bs : List Byte) : Cells := wrBytes [] 0 bs

end Sys2Proof.Machine
end

