-- ==== Sys2Proof/Machine/Ops.lean ====
section
/-! DEFINITION. Named access to the state: partitions, clusters, jobs, operations, counters, tallies; the fields of a
configuration set (08 Table 8.2); the numbering of dies and granules (01 R11, R12, R15); which function reaches what (03 R58,
R59). -/

namespace Sys2Proof.Machine

/-! ## Parts of the state -/

def State.P (s : State) (p : Fin 16) : Ptn := s.ptn[p]

def State.modP (s : State) (p : Fin 16) (f : Ptn → Ptn) : State := { s with ptn := s.ptn.set p (f s.ptn[p]) }

def State.modC (s : State) (c : Fin 32) (f : Cluster → Cluster) : State := { s with cl := s.cl.set c (f s.cl[c]) }

def State.modIo (s : State) (i : Fin 2) (f : IoDie → IoDie) : State := { s with io := s.io.set i (f s.io[i]) }

def State.modPort (s : State) (k : Fin 4) (f : Port → Port) : State :=
  { s with dlk := { s.dlk with port := s.dlk.port.set k (f s.dlk.port[k]) } }

def State.modSw (s : State) (k : Fin 2) (f : Switch → Switch) : State :=
  { s with dlk := { s.dlk with sw := s.dlk.sw.set k (f s.dlk.sw[k]) } }

def State.job? (s : State) (id : Nat) : Option Job := s.jobs.find? (·.id == id)

def State.modJob (s : State) (id : Nat) (f : Job → Job) : State :=
  { s with jobs := s.jobs.map fun j => if j.id = id then f j else j }

def State.op? (s : State) (id : Nat) : Option Op := s.ops.find? (·.id == id)

def State.modOp (s : State) (id : Nat) (f : Op → Op) : State :=
  { s with ops := s.ops.map fun o => if o.id = id then f o else o }

/-- Fold a change over a list of keys. -/
def State.each {α : Type} (s : State) (l : List α) (f : State → α → State) : State := l.foldl f s

/-- The index of a counter. -/
def Ctr.ix (k : Ctr) : Fin nCtr := ⟨k.ctorIdx, by cases k <;> decide⟩

/-- Add to a counter that holds at all ones until it is read. -/
def State.bump (s : State) (p : Fin 16) (k : Ctr) (n : Nat) : State :=
  s.modP p fun q => { q with cnt := q.cnt.set k.ix (satAdd q.cnt[k.ix] n) }

/-- Add `n` single units to a counter that counts in units of 1,024. -/
def State.bumpK (s : State) (p : Fin 16) (k : Ctr) (n : Nat) : State :=
  s.modP p fun q =>
    { q with cnt := q.cnt.set k.ix (satAdd q.cnt[k.ix] ((q.frac[k.ix] + n) / 1024))
             frac := q.frac.set k.ix ((q.frac[k.ix] + n) % 1024) }

/-- The admission counter of a code (04 Table 4.7). -/
def admCtr : Nat → Ctr
  | 0 => .adm0 | 1 => .adm1 | 2 => .adm2 | 3 => .adm3 | 4 => .adm4 | 5 => .adm5 | 6 => .adm6 | _ => .adm7

def State.tallyGet (s : State) (t : Nat) : W32 := sget 0 s.tallies t

def State.tallyPut (s : State) (t : Nat) (v : W32) : State := { s with tallies := sput 0 s.tallies t v }

/-- The value taken for the `i`-th free byte from here on (06 R162). -/
def State.freeByteAt (s : State) (i : Nat) : Byte := Config.freeByte (s.free + i)

/-- Which `n` entries a full cache gives up is not stated (log 52): each is a free choice, `k` the counter of the first. -/
def evict {α : Type} : Nat → Nat → List α → List α
  | 0, _, l => l
  | n + 1, k, l => evict n (k + 1) (l.eraseIdx (Config.freeNat k % max 1 l.length))

/-! ## Package facts -/

def Fuses.nGran (f : Fuses) : Nat := match f.stackCode.toNat with | 0 => 64 | 1 => 96 | _ => 128

/-- The die of a T1 granule (01 Table 1.4). -/
def Fuses.dieT1 (f : Fuses) (g : Nat) : Nat :=
  match f.stackCode.toNat with
  | 0 => g / 16 % 4
  | 1 => if g < 64 then g / 32 else (g / 16 - 2) % 4
  | _ => g / 32 % 4

/-- The die of a granule; (true, g) is T1 granule g, (false, g) T0 granule g. -/
def State.dieOf (s : State) (g : Bool × Nat) : Nat := if g.1 then s.fuses.dieT1 g.2 else g.2 / 24 % 4

/-- 4 KiB frames of a granule. -/
def granFrames (isT1 : Bool) : Nat := if isT1 then 262144 else 4096

def dieOfCluster (c : Fin 32) : Nat := c.val / 8

/-! ## Fields of a configuration set -/

abbrev CfgSet := BitVec 4096

def csIo (b : CfgSet) : Fin 2 := ⟨fld b 0 1, Nat.mod_lt _ (by decide)⟩
def csWeight (b : CfgSet) : Nat := fld b 8 8
def csC0 (b : CfgSet) : Nat := fld b 16 6
def csTxu (b : CfgSet) : Nat := fld b 24 4
def csClusters (b : CfgSet) : Nat := fld b 32 32
def csSlots (b : CfgSet) (c : Nat) : Nat := fld b (64 + 16 * c) 13
def csChanBase (b : CfgSet) : Nat := fld b 128 12
def csChanCount (b : CfgSet) : Nat := fld b 144 13
def csRoot (b : CfgSet) : Nat := fld b 204 52 * 4096
def csTallies (b : CfgSet) : Nat := fld b 256 128
def csT1 (b : CfgSet) : Nat := fld b 384 128
def csT0 (b : CfgSet) : Nat := fld b 512 96
def csImage (b : CfgSet) : Nat := fld b 1024 48
def csImageLen (b : CfgSet) : Nat := fld b 1088 32
def csWuCeil (b : CfgSet) : Nat := fld b 1120 32
def csDeferMax (b : CfgSet) (c : Nat) : Nat := fld b (1152 + 16 * c) 11
def csTdGranule (b : CfgSet) : Nat := fld b 1216 7
def csTdCap (b : CfgSet) : Nat := fld b 1248 17
def csAdapter (b : CfgSet) : Nat := fld b 1280 48
def csConstraint (b : CfgSet) : Nat := fld b 1344 48
def csTableRoot (b : CfgSet) : Nat := fld b 1408 48
def csIndexRoot (b : CfgSet) : Nat := fld b 1472 48
def csSeg (b : CfgSet) (i : Nat) : Nat := fld b (2048 + 128 * i) 128

/-- A channel lies within the set's range (12 R281). -/
def csChan (b : CfgSet) (c : Nat) : Bool := csChanBase b ≤ c && c < csChanBase b + csChanCount b

/-- Fields of a segment entry (07 Table 7.5). -/
def segV (e : Nat) : Bool := e.testBit 0
def segR (e : Nat) : Bool := e.testBit 1
def segW (e : Nat) : Bool := e.testBit 2
def segBase (e : Nat) : Nat := bits e 12 36 * 4096
def segEng (e : Nat) (k : Nat) : Bool := (bits e 64 9).testBit k
def segCnd (e : Nat) : Bool := e.testBit 73
def segRing (e : Nat) : Bool := e.testBit 74
def segLimit (e : Nat) : Nat := bits e 76 36 * 4096

/-- The configuration set CFG-B (true) or CFG-A (false) of a partition. -/
def Ptn.cset (q : Ptn) (cfg : Bool) : CfgSet := if cfg then q.cfgB else q.cfgA

/-- The active set; a partition with no active set grants and binds nothing (08 R220). -/
def Ptn.act (q : Ptn) : CfgSet := if q.activeValid then q.cset q.swap.active else 0

def Ptn.img (q : Ptn) (cfg : Bool) : Image := if cfg then q.imgB else q.imgA

def Ptn.setImg (q : Ptn) (cfg : Bool) (i : Image) : Ptn := if cfg then { q with imgB := i } else { q with imgA := i }

/-- The set a job is bound to (04 R104). -/
def State.jobSet (s : State) (j : Job) : CfgSet := (s.P j.ptn).cset j.cfg

/-- Unfinished jobs bound to a set: a job is bound from its decision to its end (04 R104; 08 R200; log 72). -/
def State.bound (s : State) (p : Fin 16) (cfg : Bool) : List Job := s.jobs.filter fun j => j.ptn == p && j.cfg == cfg && j.ph != .ended

/-- The set a job is bound to, or, for no job, the active one. -/
def State.setFor (s : State) (p : Fin 16) (job : Option Nat) : CfgSet :=
  match job.bind s.job? with | some j => s.jobSet j | none => (s.P p).act

/-- The I/O die a partition is bound to, if it has an active set (03 R58). -/
def State.ioOf (s : State) (p : Fin 16) : Option (Fin 2) := if (s.P p).activeValid then some (csIo (s.P p).act) else none

/-- What a partition owns by one grant mask: the active set's grant with those of a set that unfinished jobs are bound to
(08 R200). -/
def State.owns (s : State) (p : Fin 16) (f : CfgSet → Nat) : Nat :=
  let q := s.P p
  f q.act ||| (if q.activeValid && !(s.bound p (!q.swap.active)).isEmpty then f (q.cset (!q.swap.active)) else 0)

/-! ## Fields of a job descriptor (03 Table 3.4) -/

/-- WORK_EST of a descriptor (03 Table 3.4). -/
def dWork (d : BitVec 1024) : Nat := fld d 96 32
def dClass (d : BitVec 1024) : Nat := fld d 72 2
def dDeadline (d : BitVec 1024) : Nat := fld d 128 64
def dArgLen (d : BitVec 1024) : Nat := fld d 256 32
def dArgIova (d : BitVec 1024) : Nat := fld d 192 48
def dTag (d : BitVec 1024) : Nat := fld d 0 64
def dEntry (d : BitVec 1024) : Nat := fld d 80 8
def dStream (d : BitVec 1024) : Nat := fld d 88 4
def dStreamEn (d : BitVec 1024) : Bool := bit d 92

/-! ## Service order (04 R94) -/

/-- A deadline of 0 counts as latest. -/
def dlKey (d : BitVec 1024) : Nat := if dDeadline d = 0 then 2 ^ 64 else dDeadline d

/-- The shared resources whose use is measured: an engine kind, and each direction of each host link (07 R521). -/
def resEngine (k : QKind) : Nat := k.ctorIdx
def resLink (io : Fin 2) (write : Bool) : Nat := 16 + 2 * io.val + write.toNat

/-- Use older than 10 ms is forgotten. -/
def State.noteUse (s : State) (r : Nat) (p : Fin 16) (amount : Nat) : State :=
  { s with uses := { res := r, ptn := p, at_ := s.clk.gt, amount := amount } ::
      s.uses.filter fun u => s.clk.gt.toNat < u.at_.toNat + 10000000 }

/-- Measured use of a resource by a partition over the last 10 ms. -/
def State.useOf (s : State) (r : Nat) (p : Fin 16) : Nat :=
  ((s.uses.filter fun u => u.res == r && u.ptn == p && s.clk.gt.toNat < u.at_.toNat + 10000000).map (·.amount)).sum

/-- WEIGHT of a partition: its active set's (04 R104). -/
def State.weight (s : State) (p : Fin 16) : Nat := csWeight (s.P p).act

/-- What decides the turn of a job or a transfer. -/
structure Turn where
  cls : Nat
  dl : Nat
  ptn : Fin 16
  order : Nat
  deriving DecidableEq, Repr

/-- a is served before b at a resource: the points of 04 R94 in their order, as 07 R521 restates them. The earlier decision settles equal
deadlines within a partition; between partitions, use over WEIGHT does, and then the earlier decision (log 63). -/
def State.serves (s : State) (r : Nat) (a b : Turn) : Bool :=
  if a.cls ≠ b.cls then a.cls < b.cls
  else if a.dl ≠ b.dl then a.dl < b.dl
  else if a.ptn ≠ b.ptn then
    let ua := s.useOf r a.ptn * s.weight b.ptn
    let ub := s.useOf r b.ptn * s.weight a.ptn
    if ua ≠ ub then ua < ub else a.order < b.order
  else a.order < b.order

def Job.turn (j : Job) : Turn := { cls := dClass j.desc, dl := dlKey j.desc, ptn := j.ptn, order := j.order }

/-! ## The device as a whole -/

/-- Start-up is complete and the main rails are up (20 R472). -/
def State.up (s : State) : Bool := s.pwr.rails && 5 ≤ s.pwr.stage.toNat && s.pwr.stage.toNat < 7

/-- The device is up and has not stopped on an S4 error (18 R430). -/
def State.running (s : State) : Bool := s.up && s.err.firstS4.isNone

/-- The global set in force; all zero until the first GSWAP (08 R220). -/
def State.gact (s : State) : BitVec 2048 :=
  if s.gcr.valid then (if s.gcr.active then s.gcr.gB else s.gcr.gA) else 0

/-- A field of the global set at a byte. -/
def gf (b : BitVec 2048) (byte lo w : Nat) : Nat := fld b (8 * byte + lo) w

/-! ## Reach -/

/-- The index of a function's PCIe state: 0 the PF, n + 1 the VF of partition n. -/
def fnIx : Fn → Fin 17
  | .pf _ => 0
  | .vf _ n => n.succ

def fnIo : Fn → Fin 2
  | .pf io => io
  | .vf io _ => io

/-- The function answers memory requests: its I/O die is fitted and linked, its VF enabled, and it is in D0 (03 R56, R83,
20 R471). -/
def State.fnAlive (s : State) (fn : Fn) : Bool :=
  let d := s.io[fnIo fn]
  d.link && !d.inReset && !d.d3[fnIx fn] && (s.fuses.i2 || fnIo fn == 0) &&
    (match fn with
     | .pf io => s.up || (s.pwr.recovMode && io == 0)
     | .vf _ _ => s.up && d.sriov)

/-- The global blocks: the owner function alone (03 R59). -/
def State.owner (s : State) (fn : Fn) : Bool := s.fnAlive fn && s.up && (match fn with | .pf io => io == 0 | .vf _ _ => false)

/-- The function reaches the block of partition p (03 R58, R59). -/
def State.reach (s : State) (fn : Fn) (p : Fin 16) : Bool :=
  s.fnAlive fn && s.up &&
    (match fn with
     | .pf io => io == 0 || s.ioOf p == some 1
     | .vf io n => n == p && s.ioOf p == some io)

end Sys2Proof.Machine
end

