-- ==== Sys2Proof/Machine/Records.lean ====
section
/-! DEFINITION. Error records (18): layout, issue with nesting, escalation and overflow, the on-chip log. Issuing places a
record in its ring's queue; `Dma.lean` posts it. Containment (18 R416) follows in `Jobs.lean`. -/

namespace Sys2Proof.Machine

/-- What a record says (18 Table 18.3), less what its ring gives it. `detail` is bytes 20-30, little-endian. -/
structure Rec where
  sev : Nat
  kind : Nat
  cause : Nat
  unit : Nat
  ptn : Option (Fin 16)
  job : Option (Nat × Nat)
  detail : Nat
  /-- an EXC_ADDR record follows (18 R423), with this DETAIL -/
  addr : Option Nat
  /-- exempt from 18 R433: the fence's own record, or the FENCE record of a reset -/
  own : Bool
  /-- an S0 record goes to the partition ring (18 Table 18.2) -/
  toPtn : Bool
  deriving DecidableEq, Repr

/-- A record's bytes 0-30 (18 Table 18.3). -/
def encRec (r : Rec) (kind detail sev : Nat) (cont nested esc : Bool) (seq parent : W32) (gt : W64) : BitVec 256 :=
  let flags := sev + 8 * nested.toNat + 16 * esc.toNat + 32 * cont.toNat
  let pf := (match r.ptn with | some p => p.val + 16 | none => 0)
    + (match r.job with | some (ring, slot) => 32 + ring % 8 * 64 + slot % 4096 * 512 | none => 0)
    + (if esc then r.sev * 2 ^ 21 else 0)
  BitVec.ofNat 256 (seq.toNat + flags * 2 ^ 32 + kind % 256 * 2 ^ 40 + r.cause % 256 * 2 ^ 48 + r.unit % 256 * 2 ^ 56
    + pf % 2 ^ 24 * 2 ^ 64 + fld gt 10 40 * 2 ^ 88 + parent.toNat * 2 ^ 128 + detail % 2 ^ 88 * 2 ^ 160)

/-- An error ring of the device: `none` the global ring. -/
abbrev ErRef := Option (Fin 16)

def State.er (s : State) (e : ErRef) : ErrRing := match e with | some p => (s.P p).er | none => s.err.ger

def State.modEr (s : State) (e : ErRef) (f : ErrRing → ErrRing) : State :=
  match e with
  | some p => s.modP p fun q => { q with er := f q.er }
  | none => { s with err := { s.err with ger := f s.err.ger } }

def erSize (e : ErRef) : Nat := match e with | some _ => 256 | none => 1024

/-- Records that can be written to a ring (18 R419, R435, R436, R523). -/
def State.erOn (s : State) (e : ErRef) : Bool :=
  let r := s.er e
  r.en && !r.wfail && (match e with | some p => (s.P p).activeValid | none => true)

/-- Slots not occupied (18 R419: usable capacity size − 1). -/
def State.erFree (s : State) (e : ErRef) : Nat :=
  let r := s.er e
  erSize e - 1 - (r.tail.toNat + erSize e - r.head.toNat) % erSize e

/-- Records issued and not yet written. -/
def ErrRing.waiting (r : ErrRing) : Nat := (r.waitq.map fun w => w.recs.length).sum

/-- Copy a record into the on-chip log (18 R429). -/
def State.logRec (s : State) (e : ErRef) (dropped : Bool) (b : BitVec 256) : State :=
  let ring := match e with | some p => p.val | none => 16
  let x := setFld b 248 8 (ring + 32 * dropped.toNat)
  { s with err := { s.err with
      log := s.err.log.set (s.err.logNext.toNat % 64) x (Nat.mod_lt _ (by decide))
      logNext := s.err.logNext + 1
      logTotal := s.err.logTotal + 1 } }

def State.logAll (s : State) (e : ErRef) (dropped : Bool) (l : List (BitVec 256)) : State := s.each l fun t b => t.logRec e dropped b

/-- A record or pair is not taken by its ring when it is issued: it counts once as overflow and goes to the log, but an S0 or S1 record of
a disabled partition ring is not logged (18 R427, R429, R432, R435). -/
def State.dropRecs (s : State) (e : ErRef) (sev : Nat) (l : List (BitVec 256)) (disabled : Bool) : State :=
  let s := s.modEr e fun r => { r with ovf := satAdd r.ovf 1 }
  if e = none ∨ 2 ≤ sev ∨ !disabled then s.logAll e true l else s

/-- The log entry of a record that was issued becomes that of one not written (18 R429). -/
def State.markDropped (s : State) (e : ErRef) (b : BitVec 256) : State :=
  let ring := match e with | some p => p.val | none => 16
  { s with err := { s.err with
      log := s.err.log.map fun (x : BitVec 256) => if x = setFld b 248 8 ring then setFld b 248 8 (ring + 32) else x } }

/-- A record or pair that was issued is lost before it is written: it counts once as overflow. One that the log holds from its issue is marked there;
another goes to the log, but an S0 or S1 record of a disabled partition ring does not (18 R429, R432, R435, R437). -/
def State.dropLate (s : State) (e : ErRef) (sev : Nat) (l : List (BitVec 256)) (disabled : Bool) : State :=
  let s := s.modEr e fun r => { r with ovf := satAdd r.ovf 1 }
  if e = none ∨ 2 ≤ sev then s.each l fun s b => s.markDropped e b else if !disabled then s.logAll e true l else s

/-- Every record that waits in a ring's queue is lost. -/
def State.dropQueue (s : State) (e : ErRef) (disabled : Bool) : State :=
  let old := (s.er e).waitq
  (s.modEr e fun r => { r with waitq := [] }).each old fun s w => s.dropLate e w.sev w.recs disabled

/-- The next SEQ: it counts from 1 and skips 0 (18 R420). -/
def ErrRing.seq (r : ErrRing) : W32 := if r.nextSeq = 0 then 1 else r.nextSeq

/-- The SEQ after one. -/
def seqSucc (q : W32) : W32 := if q + 1 = 0 then 1 else q + 1

/-- The pair of a unit and this ring (18 R424). -/
def ErrRing.pair (r : ErrRing) (unit : Nat) : Option Hand := r.hand.find? fun h => h.unit.toNat == unit

/-- The record would be the eighth or later nested one under its parent (18 R426). -/
def ErrRing.escalates (r : ErrRing) (unit : Nat) : Bool := match r.pair unit with | some h => 7 ≤ h.nested | none => false

/-- A record or EXCEPTION pair is written or waits, and does not overflow (18 R427, R428, R432). `held` says that a fault
holds the write in front. -/
def State.accepts (s : State) (e : ErRef) (sev n : Nat) (held : Bool) : Bool :=
  if 3 ≤ sev then true
  else (s.er e).waiting + n + 4 ≤ s.erFree e && (!held || (s.er e).waiting + n ≤ 17)

/-- A fault holds a write of this ring (18 R432). -/
def State.erHeld (s : State) (e : ErRef) : Bool :=
  match e with
  | some p => s.xfers.any fun x => x.ptn == p && x.chan == 10 && (match x.st with | .held _ _ => true | .heldUnrec _ _ => true | _ => false)
  | none => false

/-- Issue a record to one ring: assign its SEQ, mark nesting, and place it, or drop it (18 R420, R424-R429, R435). -/
def State.issueTo (s : State) (e : ErRef) (r : Rec) (sev : Nat) (esc : Bool) : State :=
  let g := s.er e
  let seq := g.seq
  let par := g.pair r.unit
  let nested := par.isSome
  let parent := match par with | some h => h.parent | none => 0
  let recs := encRec r r.kind r.detail sev false nested esc seq parent s.clk.gt ::
    (match r.addr with | some d => [encRec r 2 d sev true nested esc (seqSucc seq) parent s.clk.gt] | none => [])
  let next := if r.addr.isSome then seqSucc (seqSucc seq) else seqSucc seq
  let s := s.modEr e fun x => { x with nextSeq := next }
  if s.erOn e ∧ s.accepts e sev recs.length (s.erHeld e) then
    let s := s.modEr e fun x =>
      { x with
        hand := if nested then x.hand.map fun h => if h.unit.toNat = r.unit then { h with nested := h.nested + 1 } else h
                else { unit := BitVec.ofNat 8 r.unit, parent := seq, nested := 0 } :: x.hand
        waitq := x.waitq ++ [{ recs := recs, sev := sev }] }
    if e = none ∨ 2 ≤ sev then s.logAll e false recs else s
  else s.dropRecs e sev recs (!s.erOn e)

/-- What an issued record did: the severity in effect, the SEQ it took in the partition ring, and in the global ring. -/
structure Issued where
  st : State
  sev : Nat
  pseq : W32
  gseq : W32

/-- The Bus Master Enable of IO0's PF is off, so no global-ring write can be issued (18 R436). -/
def State.gerHalt (s : State) : State :=
  if s.err.ger.en && !s.err.ger.wfail && !s.io[0].bme[0] then
    (s.modEr none fun r => { r with wfail := true }).dropQueue none true
  else s

/-- Issue a record to the rings of 18 Table 18.2, escalated under R426. -/
def State.issue (s : State) (r : Rec) : Issued :=
  let s := s.gerHalt
  if s.err.firstS4.isSome then
    if r.sev = 4 then
      -- R434: a later S4 goes to the log alone, with SEQ zero and PARENT naming the first
      let par := match s.err.firstS4 with | some p => p | none => 0
      { st := s.logRec none false (encRec r r.kind r.detail 4 false true false 0 par s.clk.gt), sev := 4, pseq := 0, gseq := 0 }
    else { st := s, sev := 0, pseq := 0, gseq := 0 }
  else
  let muted := match r.ptn with
    | some p => ((s.P p).fenced || (s.P p).fencing) && !r.own
    | none => false
  if muted then { st := s, sev := 0, pseq := 0, gseq := 0 }
  else
    let noEsc := r.kind = 9 ∨ r.sev = 4
    let pq : W32 := match r.ptn with | some p => (s.er (some p)).seq | none => 0
    let gq : W32 := s.err.ger.seq
    match r.sev, r.ptn with
    | 4, _ => { st := { s.issueTo none r 4 false with err := { (s.issueTo none r 4 false).err with firstS4 := some gq } }
                sev := 4, pseq := 0, gseq := gq }
    | 3, some p =>
      if s.err.ger.escalates r.unit && !noEsc then
        let t := s.issueTo none r 4 true
        { st := { t with err := { t.err with firstS4 := some gq } }, sev := 4, pseq := 0, gseq := gq }
      else { st := (s.issueTo none r 3 false).issueTo (some p) r 3 false, sev := 3, pseq := pq, gseq := gq }
    | 2, some p =>
      if (s.er (some p)).escalates r.unit then
        -- an S2 that becomes S3 stays on its ring and has a global copy (18 Worked case)
        { st := (s.issueTo (some p) r 3 true).issueTo none r 3 true, sev := 3, pseq := pq, gseq := gq }
      else { st := s.issueTo (some p) r 2 false, sev := 2, pseq := pq, gseq := 0 }
    | k, pt =>
      let e : ErRef := if r.toPtn then pt else none
      let esc := (s.er e).escalates r.unit && !noEsc && (k < 2 || pt.isSome)
      let sev := if esc then k + 1 else k
      { st := s.issueTo e r sev esc, sev := sev, pseq := pq, gseq := gq }

/-- Unit codes of 18 Table 18.4. -/
def unitIo (io : Fin 2) : Nat := 0x44 + io.val
def unitAdm : Nat := 0x46
def unitPort (k : Fin 4) : Nat := 0x48 + k.val
def unitRing : Nat := 0x4C
def unitLedger : Nat := 0x4D
def unitMem (die : Nat) : Nat := 0x50 + die
def unitFabric : Nat := 0x54
def unitClk : Nat := 0x55
def unitPwr : Nat := 0x56
def unitBus : Nat := 0x57

/-- A record with no DETAIL, naming nothing. -/
def recOf (sev kind cause unit : Nat) : Rec :=
  { sev := sev, kind := kind, cause := cause, unit := unit, ptn := none, job := none, detail := 0, addr := none, own := false, toPtn := false }

end Sys2Proof.Machine
end

