-- ==== Sys2Proof/Machine/Dir.lean ====
section
/-! DEFINITION. Frames, the tensor directory, and the all-or-nothing reservation (07 R168-R180). -/

namespace Sys2Proof.Machine

def framesIn (l : Frames) (g : Bool × Nat) : Nat := ((l.filter fun e => e.1 = g).map (·.2)).sum

def frameTotal {α : Type} (l : List (α × Nat)) : Nat := (l.map (·.2)).sum

/-- Take up to `n` frames from a list, in its order. -/
def takeFrames {α : Type} : List (α × Nat) → Nat → List (α × Nat) × List (α × Nat)
  | [], _ => ([], [])
  | (g, k) :: t, n =>
    if n = 0 then ([], (g, k) :: t)
    else if k ≤ n then
      let r := takeFrames t (n - k)
      ((g, k) :: r.1, r.2)
    else ([(g, n)], (g, k - n) :: t)

/-- The frames of a claim. -/
def Claim.frames (l : Claim) : Frames := l.map fun e => (e.1.2, e.2)

/-- Frames that are free, or that the write-back of a tensor still holds, as a claim. -/
def claimOf (v : Option Nat) (l : Frames) : Claim := l.map fun e => ((v, e.1), e.2)

/-- No write-back holds a frame of a claim any more. -/
def Claim.free (l : Claim) : Bool := l.all fun e => e.1.1.isNone || e.2 == 0

/-- A claim with the frames that can be filled now first. -/
def Claim.readyFirst (l : Claim) : Claim := (l.filter fun e => e.1.1.isNone) ++ l.filter fun e => e.1.1.isSome

/-- The tensor that contains a UTA address (07 R169). -/
def Ptn.tensorAt (q : Ptn) (a : Nat) : Option Tensor := q.dir.find? fun t => t.base ≤ a && a < t.base + t.size * 4096

def Ptn.tensor (q : Ptn) (base : Nat) : Option Tensor := q.dir.find? (·.base == base)

def State.modTensor (s : State) (p : Fin 16) (base : Nat) (f : Tensor → Tensor) : State :=
  s.modP p fun q => { q with dir := q.dir.map fun t => if t.base = base then f t else t }

/-- The contents of a tensor's range are zeroed or dropped. -/
def Ptn.wipe (q : Ptn) (base size : Nat) : Ptn :=
  { q with mem := sclear q.mem base (size * 4096)
           bad := q.bad.filter fun u => u * 64 < base || base + size * 4096 ≤ u * 64 }

/-- Granules that a swap in progress drops, from its VALIDATING on (07 R178, 08 R207). -/
def Ptn.dropping (q : Ptn) (f : CfgSet → Nat) : Nat :=
  let on := match q.swap.st with | .validating | .waitResource | .pending => true | .waitFence => q.swap.began | _ => false
  if on then f q.act &&& (f q.act ^^^ (f q.act &&& f (q.cset (!q.swap.active)))) else 0

/-- Granules of a tier on a die in which frames may be allocated under a configuration set, ascending: granted by the set, not dropped by a
swap in progress (08 R207, R208, R209). -/
def State.granules (s : State) (p : Fin 16) (b : CfgSet) (die : Nat) (isT1 : Bool) : List (Bool × Nat) :=
  let f := if isT1 then csT1 else csT0
  let d := (s.P p).dropping f
  (((ones 128 (f b)).filter fun g => !d.testBit g).map fun g => (isT1, g)).filter fun g => s.dieOf g == die

/-- Frames of a granule that hold the directory (07 R171). -/
def dirFrames (b : CfgSet) (g : Bool × Nat) : Nat := if g.1 && g.2 == csTdGranule b && csTdCap b != 0 then divUp (csTdCap b * 32) 4096 else 0

/-- Frames of a granule in use by tensors, moves, reservations and the directory. -/
def State.usedIn (s : State) (p : Fin 16) (g : Bool × Nat) : Nat :=
  let q := s.P p
  ((q.dir.map fun t => framesIn (t.frames ++ t.dest.frames ++ t.next.flatMap fun n => n.dest.frames) g).sum)
    + (((s.jobs.filter fun j => j.ptn == p).map fun j => framesIn (j.resT0 ++ j.argT0 ++ j.resT1).frames g).sum)
    + dirFrames q.act g

/-- Free frames of a granule. -/
def State.freeIn (s : State) (p : Fin 16) (g : Bool × Nat) : Nat := granFrames g.1 - s.usedIn p g

/-- Free frames of a die and tier, lowest granule first (log 8). -/
def State.freeList (s : State) (p : Fin 16) (b : CfgSet) (die : Nat) (isT1 : Bool) : Frames :=
  ((s.granules p b die isT1).map fun g => (g, s.freeIn p g)).filter fun e => e.2 != 0

/-- Frames of a list that lie in allocatable granules. -/
def State.claimable (s : State) (p : Fin 16) (b : CfgSet) (die : Nat) (isT1 : Bool) (l : Frames) : Frames :=
  l.filter fun e => (s.granules p b die isT1).contains e.1

/-- The home die of a tensor that a PIN or MIG from a cluster's die places. HOME 7 is the die on which it was first placed, or is being
placed (07 Table 7.2). -/
def State.homeDie (s : State) (t : Tensor) (die : Nat) : Nat :=
  if t.home ≠ 7 then t.home.toNat % 4
  else match t.homed, t.dest ++ t.next.flatMap (·.dest) with
    | some d, _ => d.val
    | none, e :: _ => s.dieOf e.1.2
    | none, [] => die

/-- The tensor is resident in T0 or T1, and not on its way out to T2 (07 R193). -/
def Tensor.resident (t : Tensor) : Bool :=
  t.tier != 2 && (match t.moving with
    | none => true | some .flush => true | some (.move _) => true | some .load => false | some (.writeback _) => false)

/-- Tensors that a reservation may evict (07 R178). -/
def State.evictable (s : State) (p : Fin 16) (die : Nat) (isT1 : Bool) (keep : List Nat) : List Tensor :=
  (s.P p).dir.filter fun t =>
    t.pins == 0 && t.backed && t.moving.isNone && !keep.contains t.base && t.tier == (if isT1 then 1 else 0) && t.die.val == die

/-- Eviction order: clean before dirty, older LAST_UNPIN first, then the lower UTA_BASE (07 R178). -/
def evictBefore (a b : Tensor) : Bool :=
  if a.dirty != b.dirty then !a.dirty
  else if a.lastUnpin != b.lastUnpin then a.lastUnpin.toNat < b.lastUnpin.toNat
  else a.base < b.base

/-- What a reservation got: the state and its frames. -/
structure Got where
  st : State
  got : Claim

/-- Take a transfer number. -/
def State.newX (s : State) (x : Xfer) : State := { s with xfers := s.xfers ++ [{ x with id := s.nextXfer }], nextXfer := s.nextXfer + 1 }

def blankX (p : Fin 16) (cfg : Bool) (chan iova len : Nat) (write : Bool) : Xfer :=
  { id := 0, ptn := p, cfg := cfg, chan := chan, job := none, op := none, base := 0, iova := iova, len := len, write := write
    done := 0, st := .walking, ring := .er, slot := 0, fseq := 0, live := true, data := [], bad1 := none }

/-- The set a transfer caused by a job uses: the job's, or the active one. -/
def State.cfgFor (s : State) (p : Fin 16) (job : Option Nat) : Bool :=
  match job with
  | some id => match s.job? id with | some j => j.cfg | none => (s.P p).swap.active
  | none => (s.P p).swap.active

/-- The bytes of a tensor as a write-back sends them: an uncorrectable unit is written as zeros (07 R197). -/
def Ptn.wbBytes (q : Ptn) (t : Tensor) : List Byte :=
  (List.range (t.size * 4096)).map fun i => if q.bad.contains ((t.base + i) / 64) then 0 else sget 0 q.mem (t.base + i)

/-- Start the whole write-back of a dirty tensor (07 R172, R175, R178). -/
def State.startWb (s : State) (p : Fin 16) (t : Tensor) (why : Mv) (job : Option Nat) : State :=
  let s := s.modTensor p t.base fun u => { u with moving := some why, cause := job }
  s.newX { blankX p (s.cfgFor p job) 1 t.t2 (t.size * 4096) true with
    base := t.base, job := job, data := (s.P p).wbBytes t
    bad1 := (s.P p).bad.find? fun u => t.base ≤ u * 64 && u * 64 < t.base + t.size * 4096 }

/-- Apply a change that uses up a count along a list. -/
def useUp {α : Type} (f : α → Nat → α × Nat) : List α → Nat → List α × Nat
  | [], n => ([], n)
  | x :: t, n =>
    let a := f x n
    let r := useUp f t a.2
    (a.1 :: r.1, r.2)

/-- A write-back reads up to `n` of the frames of a claim that it held: they can be filled now. -/
def Claim.read (v : Nat) : Claim → Nat → Claim × Nat
  | [], n => ([], n)
  | e :: t, n =>
    if e.1.1 = some v ∧ n ≠ 0 then
      let k := min n e.2
      let r := Claim.read v t (n - k)
      ((((none, e.1.2), k) :: if k = e.2 then [] else [((some v, e.1.2), e.2 - k)]) ++ r.1, r.2)
    else
      let r := Claim.read v t n
      (e :: r.1, r.2)

def Tensor.read (v : Nat) (t : Tensor) (n : Nat) : Tensor × Nat :=
  let a := t.dest.read v n
  let b := useUp (fun (x : NextMv) n => let r := x.dest.read v n; ({ x with dest := r.1 }, r.2)) t.next a.2
  ({ t with dest := a.1, next := b.1 }, b.2)

def Job.read (v : Nat) (j : Job) (n : Nat) : Job × Nat :=
  let a := j.argT0.read v n
  let b := j.resT0.read v a.2
  let c := j.resT1.read v b.2
  ({ j with argT0 := a.1, resT0 := b.1, resT1 := c.1 }, c.2)

/-- The eviction write-back of tensor v has read `n` more of its frames: those that reservations wait for, in the model's order (log 8), and
then the rest, which are free (07 R178). -/
def State.wbRead (s : State) (p : Fin 16) (v n : Nat) : State :=
  let a := useUp (Tensor.read v) (s.P p).dir n
  let b := useUp (fun (j : Job) n => if j.ptn = p then j.read v n else (j, n)) s.jobs a.2
  ({ s with jobs := b.1 }.modP p fun q => { q with dir := a.1 }).modTensor p v fun t => { t with frames := (takeFrames t.frames b.2).2 }

/-- A claim ends: a frame that a write-back has still to read returns to the evicted tensor, the rest are free (07 R179). -/
def State.giveBack (s : State) (p : Fin 16) (c : Claim) : State :=
  s.each c fun s e =>
    match e.1.1 with
    | some v => s.modTensor p v fun t => { t with frames := t.frames ++ [(e.1.2, e.2)] }
    | none => s

/-- Drop a resident copy: the tensor is in T2, and every frame it held is free. -/
def State.dropCopy (s : State) (p : Fin 16) (t : Tensor) : State :=
  ((s.wbRead p t.base (2 ^ 40)).modP p fun q => q.wipe t.base t.size).modTensor p t.base fun u =>
    { u with tier := 2, frames := [], moving := none, cause := none }

/-- Evict tensors until `need` claimable frames are met (07 R178). -/
def evictLoop (p : Fin 16) (b : CfgSet) (die : Nat) (isT1 : Bool) (job : Option Nat) : List Tensor → Nat → Got → Got
  | [], _, g => g
  | t :: rest, need, g =>
    if need = 0 then g
    else
      let tk := (takeFrames (g.st.claimable p b die isT1 t.frames) need).1
      let n := frameTotal tk
      let s := g.st.bump p .evict 1
      if t.dirty then
        let left := t.frames.map fun e => (e.1, e.2 - framesIn tk e.1)
        let s := (s.startWb p t (.writeback true) job).modTensor p t.base fun u => { u with frames := left.filter (·.2 != 0) }
        evictLoop p b die isT1 job rest (need - n) { st := s, got := g.got ++ claimOf (some t.base) tk }
      else evictLoop p b die isT1 job rest (need - n) { st := s.dropCopy p t, got := g.got ++ claimOf none tk }

/-- The unused frames of a job's reservation in a tier. -/
def Job.res (j : Job) (isT1 : Bool) : Claim := if isT1 then j.resT1 else j.resT0

/-- A claim's frames in allocatable granules, and the others. -/
def State.split (s : State) (p : Fin 16) (b : CfgSet) (die : Nat) (isT1 : Bool) (l : Claim) : Claim × Claim :=
  l.partition fun e => (s.granules p b die isT1).contains e.1.2

/-- What could be had on a die and tier (07 R178): free frames, the job's own reservation, evictable tensors. -/
def State.have_ (s : State) (p : Fin 16) (die : Nat) (isT1 : Bool) (job : Option Nat) (keep : List Nat) : Nat :=
  let b := s.setFor p job
  let own := match job.bind s.job? with | some j => frameTotal (s.split p b die isT1 (j.res isT1)).1 | none => 0
  frameTotal (s.freeList p b die isT1) + own
    + ((s.evictable p die isT1 keep).map fun t => frameTotal (s.claimable p b die isT1 t.frames)).sum

/-- Claim `need` frames on a die and tier: the job's reservation, then free frames, then evictions. -/
def State.claim (s : State) (p : Fin 16) (die : Nat) (isT1 : Bool) (job : Option Nat) (keep : List Nat) (need : Nat) : Got :=
  let b := s.setFor p job
  let own := match job.bind s.job? with | some j => s.split p b die isT1 (j.res isT1) | none => ([], [])
  let a := takeFrames (Claim.readyFirst own.1) need
  let s1 := match job with
    | some id => s.modJob id fun j => if isT1 then { j with resT1 := a.2 ++ own.2 } else { j with resT0 := a.2 ++ own.2 }
    | none => s
  let need := need - frameTotal a.1
  -- the free list is taken before the reservation's frames leave it
  let f := (takeFrames (s.freeList p b die isT1) need).1
  evictLoop p b die isT1 job (sortBy evictBefore (s.evictable p die isT1 keep)) (need - frameTotal f)
    { st := s1, got := a.1 ++ claimOf none f }

/-- A pin is released: PINS falls, and LAST_UNPIN is noted when it reaches 0 (07 Table 7.2). -/
def State.unpinOne (s : State) (p : Fin 16) (base : Nat) : State :=
  s.modTensor p base fun t => { t with pins := t.pins - 1, lastUnpin := if t.pins = 1 then s.clk.gt else t.lastUnpin }

/-- The directory entry of a tensor as its four 64-bit words (07 Table 7.2). -/
def Tensor.words (t : Tensor) : Vector W64 4 :=
  #v[BitVec.ofNat 64 (1 + 2 * t.backed.toNat + 4 * t.place.toNat + 16 * t.home.toNat + t.base / 4096 % 2 ^ 36 * 4096),
     BitVec.ofNat 64 (t.size % 2 ^ 32 + t.pins % 65536 * 2 ^ 32
       + (t.tier.toNat + 4 * t.dirty.toNat + 8 * t.moving.isSome.toNat + 16 * t.die.val) * 2 ^ 48),
     BitVec.ofNat 64 t.t2, t.lastUnpin]

end Sys2Proof.Machine
end

