-- ==== Sys2Proof/Machine/Settle.lean ====
section
/-! DEFINITION. Tallies, and what a change of a tally or the end of an operation releases: waiting conductors (05 R119, R128,
R135, R136) and waiting tensor instructions (05 R123, R124). -/

namespace Sys2Proof.Machine

/-- The operation has started: its codebook snapshots are taken (02 R51). -/
def Op.started (o : Op) : Bool := !o.cbs.isEmpty

/-- Operations of conductor `c` in its queue of kind `k`, not started (05 R128; one that has started has left the queue,
log 9). -/
def State.queued (s : State) (c : Fin 32) (k : QKind) : List Op := s.ops.filter fun o => o.c == c && o.k == k && !o.started

/-- Operations a conductor issued that are incomplete. -/
def State.pendingOf (s : State) (c : Fin 32) : List Op := s.ops.filter fun o => o.c == c

/-- (tally − value), as a signed 32-bit number, is at least 0 (05 Table 5.9). -/
def tallyReached (t v : W32) : Bool := !bit (t - v) 31

/-- The bytes a queued operation's instruction occupies. -/
def opBytes (o : Op) : W16 := match o.mn with | .rsend | .rrecv | .rreduce => 4 | _ => 8

/-- The state with a new operation in its queue. -/
def State.enqueue (s : State) (o : Op) : State := { s with ops := s.ops ++ [o] }

/-- The time a conductor has stalled so far on a full queue (05 R145), or on a block being zeroed (07 R191), is counted. -/
def State.noteStall (s : State) (c : Fin 32) : State :=
  match s.cl[c].stall with
  | .zeroing b since =>
    let n := (s.clk.cyc10 - since) / 10
    match s.cl[c].job.bind s.job? with
    | some j => (s.bumpK j.ptn .zeroStall n).modC c fun k => { k with stall := .zeroing b (since + 10 * n) }
    | none => s
  | .queue o since =>
    let n := (s.clk.cyc10 - since) / 10
    (s.bumpK o.ptn .cndQstall n).modC c fun k => { k with stall := .queue o (since + 10 * n) }
  | _ => s

/-- The tensor is an unbacked one whose frames are still being zeroed (07 R172, R191). -/
def Ptn.zeroing (q : Ptn) (base : Nat) : Bool := q.tdWait.any fun w => w.op == 1 && w.base == base

/-- Release one conductor's stall if its reason has ended. -/
def State.settleC (s : State) (c : Fin 32) : State :=
  let k := s.cl[c]
  match k.stall with
  | .none => s
  | .wait t v _ => if tallyReached (s.tallyGet t) v then s.modC c fun k => { k with stall := .none, pc := k.pc + 4 } else s
  | .queue o _ =>
    if (s.queued c o.k).length < 16 then
      ((s.noteStall c).enqueue o).modC c fun k => { k with stall := .none, pc := k.pc + opBytes o }
    else s
  | .zeroing b _ =>
    -- the access is issued again
    if (k.job.bind s.job?).any fun j => (s.P j.ptn).zeroing b then s else (s.noteStall c).modC c fun k => { k with stall := .none }
  | .drain => if (s.pendingOf c).isEmpty then s.modC c fun k => { k with stall := .none, pc := k.pc + 4 } else s
  | .endDrain => if (s.pendingOf c).isEmpty then s.modC c fun k => { k with stall := .none, ended := true } else s

/-- Release every stall whose reason has ended. -/
def State.settle (s : State) : State := s.each (List.finRange 32) State.settleC

/-- Add to a tally (05 R121). -/
def State.tallyAdd (s : State) (t : Nat) (v : W32) : State := (s.tallyPut t (s.tallyGet t + v)).settle

/-- The tally of an operation, unless it names none. -/
def State.opTally (s : State) (o : Op) : State := if o.notally then s else s.tallyAdd o.tally 1

/-- A waiting PIN or MIG is satisfied: no tensor of its set is moving, and none has still to be placed. -/
def Ptn.settled (q : Ptn) (w : TWait) : Bool := w.bases.all fun b => match q.tensor b with | some t => t.moving.isNone && t.next.isEmpty | none => true

/-- Release the tensor instructions of a partition whose wait has ended (05 R123, R124). -/
def State.settleWaits (s : State) (p : Fin 16) : State :=
  s.each (s.P p).waits fun s w =>
    let go := if w.unpin then w.ops.all fun id => (s.op? id).isNone else (s.P p).settled w
    if go && (s.P p).waits.contains w then
      let s := s.modP p fun q => { q with waits := q.waits.erase w }
      let s := if w.unpin then
          (s.each w.bases fun s b => s.unpinOne p b).modJob w.job fun j => { j with pins := w.bases.foldl (fun l b => l.erase b) j.pins }
        else s
      match w.tally with
      | some t => s.tallyAdd t 1
      | none => s
    else s

/-- An operation leaves the device: what waited for it goes on. -/
def State.opGone (s : State) (id : Nat) : State :=
  match s.op? id with
  | none => s
  | some o => ({ s with ops := s.ops.filter (·.id != id) }.settleWaits o.ptn).settle

/-- An operation completes: its tally is added, and it leaves (05 R121). -/
def State.opDone (s : State) (o : Op) : State := (s.opTally o).opGone o.id

end Sys2Proof.Machine
end

