-- ==== Sys2Proof/Machine/Release.lean ====
section
/-! DEFINITION. What the end of a job and the writing of its final record release (04 R89, 10 R246): bound slots, cached translations (07
R186), and the resources of a set that no job is bound to any more (08 R209, R210). -/

namespace Sys2Proof.Machine

/-- A bound slot's drain count falls (10 R246, 11 R267). -/
def drainDec (v : W16 × W16) (b : Bool) : W16 × W16 := if b then (v.1, v.2 - 1) else (v.1 - 1, v.2)
def drainInc (v : W16 × W16) (b : Bool) : W16 × W16 := if b then (v.1, v.2 + 1) else (v.1 + 1, v.2)

def Ptn.unbind (q : Ptn) (j : Job) : Ptn :=
  let q := j.idx.foldl (fun q e => { q with idxDrain := q.idxDrain.setIfInBounds e.1 (drainDec (q.idxDrain.getD e.1 (0, 0)) e.2) }) q
  j.tbl.foldl (fun q e => { q with tblDrain := q.tblDrain.setIfInBounds e.1 (drainDec (q.tblDrain.getD e.1 (0, 0)) e.2) }) q

/-- The frames of a reservation at an address pair of a granule mask. -/
def zeroOf (t0 t1 tally cl : Nat) (why : ZWhy) : Zero :=
  { t0 := BitVec.ofNat 96 t0, t1 := BitVec.ofNat 128 t1, tally := BitVec.ofNat 128 tally, cl := BitVec.ofNat 32 cl, why := why }

/-- m without the bits of k. -/
def maskDiff (m k : Nat) : Nat := m ^^^ (m &&& k)

/-- Close a channel and return its pages (12 R304, R306). -/
def State.closeChans (s : State) (p : Fin 16) (dead : Nat → Bool) : State :=
  { s with chans := s.chans.filter fun c => !(c.2.ptn == p && dead c.1)
           dtks := s.dtks.filter fun d => !(d.ptn == p && dead d.chan) }

def chanMask (b : CfgSet) : Nat := (2 ^ csChanCount b - 1) * 2 ^ csChanBase b

/-- What a partition holds by a mask: its active set's, and what it dropped and has not released (08 R200). -/
def State.holds (s : State) (p : Fin 16) (f : CfgSet → Nat) : Nat :=
  let q := s.P p
  s.owns p f ||| (if q.swap.releasing && !q.swap.asked then f (q.cset (!q.swap.active)) else 0)

/-- Resources of a kind that are not free for p to add: held by other partitions, or being zeroed. -/
def State.notFree (s : State) (p : Fin 16) (f : CfgSet → Nat) (z : Zero → Nat) : Nat :=
  (List.finRange 16).foldl (fun m q =>
    m ||| (if q = p then 0 else s.holds q f) ||| ((s.P q).zero.foldl (fun m e => m ||| z e) 0)) 0

/-- Admission slots of a class that a partition holds: its active set's, or, while unfinished jobs are bound to the other set, the more of the
two (08 R200, Table 8.1). -/
def State.slotsHeld (s : State) (p : Fin 16) (c : Nat) : Nat :=
  let q := s.P p
  max (csSlots q.act c) (if q.activeValid && !(s.bound p (!q.swap.active)).isEmpty then csSlots (q.cset (!q.swap.active)) c else 0)

/-- With the slots of the incoming set, the partitions hold no more admission slots than the device has (04 R89; 08 Table 8.1, R210). -/
def State.slotsReady (s : State) (p : Fin 16) (b : CfgSet) : Bool :=
  ((List.finRange 16).map fun q => ((List.range 4).map fun c => if q = p then csSlots b c else s.slotsHeld q c).sum).sum ≤ 4096

/-- Every resource the incoming set adds is unowned and zeroed (08 R210). -/
def State.swapReady (s : State) (p : Fin 16) : Bool :=
  let b := (s.P p).cset (!(s.P p).swap.active)
  let free (f : CfgSet → Nat) (z : Zero → Nat) : Bool := maskDiff (f b) (s.holds p f) &&& s.notFree p f z == 0
  free csClusters (·.cl.toNat) && free csTallies (·.tally.toNat) && free csT1 (·.t1.toNat) && free csT0 (·.t0.toNat)
    && free chanMask (fun _ => 0) && s.slotsReady p b

/-- Swaps in WAIT_RESOURCE whose last resource is free go on to PENDING (08 R210). -/
def State.recheck (s : State) : State :=
  s.each (List.finRange 16) fun s p =>
    if (s.P p).swap.st = .waitResource ∧ s.swapReady p then s.modP p fun q => { q with swap := { q.swap with st := .pending } } else s

/-- A tensor with frames, in place or reserved, in a granule of two masks. -/
def Tensor.lies (t : Tensor) (t0 t1 : Nat) : Bool :=
  (t.frames ++ t.dest.frames ++ t.next.flatMap fun n => n.dest.frames).any fun e => (if e.1.1 then t1 else t0).testBit e.1.2

/-- A tensor that a job of the outgoing set left in a granule being released loses its resident copy: a backed one is in T2, its DIRTY as it
was, an unbacked one is no more. The spec does not say what becomes of it (DESIGN CHOICE, log 73). -/
def State.vacate (s : State) (p : Fin 16) (t0 t1 : Nat) : State :=
  let l := (s.P p).dir.filter fun t => t.lies t0 t1
  let s := s.each l fun s t => s.dropCopy p t
  let bases := l.map (·.base)
  { s with xfers := s.xfers.filter fun (x : Xfer) => !(x.ptn == p && x.chan < 2 && bases.contains x.base) }.modP p fun q =>
    { q with dir := q.dir.filterMap fun (t : Tensor) =>
      if bases.contains t.base then
        (if t.backed then some { t with dest := [], next := [], moving := none, cause := none, pins := 0, drop := 0 } else none)
      else some t }

/-- Once no job is bound to the outgoing set, what it granted and the new set does not is released and zeroed (08 R209). -/
def State.tryRelease (s : State) (p : Fin 16) : State :=
  let q := s.P p
  let old := q.cset (!q.swap.active)
  if q.swap.releasing && !q.swap.asked && (s.bound p (!q.swap.active)).isEmpty then
    let t0 := maskDiff (csT0 old) (csT0 q.act)
    let t1 := maskDiff (csT1 old) (csT1 q.act)
    let ta := maskDiff (csTallies old) (csTallies q.act)
    let cl := maskDiff (csClusters old) (csClusters q.act)
    let s := (s.closeChans p fun c => csChan old c && !csChan q.act c).vacate p t0 t1
    if t0 = 0 ∧ t1 = 0 ∧ ta = 0 ∧ cl = 0 then
      (s.modP p fun q => { q with swap := { q.swap with asked := true, releasing := q.zero.any fun z => z.why == .release } }).recheck
    else s.modP p fun q => { q with zero := q.zero ++ [zeroOf t0 t1 ta cl .release], swap := { q.swap with asked := true } }
  else s

/-- When the last job bound to a set ends, that set's cached translations are invalidated (07 R186). -/
def State.tlbIdle (s : State) (p : Fin 16) (cfg : Bool) : State :=
  if (s.bound p cfg).isEmpty then
    { s with io := s.io.map fun d => { d with tlb := d.tlb.filter fun e => !(e.ptn == p && e.cfg == cfg) } }
  else s

/-- A job has ended: the last one bound to a set releases it (07 R186; 08 R209). -/
def State.unbound (s : State) (p : Fin 16) (cfg : Bool) : State := (s.tlbIdle p cfg).tryRelease p

/-- A job's final record has been written or dropped: its admission slot and its index and table bindings end (04 R89; 10 R246). -/
def State.finishJob (s : State) (id : Nat) : State :=
  match s.job? id with
  | some j =>
    if j.ph = .ended then
      { s with jobs := s.jobs.filter (·.id != id) }.modP j.ptn fun q => q.unbind j
    else s
  | none => s

/-- A completion record has been written or dropped. -/
def State.crDone (s : State) (o : RecOut) : State := match o.op with | some (n + 1) => s.finishJob n | _ => s

end Sys2Proof.Machine
end

