-- ==== Sys2Proof/Machine/Dma.lean ====
section
/-! DEFINITION. DMA channels: the IOTLB (07 R183-R186), transfers and their faults (07 R187, R188), and the posting of ring
records and head mirrors (03 R65, R66, R68; 18 R418). -/

namespace Sys2Proof.Machine

/-- The I/O die a set binds its partition to. -/
def State.dmaIo (s : State) (p : Fin 16) (cfg : Bool) : Fin 2 := csIo ((s.P p).cset cfg)

/-- The cached entry that covers a page (07 R186). -/
def tlbHit (l : List Tlb) (p : Fin 16) (cfg : Bool) (page : Nat) : Option Tlb :=
  l.find? fun e => e.ptn == p && e.cfg == cfg && e.page ≤ page && page < e.page + e.pages

/-- Fill an entry: most recently used first, at most 4,096, least recently used replaced (07 R186). -/
def tlbFill (l : List Tlb) (e : Tlb) : List Tlb :=
  (e :: l.filter fun x => !(x.ptn == e.ptn && x.cfg == e.cfg && x.page == e.page && x.pages == e.pages)).take 4096

def State.modX (s : State) (id : Nat) (f : Xfer → Xfer) : State :=
  { s with xfers := s.xfers.map fun x => if x.id = id then f x else x }

def State.delX (s : State) (id : Nat) : State := { s with xfers := s.xfers.filter (·.id != id) }

def State.x? (s : State) (id : Nat) : Option Xfer := s.xfers.find? (·.id == id)

/-- The reasons of a fault (18 Table 18.5). -/
def rsnNotPresent : Nat := 1
def rsnPermission : Nat := 2
def rsnReserved : Nat := 3

/-- Faults a partition holds with records. -/
def State.heldIds (s : State) (p : Fin 16) : List W16 :=
  s.xfers.filterMap fun x => if x.ptn = p then (match x.st with | .held f _ => some f | _ => none) else none

/-- The next FAULT_ID not 0 and not carried by a held fault (07 R187). -/
def nextFree (held : List W16) : Nat → W16 → W16
  | 0, f => f
  | n + 1, f => if f = 0 ∨ f ∈ held then nextFree held n (f + 1) else f

/-- The FAULT record of a transfer (18 Table 18.5 KIND 0x03). -/
def faultRec (io : Fin 2) (x : Xfer) (fid : W16) (reason : Nat) : Rec :=
  { recOf 0 3 reason (unitIo io) with
    ptn := some x.ptn
    toPtn := x.chan != 10
    detail := fid.toNat + (x.iova + x.done) / 4096 % 2 ^ 36 * 2 ^ 16 + x.chan * 2 ^ 56 + x.write.toNat * 2 ^ 64 }

/-- A held fault receives its FAULT_ID and its record (07 R187, R188). -/
def State.giveFid (s : State) (x : Xfer) (reason : Nat) : State :=
  let f := nextFree (s.heldIds x.ptn) 64 (s.P x.ptn).nextFid
  let s := s.modP x.ptn fun q => { q with nextFid := f + 1 }
  let s := s.modX x.id fun y => { y with st := .held f s.clk.gt }
  let jb := match x.job.bind s.job? with | some j => some (j.ring.val, j.slot) | none => none
  (s.issue { faultRec (s.dmaIo x.ptn x.cfg) x f reason with job := jb }).st

/-- Faults held without a record, in the order of their faults (07 R188). -/
def Xfer.unrec (x : Xfer) : Option Nat := match x.st with | .heldUnrec _ n => some n | _ => none

def State.nextUnrec (s : State) (p : Fin 16) : Nat := ((s.xfers.filter (·.ptn == p)).filterMap Xfer.unrec).foldl max 0 + 1

/-- A transfer faults and is held (07 R187). -/
def State.raiseFault (s : State) (x : Xfer) (reason : Nat) : State :=
  let s := s.bump x.ptn .fltCnt 1
  if (s.heldIds x.ptn).length < 32 then s.giveFid x reason
  else s.modX x.id fun y => { y with st := .heldUnrec reason (s.nextUnrec x.ptn) }

/-- Give the oldest faults without a record theirs, while fewer than 32 with records are held. -/
def promoteLoop (p : Fin 16) : Nat → State → State
  | 0, s => s
  | n + 1, s =>
    if (s.heldIds p).length < 32 then
      match sortBy (fun a b => a.unrec.getD 0 < b.unrec.getD 0) (s.xfers.filter fun x => x.ptn == p && x.unrec.isSome) with
      | x :: _ => match x.st with
        | .heldUnrec r _ => promoteLoop p n (s.giveFid x r)
        | _ => s
      | [] => s
    else s

/-- Recorded faults have been released: for each, the oldest fault without a record receives its own (07 R188). -/
def State.promoteFault (s : State) (p : Fin 16) : State := promoteLoop p 32 s

/-- The slot count of a completion or stream ring. -/
def ringSize (z : BitVec 3) : Nat := 64 * 2 ^ z.toNat

/-- A record of a completion or stream ring has been posted: the write index moves on (03 R66). -/
def PRing.wrote (r : PRing) (n : Nat) : PRing :=
  let t := (r.tail.toNat + 1) % ringSize r.size
  { r with tail := BitVec.ofNat 12 t, phase := if t = 0 then !r.phase else r.phase, resv := r.resv - n, outq := r.outq.drop 1 }

def Ptn.modCr (q : Ptn) (r : Fin 8) (f : PRing → PRing) : Ptn := { q with cr := q.cr.set r (f q.cr[r]) }

def Ptn.modSr (q : Ptn) (r : Fin 16) (f : PRing → PRing) : Ptn := { q with sr := q.sr.set r (f q.sr[r]) }

def Ptn.modJr (q : Ptn) (r : Fin 8) (f : JRing → JRing) : Ptn := { q with jr := q.jr.set r (f q.jr[r]) }

/-- A cleared EN takes effect once nothing is left to write (03 R78). -/
def PRing.tryClear (r : PRing) : PRing :=
  if r.clearing ∧ r.resv = 0 ∧ r.outq = [] then { r with en := false, clearing := false } else r

/-- An error-ring record has been posted. -/
def ErrRing.wrote (e : ErRef) (r : ErrRing) : ErrRing :=
  let t := (r.tail.toNat + 1) % erSize e
  { r with tail := BitVec.ofNat 10 t, phase := if t = 0 then !r.phase else r.phase
           waitq := match r.waitq with
             | w :: rest => if w.recs.length ≤ 1 then rest else { w with recs := w.recs.drop 1 } :: rest
             | [] => [] }

/-- A record of a completion ring has been written: an admission notice counts under its code (04 R110). -/
def State.crCount (s : State) (p : Fin 16) (d : BitVec 512) : State := if fld d 64 8 = 1 then s.bump p (admCtr (fld d 72 8)) 1 else s

/-- A record write has been posted whole. -/
def State.ringWrote (s : State) (x : Xfer) : State :=
  let s := s.delX x.id
  match x.ring with
  | .cr r =>
    -- 03 R64: a refused job's second slot returns with its notice
    match (s.P x.ptn).cr[r].outq with
    | o :: _ => (s.modP x.ptn fun q => q.modCr r fun c => (c.wrote (if o.op = some 0 then 2 else 1)).tryClear).crCount x.ptn o.data |>.crDone o
    | [] => s
  | .sr r =>
    let s := s.modP x.ptn fun q => q.modSr r fun c => (c.wrote 0).tryClear
    match x.op with
    | some id =>
      -- a TDTK completes with its last record (09 R235)
      if ((s.P x.ptn).sr[r].outq.any fun o => o.op == some id) then s
      else match s.op? id with | some o => s.opDone o | none => s
    | none => s
  | .er => s.modEr (some x.ptn) (ErrRing.wrote (some x.ptn))
  | _ => s

/-- Ring-structure accesses: descriptor, argument-block and image fetches, head-mirror and record writes (07 R521). -/
def Xfer.ringStruct (x : Xfer) : Bool := 5 ≤ x.chan

/-- A bulk data write, which may carry Relaxed Ordering (03 Table 3.1): a write-back, an MCONV's output or an HWR. -/
def Xfer.bulk (x : Xfer) : Bool := x.chan == 1 || x.chan == 2 || x.chan == 4

/-- The bytes a write has still to send. A completion record carries the global time at which it is written (03 Table 3.6). -/
def State.outBytes (s : State) (x : Xfer) : List Byte :=
  if x.chan = 8 then x.data.take 16 ++ leBytes 8 s.clk.gt.toNat ++ x.data.drop 24 else x.data.drop x.done

/-- Run a transfer on: translate and issue its 4 KiB units until it is whole, misses, or faults (07 R186, R187). -/
def advance : Nat → State → Nat → State
  | 0, s, _ => s
  | fuel + 1, s, id =>
    match s.x? id with
    | none => s
    | some x =>
      if x.st ≠ .walking then s
      else if x.len ≤ x.done then
        if x.chan = 7 then s.delX id
        else if x.chan = 8 ∨ x.chan = 9 ∨ x.chan = 10 then s.ringWrote x
        else if x.chan = 2 ∧ x.write then
          -- the output of an MCONV to a tensor in place in T2 is whole
          (match x.op.bind s.op? with
           -- R53: one whose source held a NaN fails once the blocks before it are in T2
           | some o => if o.doom.isSome then s.delX id else (s.delX id).opDone o
           | none => s.delX id)
        else if x.chan = 1 ∧ !x.live then s.delX id
        else s.modX id fun y => { y with st := .issued }
      else
        let io := s.dmaIo x.ptn x.cfg
        let a := x.iova + x.done
        if !s.io[io].link then s
        else if 2 ^ 48 ≤ a then s.raiseFault x rsnReserved
        else
          match tlbHit s.io[io].tlb x.ptn x.cfg (a / 4096) with
          | none => s
          | some e =>
            if (if x.write then e.w else e.r) then
              let n := min (4096 - a % 4096) (x.len - x.done)
              let pa := e.pa + (a - e.page * 4096)
              let s := s.modIo io fun d => { d with tlb := tlbFill d.tlb e }
              let s := if x.write then
                  { s with posted := s.posted ++ [{ chan := x.chan, ptn := some x.ptn, pa := pa, data := (s.outBytes x).take n
                                                    relaxed := x.bulk && s.io[io].relaxed[x.ptn.succ] }] }
                else s
              let s := if x.ringStruct then s else s.noteUse (resLink io x.write) x.ptn n
              -- an eviction frees each frame as it is read
              let s := if x.chan = 1 && ((s.P x.ptn).tensor x.base).any (·.moving == some (.writeback true)) then s.wbRead x.ptn x.base 1 else s
              advance fuel (s.modX id fun y => { y with done := y.done + n }) id
            else
              -- R187: a cached leaf that forbids the access is discarded and the page walked again
              s.modIo io fun d => { d with tlb := d.tlb.filter fun y => y != e }

def State.runX (s : State) (id : Nat) : State :=
  match s.x? id with
  | some x => advance (x.len / 4096 + 4) s id
  | none => s

/-- Start a transfer. -/
def State.startX (s : State) (x : Xfer) : State := (s.newX x).runX s.nextXfer

/-- A write of this ring is under way. -/
def State.ringBusy (s : State) (p : Fin 16) (r : RingRef) (chan : Nat) : Bool :=
  s.xfers.any fun x => x.ptn == p && x.ring == r && x.chan == chan

/-- Bytes of a record in memory order. -/
def recBytes {n : Nat} (b : BitVec n) : List Byte := leBytes (n / 8) b.toNat

/-- A final record waits while the S2 record it names in ERR_SEQ is still to be written (18 R418). -/
def Ptn.waitsForS2 (q : Ptn) (d : BitVec 512) : Bool :=
  fld d 64 8 == 2 && (fld d 72 8 == 0x10 || fld d 72 8 == 0x13)
    && q.er.waitq.any fun w => w.recs.any fun b => fld b 0 32 == fld d 448 32

/-- The transfer that writes the next record of a completion ring, with its PHASE; its TIME is that of the write. -/
def State.crXfer (s : State) (p : Fin 16) (r : Fin 8) : Option Xfer :=
  let c := (s.P p).cr[r]
  match c.outq with
  | o :: _ =>
    if (s.P p).waitsForS2 o.data then none else
    let d := setFld o.data 511 1 c.phase.toNat
    some { blankX p (s.P p).swap.active 8 ((fld c.base 12 36) * 4096 + 64 * c.tail.toNat) 64 true with ring := .cr r, data := recBytes d }
  | [] => none

/-- Slots of a completion or stream ring that a record occupies and the host has not consumed. -/
def PRing.used (r : PRing) : Nat := (r.tail.toNat + ringSize r.size - r.head.toNat) % ringSize r.size

def PRing.free (r : PRing) : Nat := ringSize r.size - 1 - r.used

/-- The transfer that writes the next record of a stream ring, if a slot is free (03 R68, R69). -/
def State.srXfer (s : State) (p : Fin 16) (r : Fin 16) : Option Xfer :=
  let c := (s.P p).sr[r]
  match c.outq with
  | o :: _ =>
    if c.free = 0 then none
    else
      let d := setFld o.data 127 1 c.phase.toNat
      some { blankX p (s.P p).swap.active 9 ((fld c.base 12 36) * 4096 + 64 * c.tail.toNat) 64 true with
        ring := .sr r, data := recBytes d, op := o.op }
  | [] => none

/-- The transfer that writes the next record of a partition error ring, if its slots are free (18 R427, R428). -/
def State.erXfer (s : State) (p : Fin 16) : Option Xfer :=
  let c := (s.P p).er
  match c.waitq with
  | w :: _ =>
    match w.recs with
    | b :: _ =>
      if s.erFree (some p) < w.recs.length then none
      else some { blankX p (s.P p).swap.active 10 ((fld c.base 12 36) * 4096 + 32 * (c.tail.toNat % 256)) 32 true with
        ring := .er, data := recBytes (setFld b 255 1 c.phase.toNat) }
    | [] => none
  | [] => none

/-- Write the records of one ring while nothing stops it. -/
def pumpRing (p : Fin 16) (r : RingRef) (chan : Nat) (mk : State → Option Xfer) : Nat → State → State
  | 0, s => s
  | fuel + 1, s =>
    if s.ringBusy p r chan then s
    else match mk s with
      | none => s
      | some x => pumpRing p r chan mk fuel (s.startX x)

/-- A stream ring reads STALL while a record waits for a slot (03 R69). -/
def PRing.setStall (r : PRing) : PRing := { r with stall := r.outq != [] && r.free == 0 }

/-- The records of a device that has stopped: none after 1 ms (18 R430 step 6). -/
def State.stopped (s : State) : Bool := s.err.firstS4.isSome && s.err.fatalNs + 1000000 < s.clk.ns

/-- Write what the rings of a partition can write: error records first (18 R418). -/
def State.pump (s : State) (p : Fin 16) : State :=
  if s.stopped then s else
  let er (s : State) := pumpRing p .er 10 (fun s => s.erXfer p) 1100 s
  let s := er s
  let s := s.each (List.finRange 8) fun s r => pumpRing p (.cr r) 8 (fun s => s.crXfer p r) 4100 s
  let s := s.each (List.finRange 16) fun s r => pumpRing p (.sr r) 9 (fun s => s.srXfer p r) 4100 s
  let s := s.modP p fun q => { q with sr := q.sr.map PRing.setStall }
  er s

/-- Write what the global ring can write: posted and untranslated (18 R419, R436). The CHANNEL code 11 in `posted` is the
model's own. -/
def pumpGer : Nat → State → State
  | 0, s => s
  | fuel + 1, s =>
    let g := s.err.ger
    match g.waitq with
    | w :: _ =>
      match w.recs with
      | b :: _ =>
        if !s.io[0].link || s.erFree none < w.recs.length then s
        else
          pumpGer fuel { s.modEr none (ErrRing.wrote none) with
            posted := s.posted ++ [{ chan := 11, ptn := none, pa := fld g.base 12 52 * 4096 + 32 * g.tail.toNat
                                     data := recBytes (setFld b 255 1 g.phase.toNat), relaxed := false }] }
      | [] => s
    | [] => s

/-- Write what every ring can write. -/
def State.pumpAll (s : State) : State := pumpGer 1100 (s.each (List.finRange 16) State.pump)

/-- The turn of a data transfer: that of the job that caused it; a FLUSH has class C3 and no deadline (07 R521). -/
def State.xTurn (s : State) (x : Xfer) : Turn :=
  match x.job.bind s.job? with
  | some j => { j.turn with ptn := x.ptn, order := x.id }
  | none => { cls := 3, dl := 2 ^ 64, ptn := x.ptn, order := x.id }

/-- a goes before b on a host link: ring structures first, then data in the order of 04 R94 (07 R521). -/
def State.xBefore (s : State) (a b : Xfer) : Bool :=
  if a.ringStruct != b.ringStruct then a.ringStruct
  else if a.ringStruct then a.id < b.id
  else s.serves (resLink (s.dmaIo a.ptn a.cfg) a.write) (s.xTurn a) (s.xTurn b)

/-- A link is back, or translations changed: every transfer waiting on it goes on, in the order of 07 R521. -/
def State.kick (s : State) : State :=
  (s.each ((sortBy s.xBefore s.xfers).map (·.id)) fun s id => s.runX id).pumpAll

end Sys2Proof.Machine
end

