-- ==== Sys2Proof/Machine/Link.lean ====
section
/-! DEFINITION. The ring role (17 R388), route maps and routing (17 R394-R397), credits and flits (16 R368-R370; 17 R391), message injection and
output service (17 R390, R392, R393), and the removal of a bypass drive (16 R375). -/

namespace Sys2Proof.Machine

/-! ## Ring role (17 Table 17.1) -/

def State.devId (s : State) : Nat := gf s.gact 0 0 17
def State.segSize (s : State) : Nat := gf s.gact 4 0 8 + 1
def State.roleJoin (s : State) : Bool := gf s.gact 5 0 1 == 1
def State.roleGateway (s : State) : Bool := gf s.gact 5 1 1 == 1
def State.roleIo1 (s : State) : Bool := gf s.gact 5 2 1 == 1 && s.fuses.i2
def State.upperSize (s : State) : Nat := gf s.gact 6 0 9 + 1
def State.gatewayId (s : State) : Nat := gf s.gact 8 0 17
def State.timeMaster (s : State) : Nat := gf s.gact 12 0 17
def State.xferTo (s : State) : Nat := if gf s.gact 16 0 7 = 0 then 5 else gf s.gact 16 0 7

/-- The pair is assigned a role (17 R389). -/
def State.pairRole (s : State) (k : Fin 2) : Bool := s.roleJoin && (k == 0 || s.roleIo1)

def pairOf (k : Fin 4) : Fin 2 := if k.val < 2 then 0 else 1
def eastOf (k : Fin 2) : Fin 4 := if k = 0 then 0 else 2
def westOf (k : Fin 2) : Fin 4 := if k = 0 then 1 else 3
/-- The other port of a pair. -/
def otherPort (k : Fin 4) : Fin 4 := match k with | 0 => 1 | 1 => 0 | 2 => 3 | 3 => 2
def isEast (k : Fin 4) : Bool := k.val % 2 == 0

/-- A pair serves the upper ring. -/
def State.upperPair (s : State) (k : Fin 2) : Bool := k == 1 && s.roleGateway

/-- The position of this device in the ring of a pair, and that ring's size. -/
def State.ringPos (s : State) (k : Fin 2) : Nat := if s.upperPair k then s.devId / 256 else s.devId % 256
def State.ringLen (s : State) (k : Fin 2) : Nat := if s.upperPair k then s.upperSize else s.segSize

/-! ## Route maps (17 R394) -/

def State.rmap (s : State) (k : Fin 2) : RMap := s.ringl.map[k]

/-- A position joins or leaves an ascending list. -/
def insPos (p : Nat) (l : List Nat) : List Nat := if l.contains p then l else insSorted (fun a b => decide (a < b)) p l
def delPos (p : Nat) (l : List Nat) : List Nat := l.filter (· != p)

/-- A position strictly between two, going East. -/
def between (n a b p : Nat) : Bool :=
  let d := (p + n - a % n) % n
  0 < d && d < (b + n - a % n) % n

/-- The link from `a` East to `b` is UP or DOWN: it replaces what the map had for the slots between them, where no device is. -/
def RMap.mark (m : RMap) (n a b : Nat) (up : Bool) : RMap :=
  let d := (delPos a m.down).filter fun p => !between n a b p
  { down := if up then d else insPos a d, heard := m.heard.filter fun p => !between n a b p
    leaving := m.leaving.filter fun p => !between n a b p }

/-- The links on the way of `h` positions East from `a` are UP, and no device between is leaving (17 R394, R405). -/
def RMap.clear (m : RMap) (n a h : Nat) : Bool :=
  (List.range h).all fun i => !m.down.contains ((a + i) % n) && (i == 0 || !m.leaving.contains ((a + i) % n))

/-- Hops on that way, over the devices the map has heard of (17 R394; DEDUCED, log 81). -/
def RMap.hops (m : RMap) (n a h : Nat) : Nat := ((List.range h).filter fun i => i == 0 || m.heard.contains ((a + i) % n)).length

/-- The direction to a position by the fewer hops over links the map shows UP, East on a tie (17 R394): true East. -/
def RMap.direction (m : RMap) (n a d : Nat) : Option Bool :=
  let e := (d + n - a % n) % n
  let w := (n - e) % n
  let eOk := m.clear n a e
  let wOk := m.clear n d w
  if eOk ∧ (m.hops n a e ≤ m.hops n d w ∨ !wOk) then some true else if wOk then some false else none

/-- A pair carries traffic. -/
def State.pairUp (s : State) (k : Fin 2) : Bool := s.dlk.sw[k].joined

/-- The port of a pair toward a position of its ring. -/
def State.portTo (s : State) (k : Fin 2) (d : Nat) : Option (Fin 4) :=
  if s.pairUp k then
    match (s.rmap k).direction (s.ringLen k) (s.ringPos k) d with
    | some true => some (eastOf k)
    | some false => some (westOf k)
    | none => none
  else none

/-- Pair 1 is the segment's second plane (17 R389). -/
def State.planePair (s : State) : Bool := s.roleIo1 && !s.roleGateway

/-- The port on which a message leaves (17 R394, R396). Without a gateway in the upper ring no other segment is reached (17 R389). -/
def State.route (s : State) (dst xid vc : Nat) : Option (Fin 4) :=
  let local_ (d : Nat) : Option (Fin 4) :=
    if s.pairUp 1 && s.planePair then
      let odd := (vc == 1 || vc == 2) && xid % 2 == 1
      if odd then (s.portTo 1 d).or (s.portTo 0 d) else (s.portTo 0 d).or (s.portTo 1 d)
    else s.portTo 0 d
  if dst / 256 = s.devId / 256 then local_ (dst % 256)
  else if s.gatewayId = s.devId then (if s.roleGateway then s.portTo 1 (dst / 256) else none)
  else if s.ringl.gwOut then none
  else local_ (s.gatewayId % 256)

/-- A device is reachable on the route map (17 R402). -/
def State.reachable (s : State) (dst : Nat) : Bool := (s.route dst 0 0).isSome || (s.route dst 1 1).isSome

/-- The device carries ring messages: a pair of its segment has joined, and may be leaving (17 R396, R398). -/
def State.onRing (s : State) : Bool := s.running && (s.pairUp 0 || (s.pairUp 1 && s.planePair))

/-- The device is joined, with a pair of its segment that is not leaving (17 R398, R405). -/
def State.ringReady (s : State) : Bool :=
  let on (k : Fin 2) : Bool := s.dlk.sw[k].joined && !s.dlk.sw[k].leaving
  on 0 || (on 1 && s.planePair)

/-- The ring header (17 Table 17.2). -/
def ringHdr (dst src sptn dptn op xid off : Nat) (half turned : Bool) : BitVec 96 :=
  BitVec.ofNat 96 (dst % 2 ^ 17 + src % 2 ^ 17 * 2 ^ 17 + sptn % 16 * 2 ^ 34 + dptn % 16 * 2 ^ 38 + op % 16 * 2 ^ 42
    + xid % 2 ^ 16 * 2 ^ 46 + off % 2 ^ 28 * 2 ^ 62 + half.toNat * 2 ^ 90 + turned.toNat * 2 ^ 91)

/-! ## Credits and flits -/

/-- The index of a VC's half in the credit vector. -/
def vcHalf (f : TxFlit) : Fin 8 := ⟨2 * f.vc.val + f.half.toNat, by have := f.vc.isLt; cases f.half <;> simp <;> omega⟩

/-- A VC's slots of an input buffer, and those of a half (17 R391). -/
def vcSlots (v : Fin 4) : Nat := if v.val = 0 ∨ v.val = 3 then 16 else 112
def vcCap (h : Fin 8) : Nat := if h.val / 2 = 0 ∨ h.val / 2 = 3 then 8 else 56

def vadd {k : Nat} (v : Vector Nat k) (h : Fin k) (n : Nat) : Vector Nat k := v.set h (v[h] + n)
def vsub {k : Nat} (v : Vector Nat k) (h : Fin k) (n : Nat) : Vector Nat k := v.set h (v[h] - n)
def vsum {k : Nat} (v : Vector Nat k) : Nat := v.toList.sum
def vplus {k : Nat} (v w : Vector Nat k) : Vector Nat k := Vector.zipWith (· + ·) v w
def vzero : Vector Nat 4 := Vector.replicate 4 0

/-- Credit returns in flits not yet acknowledged. -/
def Port.inFlits (p : Port) : Vector Nat 4 := Vector.ofFn fun v => ((p.retry.filter (·.crVc == v)).map (·.crCnt)).sum

/-- The port has a link: UP, or retraining. -/
def Port.linked (p : Port) : Bool := p.st == .up || p.st == .retrain

/-- The free slots become credits of the peer: the initial credits (17 R391, R405, R407). -/
def Port.grantAll (p : Port) : Port :=
  { p with issued := 256, owed := Vector.ofFn fun v => vcSlots v - p.rxHeld[v] - p.reclaim[v] - p.granted[v] - (p.inFlits)[v] }

/-- The credits of a lost peer await reclaim; those that a peer returned in an orderly leave are free at once (17 R405, R407). -/
def Port.losePeer (p : Port) : Port :=
  let lost := vplus p.granted (vplus p.owed p.inFlits)
  { p with
    granted := vzero, owed := vzero, credit := Vector.replicate 8 0, urgentCr := false, peerLeft := false
    reclaim := if p.peerLeft then p.reclaim else vplus p.reclaim lost
    issued := if p.peerLeft then p.issued - vsum lost else p.issued }

/-- A slot's flit has left: its credit returns to the peer, or to free where the port has none (17 R391, R407). -/
def State.freeSlot (s : State) (k : Fin 4) (v : Fin 4) : State :=
  let on := s.pairUp (pairOf k)
  s.modPort k fun p =>
    let p := { p with rxHeld := vsub p.rxHeld v 1 }
    if p.linked && on then { p with owed := vadd p.owed v 1 } else { p with issued := p.issued - 1 }

def State.freeInp (s : State) (f : TxFlit) : State := match f.inp with | some (k, v) => s.freeSlot k v | none => s

/-- The credits that the next flit returns: of the lowest VC that owes some, at most 63 (16 Table 16.1). -/
def Port.dueCredit (p : Port) : Fin 4 × Nat :=
  match (List.finRange 4).find? fun v => p.owed[v] != 0 with
  | some v => (v, min 63 p.owed[v])
  | none => (0, 0)

/-- A flit as a port puts it on its lanes (16 Table 16.1): ACK and NAK are the port's, the CRC covers bytes 0-251. -/
def Port.flitWord (p : Port) (kind : Nat) (f : TxFlit) : BitVec 2048 :=
  let w := f.seq.toNat + p.rxSeq.toNat * 2 ^ 8 + p.nakDue.toNat * 2 ^ 16 + kind * 2 ^ 17 + f.vc.val * 2 ^ 19 + f.crVc.val * 2 ^ 21
    + f.crCnt % 64 * 2 ^ 23 + f.hdr.toNat * 2 ^ 32 + f.pay.toNat * 2 ^ 128
  BitVec.ofNat 2048 (w + crc32 (leBytes 252 w) * 2 ^ 2016)

/-- Put a flit on the lanes; the ACK and a due NAK go with it (16 R369). -/
def State.emit (s : State) (k : Fin 4) (kind : Nat) (f : TxFlit) : State :=
  let w := s.dlk.port[k].flitWord kind f
  { s.modPort k fun p => { p with nakDue := false, unacked := 0 } with lanes := s.lanes ++ [(k, w)] }

/-- A flit with nothing in it: an IDLE flit, whose SEQ is the next to be sent (16 R368). -/
def Port.blank (p : Port) : TxFlit :=
  { seq := p.txSeq, ctrl := false, vc := 0, half := false, hdr := 0, pay := 0, crVc := 0, crCnt := 0, job := none, inp := none }

/-- Send a CTRL flit outside the retry buffer's care. What its payload holds the spec does not lay out: free (log 1). -/
def State.freeCtrl (s : State) (k : Fin 4) : TxFlit :=
  { s.dlk.port[k].blank with ctrl := true, hdr := BitVec.ofNat 96 (Config.freeNat s.free), pay := BitVec.ofNat 1888 (Config.freeNat (s.free + 1)) }

/-- Send a DATA or CTRL flit: it takes the next SEQ and the credits to be returned, and lies in the retry buffer until it is acknowledged;
the input slot it held is free (16 R370; 17 R391). -/
def State.sendFlit (s : State) (k : Fin 4) (f : TxFlit) : State :=
  let p := s.dlk.port[k]
  let c := p.dueCredit
  let f := { f with seq := p.txSeq, crVc := c.1, crCnt := c.2 }
  let s := s.emit k (if f.ctrl then 2 else 1) f
  (s.modPort k fun p => { p with
    txSeq := p.txSeq + 1, owed := vsub p.owed c.1 c.2, retry := p.retry ++ [{ f with inp := none }] }).freeInp f

/-! ## Output service (17 R392) -/

/-- The turn of a flit's job; a flit of the device itself, or of a job that has ended, has none and goes first. -/
def State.flitTurn (s : State) (f : TxFlit) : Option Turn := (f.job.bind s.job?).map Job.turn

/-- The bandwidth of a port, as a resource (04 R94). -/
def resPort (k : Fin 4) : Nat := 20 + k.val

/-- An injected flit is sent before another: in the order of 04 R94, with WEIGHT. -/
def State.injBefore (s : State) (k : Fin 4) (a b : TxFlit) : Bool :=
  match s.flitTurn a, s.flitTurn b with
  | some x, some y => s.serves (resPort k) x y
  | none, some _ => true
  | _, none => false

/-- The flit of a VC that goes next: transit ahead of injected, but an injected one at least once in eight. -/
def State.vcNext (s : State) (k : Fin 4) (vc : Fin 4) : Option TxFlit :=
  let p := s.dlk.port[k]
  let l := p.outq.filter fun f => f.vc == vc && p.credit[vcHalf f] != 0
  let inj := firstBy (s.injBefore k) (l.filter fun f => f.inp.isNone)
  if 7 ≤ p.sinceInj[vc] ∧ inj.isSome then inj else (l.find? (·.inp.isSome)).or inj

/-- VC1, VC2 and VC3 in the ratio 8:8:1. -/
def arbVc (i : Nat) : Fin 4 := if i % 17 = 16 then 3 else if i % 2 = 0 then 1 else 2

/-- The flit a port sends next: VC0 first, then by turn. -/
def State.portNext (s : State) (k : Fin 4) : Option (TxFlit × Nat) :=
  let a := s.dlk.port[k].arb
  match s.vcNext k 0 with
  | some f => some (f, a)
  | none => (List.range 17).findSome? fun i => (s.vcNext k (arbVc (a + i))).map fun f => (f, (a + i + 1) % 17)

/-- A DATA flit leaves against a credit of its VC and half, and is measured use of the port by its partition where it was injected. -/
def State.sendData (s : State) (k : Fin 4) (f : TxFlit) : State :=
  let s := s.modPort k fun p => { p with
    credit := vsub p.credit (vcHalf f) 1
    sinceInj := p.sinceInj.set f.vc (if f.inp.isSome then p.sinceInj[f.vc] + 1 else 0) }
  let s := match f.inp, s.flitTurn f with | none, some t => s.noteUse (resPort k) t.ptn 256 | _, _ => s
  s.sendFlit k f

/-- Send what a port can send while fewer than 64 flits are unacknowledged (16 R370): the VC0 flit that held its credit through a retrain or turned
at a break (17 R408), the flits that have credits, then CTRL flits, also to return credits that nothing else returns (log 82). -/
def sendLoop (k : Fin 4) : Nat → State → State
  | 0, s => s
  | fuel + 1, s =>
    let p := s.dlk.port[k]
    if p.st ≠ .up ∨ 64 ≤ p.retry.length then s
    else
      let ctrl (s : State) : State :=
        if p.ctrlDue ≠ 0 then
          sendLoop k fuel (({ s with free := s.free + 2 }.modPort k fun p => { p with ctrlDue := p.ctrlDue - 1 }).sendFlit k (s.freeCtrl k))
        else if vsum p.owed ≠ 0 then sendLoop k fuel ({ s with free := s.free + 2 }.sendFlit k (s.freeCtrl k))
        else s
      match p.urgent, s.portNext k with
      | some f, _ =>
        if p.urgentCr then sendLoop k fuel ((s.modPort k fun p => { p with urgent := none, urgentCr := false }).sendFlit k f)
        else if p.credit[vcHalf f] ≠ 0 then sendLoop k fuel ((s.modPort k fun p => { p with urgent := none }).sendData k f)
        else ctrl s
      | none, some (f, a) => sendLoop k fuel ((s.modPort k fun p => { p with outq := p.outq.erase f, arb := a }).sendData k f)
      | none, none => ctrl s

/-- A port sends what it can; an IDLE flit carries a NAK that is due, and an ACK once 16 flits have arrived since the last (16 R369). -/
def State.pumpPort (s : State) (k : Fin 4) : State :=
  let s := sendLoop k 64 s
  let p := s.dlk.port[k]
  if p.st = .up ∧ (p.nakDue ∨ 16 ≤ p.unacked) then s.emit k 0 p.blank else s

/-- Every port sends what it can; a slot that one frees is a credit that another returns. -/
def State.pumpPorts (s : State) : State := s.each (List.finRange 4 ++ List.finRange 4) State.pumpPort

/-- Replay from ACK + 1: the flits not acknowledged are sent again as they were (16 R370). -/
def State.replayAll (s : State) (k : Fin 4) : State :=
  s.each s.dlk.port[k].retry fun s f => s.emit k (if f.ctrl then 2 else 1) f

/-- The dateline link lies behind an East port at the last position, and behind a West port at position 0 (17 R393). -/
def State.dateline (s : State) (k : Fin 4) : Bool :=
  let r := pairOf k
  if isEast k then s.ringPos r + 1 == s.ringLen r else s.ringPos r == 0

/-- Queue a flit on a port. -/
def State.putFlit (s : State) (k : Fin 4) (f : TxFlit) : State :=
  (s.modPort k fun p => { p with outq := p.outq ++ [f] }).pumpPort k

/-- A DATA flit made here, with its header (17 R390). -/
def mkFlit (vc : Nat) (half : Bool) (hdr : BitVec 96) (pay : BitVec 1888) (job : Option Nat) : TxFlit :=
  { seq := 0, ctrl := false, vc := ⟨vc % 4, Nat.mod_lt _ (by decide)⟩, half := half, hdr := hdr, pay := pay, crVc := 0, crCnt := 0, job := job
    inp := none }

/-- Send a message of this device for a job (17 R390); one that no route carries is lost with its transfer (17 R402). -/
def State.sendMsg (s : State) (job : Option Nat) (dst sptn dptn op xid off vc : Nat) (pay : BitVec 1888) : State :=
  match s.route dst xid vc with
  | some k => s.putFlit k (mkFlit vc (s.dateline k) (ringHdr dst s.devId sptn dptn op xid off (s.dateline k) false) pay job)
  | none => s

/-- REFUSE with a reason of 17 Table 17.5. -/
def State.sendRefuse (s : State) (dst sptn dptn xid reason : Nat) : State :=
  s.sendMsg none dst sptn dptn 4 xid 0 0 (BitVec.ofNat 1888 reason)

/-! ## TOPO and STATE: from neighbour to neighbour (17 R394, R396; log 81) -/

/-- The port by which TOPO and STATE go on East or West round a pair's ring: of plane 1, or of plane 2 where plane 1 has no link there; of the upper
ring its own. A port in RETRAIN keeps them until it is UP again. -/
def State.ctlPort (s : State) (r : Fin 2) (east : Bool) : Option (Fin 4) :=
  let at_ (k : Fin 2) : Option (Fin 4) :=
    let p := if east then eastOf k else westOf k
    if s.pairUp k && s.dlk.port[p].linked then some p else none
  if s.upperPair r then at_ 1 else (at_ 0).or (if s.planePair then at_ 1 else none)

/-- Send a TOPO or STATE payload one hop, to the peer of a port. -/
def State.sendHop (s : State) (k : Option (Fin 4)) (op vc src : Nat) (pay : BitVec 1888) : State :=
  match k with
  | some k => s.putFlit k (mkFlit vc (s.dateline k) (ringHdr s.dlk.port[k].peer.toNat src 0 0 op 0 0 (s.dateline k) false) pay none)
  | none => s

/-- The payload of TOPO (17 Table 17.3): kind, device, port. -/
def topoPay (kind dev port : Nat) : BitVec 1888 := BitVec.ofNat 1888 (kind + dev % 2 ^ 24 * 256 + port * 2 ^ 32)

/-- TOPO both ways round a pair's ring, with a port for each way. -/
def State.sendTopo (s : State) (r : Fin 2) (kind : Nat) (portE portW : Fin 4) : State :=
  let s := s.sendHop (s.ctlPort r true) 6 0 s.devId (topoPay kind s.devId portE.val)
  s.sendHop (s.ctlPort r false) 6 0 s.devId (topoPay kind s.devId portW.val)

/-! ## The bypass drive -/

/-- A port with no link: its link-level state starts afresh, and the credits the lost peer held await reclaim (16 R372, R385; 17
R407). -/
def Port.idle (p : Port) (st : PortSt) : Port :=
  { p.losePeer with
    st := st, txSeq := 0, rxSeq := 0xFF, nakSent := false, nakDue := false, retry := [], outq := [], urgent := none, ctrlDue := 0
    auditFail := 0, winCorr := 0, winUncorr := 0, winRetry := 0, sinceInj := vzero, unacked := 0 }

/-- A port loses its link with all it still had to send. -/
def State.idlePort (s : State) (k : Fin 4) (st : PortSt) : State :=
  let q := s.dlk.port[k].urgent.toList ++ s.dlk.port[k].outq
  (s.modPort k fun p => p.idle st).each q fun s f => s.freeInp f

/-- Remove the drive of a pair's switch with a cause of 16 Table 16.3: the switch closes, the pair has left the ring, and its
ports fall back to loopback. Nothing happens to a switch that is not driven (16 R375). -/
def State.dropDrive (s : State) (k : Fin 2) (cause : BitVec 3) : State :=
  if s.dlk.sw[k].drive then
    let s := s.modSw k fun w =>
      { w with drive := false, closed := true, cause := cause, joining := false, joined := false, leaving := false, returned := false, ackE := false, ackW := false
               barred := w.barred || cause == 6 }
    let s := (s.idlePort (eastOf k) .loopback).idlePort (westOf k) .loopback
    { s with ringl :=
        if k = 0 then { s.ringl with st := .unjoined, map := s.ringl.map.set 0 RMap.reset, gwOut := false }
        else { s.ringl with plane2 := false, gateway := false, map := s.ringl.map.set 1 RMap.reset } }
  else s

end Sys2Proof.Machine
end

