-- ==== Sys2Proof/Machine/Ledger.lean ====
section
/-! DEFINITION. The ledger (17 R406-R409, Table 17.6): the totals of its six classes, derived from what they count, and the frozen
copy that an S4 error and a warm reset leave. -/

namespace Sys2Proof.Machine

/-- Pool pages that channels of a partition hold. -/
def State.kvHeld (s : State) (p : Fin 16) : List Nat := (s.chans.filter fun c => c.2.ptn == p).flatMap fun c => c.2.pages

/-- Pages reserved by jobs and not yet taken (12 R289). -/
def State.kvResv (s : State) (p : Fin 16) : Nat := ((s.jobs.filter fun j => j.ptn == p).map (·.resKv)).sum

/-- Pages held by no channel, ascending. -/
def State.kvUnheld (s : State) (p : Fin 16) : List Nat :=
  let h := s.kvHeld p
  (List.range (s.P p).kvPages.toNat).filter fun n => !h.contains n

/-- Pages free and unreserved (12 R289). -/
def State.kvFree (s : State) (p : Fin 16) : Nat := (s.kvUnheld p).length - s.kvResv p

/-- The four terms of a class (17 R406). -/
structure Terms where
  issued : Nat
  free : Nat
  held : Nat
  transit : Nat

/-- Class 0: input-buffer slots. Free are the credits at the sending end; in transit the returns not yet sent or not yet acknowledged, and the
credits awaiting reclaim (log 23). -/
def State.ldg0 (s : State) : Terms :=
  let l := s.dlk.port.toList
  { issued := (l.map (·.issued)).sum, free := (l.map fun p => vsum p.granted).sum, held := (l.map fun p => vsum p.rxHeld).sum
    transit := (l.map fun p => vsum p.owed + vsum p.inFlits + vsum p.reclaim).sum }

/-- The invariant of a class (17 R406). -/
def Terms.balance (t : Terms) : Bool := t.issued == t.free + t.held + t.transit

/-- Class 1: the fabric's input slots, whose number the spec does not give: all free while no transfer is in progress (log 23). -/
def ldg1 : Terms := { issued := Config.fabricCredits, free := Config.fabricCredits, held := 0, transit := 0 }

/-- Class 2: buffer-pool entries, held by the reservations of jobs. -/
def State.ldg2 (s : State) : Terms :=
  let h := (s.jobs.map (·.resBuf)).sum
  { issued := 4096, free := 4096 - h, held := h, transit := 0 }

/-- Class 3: admission slots, held from admission or promotion until the final record is written (04 R89). -/
def State.ldg3 (s : State) : Terms :=
  let h := (s.jobs.filter fun j => j.slotHeld).length
  { issued := 4096, free := 4096 - h, held := h, transit := 0 }

/-- Class 4: KV pages (12 R289). -/
def State.ldg4 (s : State) : Terms :=
  let n := (s.ptn.toList.map fun q => q.kvPages.toNat).sum
  let h := ((List.finRange 16).map fun p => (s.kvHeld p).length + s.kvResv p).sum
  { issued := n, free := n - h, held := h, transit := 0 }

/-- Granules of a partition: owned, or still being zeroed. -/
def State.ownGran (s : State) (p : Fin 16) : List (Bool × Nat) :=
  let q := s.P p
  let m1 := q.zero.foldl (fun m z => m ||| z.t1.toNat) (s.owns p csT1)
  let m0 := q.zero.foldl (fun m z => m ||| z.t0.toNat) (s.owns p csT0)
  (ones 128 m1).map (fun g => (true, g)) ++ (ones 96 m0).map fun g => (false, g)

/-- Class 5: frames of granted granules, in transit while an eviction writes them back or a granule is zeroed. -/
def State.ldg5 (s : State) : Terms :=
  let one (p : Fin 16) : Terms :=
    let q := s.P p
    let gs := s.ownGran p
    let zeroing (g : Bool × Nat) : Bool := q.zero.any fun z => if g.1 then bit z.t1 g.2 else bit z.t0 g.2
    let zf := ((gs.filter zeroing).map fun g => granFrames g.1).sum
    let wb := ((q.dir.filter fun t => t.moving == some (.writeback true)).map fun t => frameTotal t.frames).sum
    let used := ((gs.filter fun g => !zeroing g).map (s.usedIn p)).sum
    let n := (gs.map fun g => granFrames g.1).sum
    { issued := n, free := n - zf - used, held := used - wb, transit := zf + min wb used }
  let l := (List.finRange 16).map one
  { issued := (l.map (·.issued)).sum, free := (l.map (·.free)).sum, held := (l.map (·.held)).sum, transit := (l.map (·.transit)).sum }

/-- The terms of a class as they stand. -/
def State.ldgNow (s : State) (c : Nat) : Terms :=
  match c with | 0 => s.ldg0 | 1 => ldg1 | 2 => s.ldg2 | 3 => s.ldg3 | 4 => s.ldg4 | _ => s.ldg5

/-- The terms are kept as they stand (17 R409, R415; 18 R430). -/
def State.snapLedger (s : State) : State :=
  let v (f : Terms → Nat) : Vector W32 6 := Vector.ofFn fun c => BitVec.ofNat 32 (f (s.ldgNow c.val))
  { s with ldg := { s.ldg with issued := v (·.issued), freeU := v (·.free), held := v (·.held), transit := v (·.transit) } }

/-- The ledger freezes on the first S4 error (17 R409). -/
def State.freeze (s : State) : State :=
  if s.ldg.frozen then s else { s.snapLedger with ldg := { s.snapLedger.ldg with frozen := true } }

end Sys2Proof.Machine
end

