-- ==== Sys2Proof/Machine/Directory.lean ====
section
/-! DEFINITION. The directory commands CREATE, DESTROY, QUERY and FLUSH (07 R170-R173), the moves that wait on a tensor (07 R175,
R193), and moves that fail (07 R178, R189). -/

namespace Sys2Proof.Machine

/-! ## Results (07 Table 7.4) -/

def tdOk : Nat := 0
def tdOverlap : Nat := 1
def tdFull : Nat := 2
def tdT2Limit : Nat := 3
def tdNoRoom : Nat := 4
def tdNotTensor : Nat := 5
def tdPinned : Nat := 6
def tdBadArg : Nat := 7

/-- A directory command ends with a result: BUSY reads 0. -/
def Ptn.tdEnd (q : Ptn) (r : Nat) : Ptn := { q with tdBusy := false, tdResult := BitVec.ofNat 3 r, tdWait := none }

def State.tdEnd (s : State) (p : Fin 16) (r : Nat) : State := s.modP p fun q => q.tdEnd r

/-- A command written while BUSY is discarded and sets DROPPED (07 R172). -/
def State.tdCmd (s : State) (p : Fin 16) (f : State → State) : State :=
  if (s.P p).tdBusy then s.modP p fun q => { q with tdDropped := true } else f s

/-! ## Starting moves -/

def dieFin (d : Nat) : Fin 4 := ⟨d % 4, Nat.mod_lt _ (by decide)⟩

/-- Start the load of a tensor into reserved frames. -/
def State.startLoad (s : State) (p : Fin 16) (base : Nat) (dest : Claim) (job : Option Nat) : State :=
  match (s.P p).tensor base with
  | none => s
  | some t =>
    let s := s.modTensor p base fun t => { t with moving := some .load, cause := job, dest := dest }
    s.startX { blankX p (s.cfgFor p job) 0 t.t2 (t.size * 4096) false with base := base, job := job }

/-- Start a write-back and its DMA transfer. -/
def State.goWb (s : State) (p : Fin 16) (t : Tensor) (why : Mv) (job : Option Nat) : State :=
  (s.startWb p t why job).runX s.nextXfer

/-- Do, one after another, what waits on a tensor whose move has ended, until the next move is under way (07 R175, R193). A move
whose tensor an earlier failure left elsewhere has nothing to do: its frames return. -/
def startNext (p : Fin 16) (base : Nat) : Nat → State → State
  | 0, s => s
  | fuel + 1, s =>
    match (s.P p).tensor base with
    | none => s
    | some t =>
      match t.next with
      | [] => s
      | n :: rest =>
        let s := s.modTensor p base fun t => { t with next := rest, pins := t.pins + (if n.pinJob.isSome then 1 else 0) }
        let idle := startNext p base fuel (s.giveBack p n.dest)
        match n.go with
        | none => idle
        | some .load => if t.tier = 2 then s.startLoad p base n.dest n.cause else idle
        | some (.move b) =>
          if t.tier = 2 then idle
          else s.modTensor p base fun t => { t with moving := some (.move b), cause := n.cause, dest := n.dest }
        | some (.writeback _) =>
          if t.tier = 2 then idle
          else if t.dirty then s.goWb p t (.writeback false) n.cause
          else startNext p base fuel (s.dropCopy p t)
        | some .flush => idle

/-! ## The commands -/

/-- No move is under way on a tensor, and none waits. -/
def Tensor.still (t : Tensor) : Bool := t.moving.isNone && t.next.isEmpty

/-- DESTROY of a tensor at rest: the entry goes, and its frames are free (07 Table 7.3). -/
def State.doDestroy (s : State) (p : Fin 16) (t : Tensor) : State :=
  if t.pins ≠ 0 then s.tdEnd p tdPinned
  else (s.modP p fun q => { (q.wipe t.base t.size) with dir := q.dir.filter (·.base != t.base) }).tdEnd p tdOk

/-- FLUSH of a tensor at rest: a clean, unbacked or T2 one gives OK at once (07 Table 7.3). -/
def State.doFlush (s : State) (p : Fin 16) (t : Tensor) : State :=
  if t.pins ≠ 0 then s.tdEnd p tdPinned
  else if !t.dirty || !t.backed || t.tier == 2 then s.tdEnd p tdOk
  else (s.modP p fun q => { q with tdBusy := true, tdWait := some { op := 5, base := t.base } }).goWb p t .flush none

/-- What waits for a move goes on: a DESTROY or FLUSH acts once its tensor is still, and a FLUSH ends with its write-back (07
R172, R173). -/
def State.tdSettle (s : State) (p : Fin 16) : State :=
  match (s.P p).tdWait with
  | none => s
  | some w =>
    match (s.P p).tensor w.base with
    | none => if w.op = 1 then s else s.tdEnd p tdNotTensor
    | some t =>
      if w.op = 5 then (if t.moving = some .flush then s else s.tdEnd p tdOk)
      else if w.op = 1 ∨ !t.still then s
      else if w.op = 2 then s.doDestroy p t
      else s.doFlush p t

/-- A move has ended: the next starts, and what waited goes on. -/
def State.moveEnded (s : State) (p : Fin 16) (base : Nat) : State :=
  let fuel := match (s.P p).tensor base with | some t => t.next.length | none => 0
  ((startNext p base (fuel + 1) s).settleWaits p).tdSettle p

/-- TD_ARG0-TD_ARG2 hold a reserved value, or one that 07 Table 7.4 gives BAD_ARG. -/
def Ptn.badArg (q : Ptn) : Bool :=
  let place := fld q.tdArg0 2 2
  let home := fld q.tdArg0 4 3
  let size := fld q.tdArg1 0 23
  let backed := bit q.tdArg0 1
  fld q.tdArg0 7 5 != 0 || fld q.tdArg0 48 16 != 0 || fld q.tdArg1 23 9 != 0 || fld q.tdArg2 0 12 != 0 || fld q.tdArg2 48 16 != 0
    || place == 3 || (4 ≤ home && home ≤ 6) || size == 0 || 4194304 < size || 2 ^ 48 < (fld q.tdArg0 12 36 + size) * 4096
    || (backed && fld q.tdArg2 12 36 == 0) || (!backed && fld q.tdArg2 12 36 != 0) || (!backed && (place == 2 || home == 7))

/-- The new entry that the arguments describe, in T2 and clean. -/
def Ptn.newTensor (q : Ptn) : Tensor :=
  { base := fld q.tdArg0 12 36 * 4096, size := fld q.tdArg1 0 23, backed := bit q.tdArg0 1, place := BitVec.ofNat 2 (fld q.tdArg0 2 2)
    home := BitVec.ofNat 3 (fld q.tdArg0 4 3), t2 := fld q.tdArg2 12 36 * 4096, pins := 0, tier := 2, dirty := false, die := 0
    lastUnpin := 0, homed := none, frames := [], dest := [], moving := none, cause := none, next := [], drop := 0 }

/-- Frames that 1 TiB of backed tensors takes. -/
def t2Frames : Nat := 2 ^ 28

/-- CREATE, its results in the order BAD_ARG, OVERLAP, FULL, T2_LIMIT, NO_ROOM (07 R172; the order is a reading, log 24). An unbacked
tensor is placed at once from free frames on HOME, and the command ends when they are zeroed. -/
def State.doCreate (s : State) (p : Fin 16) : State :=
  let q := s.P p
  let t := q.newTensor
  if q.badArg then s.tdEnd p tdBadArg
  else if q.dir.any fun u => u.base < t.base + t.size * 4096 && t.base < u.base + u.size * 4096 then s.tdEnd p tdOverlap
  else if csTdCap q.act ≤ q.dir.length then s.tdEnd p tdFull
  else if t.backed && t2Frames < t.size + ((q.dir.filter (·.backed)).map (·.size)).sum then s.tdEnd p tdT2Limit
  else if t.backed then (s.modP p fun q => { q with dir := q.dir ++ [t] }).tdEnd p tdOk
  else
    let l := s.freeList p q.act t.home.toNat (t.place == 1)
    if frameTotal l < t.size then (s.bump p .noRoom 1).tdEnd p tdNoRoom
    else
      let u := { t with tier := BitVec.ofNat 2 t.place.toNat, die := dieFin t.home.toNat, frames := (takeFrames l t.size).1 }
      s.modP p fun q =>
        { (q.wipe t.base t.size) with
          dir := q.dir ++ [u], tdBusy := true, tdWait := some { op := 1, base := t.base }
          zero := q.zero ++ [{ t0 := 0, t1 := 0, tally := 0, cl := 0, why := .create }] }

/-- The tensor that TD_ARG0's UTA address lies in. -/
def Ptn.argTensor (q : Ptn) : Option Tensor := q.tensorAt (fld q.tdArg0 12 36 * 4096)

/-- A command on a tensor that waits while it moves (07 R173). -/
def State.orWait (s : State) (p : Fin 16) (op : Nat) (f : State → Tensor → State) : State :=
  match (s.P p).argTensor with
  | none => s.tdEnd p tdNotTensor
  | some t => if t.still then f s t else s.modP p fun q => { q with tdBusy := true, tdWait := some { op := op, base := t.base } }

def State.doQuery (s : State) (p : Fin 16) : State :=
  match (s.P p).argTensor with
  | none => s.tdEnd p tdNotTensor
  | some t => (s.modP p fun q => { q with tdRes := t.words }).tdEnd p tdOk

/-- TD_CMD with an operation of 07 Table 7.3. -/
def State.tdOp (s : State) (p : Fin 16) (op : Nat) : State :=
  s.tdCmd p fun s =>
    match op with
    | 1 => s.doCreate p
    | 2 => s.orWait p 2 fun s t => s.doDestroy p t
    | 3 => s.doQuery p
    | 4 => s.orWait p 4 fun s t => s.doFlush p t
    | _ => s.tdEnd p tdBadArg

def execCreate (fn : Fn) (p : Fin 16) (s : State) : Out := .next (if s.reach fn p then s.tdOp p 1 else s)
def execDestroy (fn : Fn) (p : Fin 16) (s : State) : Out := .next (if s.reach fn p then s.tdOp p 2 else s)
def execQuery (fn : Fn) (p : Fin 16) (s : State) : Out := .next (if s.reach fn p then s.tdOp p 3 else s)
def execFlush (fn : Fn) (p : Fin 16) (s : State) : Out := .next (if s.reach fn p then s.tdOp p 4 else s)

/-! ## Moves that fail -/

/-- The jobs whose PINs wait on the load under way of a tensor. A load with moves waiting behind it is a MIG's, and no PIN waits on it. -/
def Ptn.loaders (q : Ptn) (base : Nat) : List Nat :=
  match q.tensor base with
  | some t => if t.next = [] then ((q.waits.filter fun w => !w.unpin && w.bases.contains base).map (·.job)).dedup else []
  | none => []

/-- A load that has failed, or that no PIN waits for any more, ends: the tensor stays in T2 with its backing and DIRTY unchanged, its
frames return to free, and the pins added for it go (07 R189). -/
def State.abortLoad (s : State) (p : Fin 16) (base : Nat) : State :=
  let l := (s.P p).loaders base
  let s := { s with jobs := s.jobs.map fun (j : Job) => if l.contains j.id then { j with pins := j.pins.filter (· != base) } else j }
  let s := match (s.P p).tensor base with | some t => s.giveBack p t.dest | none => s
  (s.modTensor p base fun t => { t with moving := none, cause := none, dest := [], pins := 0, drop := 0 }).moveEnded p base

/-- A write-back that failed, or whose fault was released by the end of its job: an eviction leaves the tensor in T2 with DIRTY
at 1, any other leaves it resident and dirty (07 R178, R189). The spec gives a FLUSH that fails no RESULT: its value is free (log 25). -/
def State.abortWb (s : State) (p : Fin 16) (base : Nat) : State :=
  match (s.P p).tensor base with
  | some t =>
    match t.moving with
    | some (.writeback true) => ((s.dropCopy p t).modTensor p base fun u => { u with dirty := true }).moveEnded p base
    | some .flush =>
      let s := { s with free := s.free + 1 }.tdEnd p (Config.freeNat s.free)
      (s.modTensor p base fun u => { u with moving := none, cause := none }).moveEnded p base
    | _ => (s.modTensor p base fun u => { u with moving := none, cause := none }).moveEnded p base
  | none => s

end Sys2Proof.Machine
end

