-- ==== Sys2Proof/Machine/Exc.lean ====
section
/-! DEFINITION. Why an instruction or an operation fails its job: exceptions (05 R137, Table 5.19) and the records of 18 Table 18.5
that end a job. -/

namespace Sys2Proof.Machine

def exIllegal : Exc := { cause := 0x01, dreg := none, addr := none }
def exPcRange : Exc := { cause := 0x02, dreg := none, addr := none }
def exSds : Exc := { cause := 0x03, dreg := none, addr := none }
def exTally : Exc := { cause := 0x07, dreg := none, addr := none }
def exWait : Exc := { cause := 0x08, dreg := none, addr := none }
def exTrap : Exc := { cause := 0x09, dreg := none, addr := none }
def exData : Exc := { cause := 0x0A, dreg := none, addr := none }
/-- DESC_RESERVED of a parameter word. -/
def exReserved : Exc := { cause := 0x04, dreg := none, addr := none }

/-- DESC_RESERVED of a structure at a UTA address (00 R10). -/
def exStruct (uta : Nat) : Exc := { cause := 0x04, dreg := none, addr := some (uta, 0, false) }

/-- The EXCEPTION record, with its EXC_ADDR (18 R423, Table 18.5). -/
def excRec (unit : Nat) (c : Fin 32) (pc : W16) (w1 w2 : W32) (e : Exc) : Rec :=
  { recOf 2 1 e.cause unit with
    detail := fld pc 2 14 + c.val * 2 ^ 14 + (match e.dreg with | some d => d.val * 2 ^ 19 + 2 ^ 23 | none => 0)
      + w1.toNat * 2 ^ 24 + w2.toNat * 2 ^ 56
    addr := if e.dreg.isSome ∨ e.addr.isSome then
        (match e.addr with
         | some (a, seg, form) => some (a % 2 ^ 48 + seg % 16 * 2 ^ 48 + form.toNat * 2 ^ 52)
         | none => some 0)
      else none }

def jobData (cause detail unit : Nat) : Rec := { recOf 2 4 cause unit with detail := detail }

def xferDetail (xid partner : Nat) (sender : Bool) : Nat := xid % 65536 + partner % 2 ^ 17 * 2 ^ 16 + sender.toNat * 2 ^ 40

end Sys2Proof.Machine
end

