-- ==== Sys2Proof/Machine/Formats.lean ====
section
/-! DEFINITION. The narrow number formats (02): block layouts, codebooks, accumulators, conversion. Every real value is held
exactly, as an integer in units of 2^−149, of which every value of every source format is a multiple. -/

namespace Sys2Proof.Machine

/-! ## Format codes (05 Table 5.15) -/

def fRaw8 : Nat := 0
def fPn4 : Nat := 1
def fPn2 : Nat := 2
def fPn8 : Nat := 3
def fAcc24 : Nat := 4
def fLq12 : Nat := 5
def fU32 : Nat := 6
def fPid5 : Nat := 7
def fPid8 : Nat := 8

/-- Elements of a block, or 1 for a format with no blocks (02 R32, R40). -/
def blkElems (f : Nat) : Nat := match f with | 1 => 32 | 2 => 64 | 3 => 32 | 4 => 32 | _ => 1

/-- Bytes of a block or of an element's container. -/
def blkBytes (f : Nat) : Nat :=
  match f with | 0 => 1 | 1 => 17 | 2 => 17 | 3 => 33 | 4 => 128 | 5 => 2 | 6 => 4 | 7 => 5 | _ => 8

/-- Bytes of a row of `n` elements (02 R34). -/
def rowBytes (f n : Nat) : Nat := n / blkElems f * blkBytes f

/-- Exponent bias (02 Table 2.1). -/
def fBias (f : Nat) : Nat := if f = 2 then 31 else 15

/-- Largest exponent value. -/
def fEmax (f : Nat) : Nat := if f = 2 then 63 else 31

/-! ## Codebooks -/

/-- A codebook set as read from memory, or none for a reference of zero (02 R37). -/
abbrev CbSet := Option (List Byte)

/-- The entries of selector `sel` by code, or none where the tensor has no such codebook (02 R36, R38, R48). -/
def entriesOf (f sel : Nat) (cb : CbSet) : Option (List Int) :=
  match f with
  | 1 =>
    if sel = 0 then some ((List.range 16).map fun c => sx 4 c)
    else cb.map fun bs => (List.range 16).map fun c => sx 8 (sliceLe bs (16 * (sel - 1) + c) 1)
  | 2 => some (match sel with | 0 => [-2, -1, 0, 1] | 1 => [-3, -1, 1, 3] | 2 => [0, 1, 2, 3] | _ => [-4, -1, 1, 4])
  | _ => some ((List.range 256).map fun c => sx 8 c)

/-! ## Reading blocks -/

/-- Why a block cannot be read: a reserved encoding (00 R10), or a selector 1-7 with no codebook set (02 R48). -/
inductive BlkErr where
  | reserved
  | absent
  deriving DecidableEq, Repr

/-- A block as read: E − bias, and its entries in code order (02 R32, R34). -/
structure Blk where
  e : Int
  v : List Int

/-- Code `i` of a code area. -/
def codeAt (f : Nat) (area : List Byte) (i : Nat) : Nat :=
  match f with
  | 1 => bits (sliceLe area (i / 2) 1) (4 * (i % 2)) 4
  | 2 => bits (sliceLe area (i / 4) 1) (2 * (i % 4)) 2
  | _ => sliceLe area i 1

/-- Read one PN4, PN2 or PN8 block. -/
def readBlk (f : Nat) (cb : CbSet) (bs : List Byte) : Except BlkErr Blk :=
  let h := sliceLe bs 0 1
  let sel := if f = 2 then h / 64 else h / 32
  let e := if f = 2 then h % 64 else h % 32
  if f = 3 ∧ sel ≠ 0 then .error .reserved
  else
    match entriesOf f sel cb with
    | none => .error .absent
    | some es => .ok { e := (e : Int) - fBias f, v := (List.range (blkElems f)).map fun i => es.getD (codeAt f (bs.drop 1) i) 0 }

/-- Read consecutive blocks; the index of the first that cannot be read comes with its error. -/
def readBlks (f : Nat) (cb : CbSet) (bs : List Byte) : Nat → Nat → Except (Nat × BlkErr) (List Blk)
  | 0, _ => .ok []
  | n + 1, i =>
    match readBlk f cb ((bs.drop (i * blkBytes f)).take (blkBytes f)) with
    | .error e => .error (i, e)
    | .ok b => (readBlks f cb bs n (i + 1)).map fun l => b :: l

/-! ## Accumulators -/

/-- An accumulator (02 R39) and whether it has saturated. -/
structure Acc where
  a : Int
  f : Int
  sat : Bool
  deriving DecidableEq, Repr

def accZero : Acc := { a := 0, f := -128, sat := false }

def accMin : Int := -(2 ^ 23)
def accMax : Int := 2 ^ 23 - 1

def inAcc (x : Int) : Bool := accMin ≤ x && x ≤ accMax

/-- The smallest number of places, at least 1, that brings a sum into range after one rounding (06 R149 step 4). -/
def accShift (x : Int) : Nat → Nat → Nat
  | 0, s => s
  | n + 1, s => if inAcc (rne x s) then s else accShift x n (s + 1)

/-- Accumulate T × 2^e (06 R149 step 4). -/
def Acc.add (x : Acc) (t e : Int) : Acc :=
  let f := max x.f e
  let sum := rne x.a (f - x.f).toNat + rne t (f - e).toNat
  if inAcc sum then { x with a := sum, f := f }
  else
    let s := accShift sum 64 1
    if 127 < f + s then { a := if sum < 0 then accMin else accMax, f := 127, sat := true }
    else { x with a := rne sum s, f := f + s }

/-- The chunk sum of block sums with exponents: T and e_max (06 R149 step 3). -/
def chunkSum (l : List (Int × Int)) : Int × Int :=
  match l with
  | [] => (0, -128)
  | h :: t =>
    let m := t.foldl (fun m x => max m x.2) h.2
    ((l.map fun x => rne x.1 (m - x.2).toNat).sum, m)

/-- An ACC24 block of 32 accumulators (02 R40). -/
def readAcc (bs : List Byte) : Except BlkErr (List Acc) :=
  if 2 ≤ sliceLe bs 97 1 ∨ sliceLe bs 98 30 ≠ 0 then .error .reserved
  else
    .ok ((List.range 32).map fun i =>
      { a := sx 24 (sliceLe bs (3 * i) 3), f := sx 8 (sliceLe bs 96 1), sat := sliceLe bs 97 1 == 1 })

/-- Store 32 accumulators as a block (02 R40). -/
def storeAcc (l : List Acc) : List Byte :=
  let f := l.foldl (fun m x => max m x.f) (-128)
  let sh := l.map fun x => rne x.a (f - x.f).toNat
  let s := l.any (·.sat) || sh.any fun x => !inAcc x
  (sh.map fun x => leBytes 3 (wrap 24 (sat 24 x))).flatten ++ leBytes 1 (wrap 8 f) ++ leBytes 1 s.toNat ++ leBytes 30 0

/-! ## Conversion (02 R43-R49) -/

/-- A real input: a number in units of 2^−149, an infinity (true: negative), or a NaN. -/
inductive Num where
  | fin (x : Int)
  | inf (neg : Bool)
  | nan
  deriving DecidableEq, Repr

/-- A binary floating-point value with `eb` exponent bits and `mb` fraction bits (02 R44). -/
def floatNum (eb mb x : Nat) : Num :=
  let man := bits x 0 mb
  let ex := bits x mb eb
  let neg := x.testBit (mb + eb)
  -- 2^(ex − bias − mb) in units of 2^−149
  let sh := 149 + 1 - (2 ^ (eb - 1) - 1) - mb
  if ex = 2 ^ eb - 1 then (if man = 0 then .inf neg else .nan)
  else
    let mag : Nat := if ex = 0 then man * 2 ^ sh else (2 ^ mb + man) * 2 ^ (sh + ex - 1)
    .fin (if neg then -(mag : Int) else mag)

def f32Num (x : Nat) : Num := floatNum 8 23 x
def f16Num (x : Nat) : Num := floatNum 5 10 x
def bf16Num (x : Nat) : Num := floatNum 8 7 x

def accNum (x : Acc) : Num := .fin (x.a * 2 ^ (x.f + 149).toNat)

/-- A conversion control word (02 Table 2.4). -/
structure Ccw where
  target : Nat
  search : Bool
  sel : Nat
  nanFail : Bool
  mask : Nat
  source : Nat
  deriving DecidableEq, Repr

/-- The word of s[SP], or none where an encoding is reserved (02 R43). -/
def ccwOf (w : Nat) : Option Ccw :=
  let t := bits w 0 3
  let search := w.testBit 3
  let sel := bits w 4 3
  let mask := bits w 8 8
  let ok := t < 3 && w / 2 ^ 18 == 0
    && (match t with | 0 => true | 1 => sel < 4 && mask < 16 | _ => sel == 0 && mask == 0 && !search)
    && !(search && mask == 0)
  if ok then some { target := t + 1, search := search, sel := sel, nanFail := w.testBit 7, mask := mask, source := bits w 16 2 }
  else none

/-- A number takes this exponent without saturating: Nmin ≤ x × 2^(bias − E) ≤ Pmax (02 R45). -/
def fits (f : Nat) (lo hi : Int) (e : Nat) : Num → Bool
  | .fin x => lo * 2 ^ (149 + e) ≤ x * 2 ^ fBias f && x * 2 ^ fBias f ≤ hi * 2 ^ (149 + e)
  | .inf _ => false
  | .nan => lo ≤ 0 && 0 ≤ hi

def minOf (l : List Int) : Int := match l with | [] => 0 | a :: t => t.foldl min a
def maxOf (l : List Int) : Int := match l with | [] => 0 | a :: t => t.foldl max a

/-- The exponent of a block (02 R45). -/
def pickExp (f : Nat) (es : List Int) (xs : List Num) : Nat :=
  ((List.range (fEmax f)).find? fun e => xs.all (fits f (minOf es) (maxOf es) e)).getD (fEmax f)

/-- Code a comes before code b for a value (02 R46): nearer; an even entry; the smaller absolute value; the lower code. -/
def nearer (y : Int) (scale : Int) (a b : Int) : Bool :=
  let da := (y - a * scale).natAbs
  let db := (y - b * scale).natAbs
  if da ≠ db then da < db
  else if a % 2 ≠ b % 2 then a % 2 == 0
  else a.natAbs < b.natAbs

/-- The code of one element, and whether it saturates (02 R46). A NaN counts as 0. -/
def pickCode (f : Nat) (es : List Int) (e : Nat) (x : Num) : Nat × Bool :=
  let best (y : Int) : Nat := ((firstBy (fun (a b : Nat × Int) => nearer y (2 ^ (149 + e)) a.2 b.2)
    ((List.range es.length).zip es)).getD (0, 0)).1
  match x with
  | .fin v => (best (v * 2 ^ fBias f), !fits f (minOf es) (maxOf es) e x)
  | .nan => (best 0, !fits f (minOf es) (maxOf es) e x)
  | .inf neg => (best ((if neg then minOf es else maxOf es) * 2 ^ (149 + e)), true)

/-- An encoding of a block under one selector: its exponent, codes and saturations. -/
structure BlkEnc where
  sel : Nat
  e : Nat
  codes : List (Nat × Bool)

def encodeBlk (f sel : Nat) (es : List Int) (xs : List Num) : BlkEnc :=
  let e := pickExp f es xs
  { sel := sel, e := e, codes := xs.map (pickCode f es e) }

/-- The sum of squared differences, infinite elements left out (02 R47), in units of 2^−298. -/
def blkErr (f : Nat) (es : List Int) (b : BlkEnc) (xs : List Num) : Nat :=
  ((b.codes.zip xs).map fun p =>
    let dec := es.getD p.1.1 0 * 2 ^ (149 + b.e - fBias f)
    match p.2 with
    | .fin v => ((dec - v).natAbs) ^ 2
    | .nan => dec.natAbs ^ 2
    | .inf _ => 0).sum

/-- The bytes of an encoded block (02 R32, R34). -/
def packBlk (f : Nat) (b : BlkEnc) : List Byte :=
  let w := if f = 1 then 4 else if f = 2 then 2 else 8
  let area := ((List.range b.codes.length).zip b.codes).foldl (fun acc p => acc + p.2.1 * 2 ^ (w * p.1)) 0
  leBytes 1 (b.e + b.sel * (if f = 2 then 64 else 32)) ++ leBytes (blkBytes f - 1) area

/-- The encoding of a block under a control word: the selector SEL, or the one of least error, lower on a tie (02 R47). -/
def bestEnc (w : Ccw) (cb : CbSet) (xs : List Num) : Option BlkEnc :=
  let f := w.target
  if !w.search then (entriesOf f w.sel cb).map fun es => encodeBlk f w.sel es xs
  else
    let cands := (ones 8 w.mask).filterMap fun sel => (entriesOf f sel cb).map fun es =>
      let b := encodeBlk f sel es xs
      (b, blkErr f es b xs)
    (firstBy (fun (a b : BlkEnc × Nat) => a.2 < b.2) cands).map (·.1)

/-- No permitted selector is a candidate (02 R48). -/
def Ccw.absent (w : Ccw) (cb : CbSet) : Bool := (bestEnc w cb []).isNone

/-- A conversion: the bytes written, the two counts, and the element at which a NaN stopped it (02 R47, R53). -/
structure Conv where
  bytes : List Byte
  sats : Nat
  nans : Nat
  nanAt : Option Nat

def isNan (x : Num) : Bool := match x with | .nan => true | _ => false

/-- Convert `n` blocks of elements from element `i` on. -/
def convBlks (w : Ccw) (cb : CbSet) : Nat → Nat → List Num → Conv → Conv
  | 0, _, _, acc => acc
  | n + 1, i, xs, acc =>
    let k := blkElems w.target
    let blk := xs.take k
    match (if w.nanFail then blk.findIdx? isNan else none) with
    | some j => { acc with nanAt := some (i + j) }
    | none =>
      match bestEnc w cb blk with
      | none => acc
      | some b =>
        convBlks w cb n (i + k) (xs.drop k)
          { acc with bytes := acc.bytes ++ packBlk w.target b
                     sats := acc.sats + (b.codes.filter (·.2)).length
                     nans := acc.nans + (blk.filter isNan).length }

/-- Convert a list of elements, whole blocks (02 R44-R48). -/
def convert (w : Ccw) (cb : CbSet) (xs : List Num) : Conv :=
  convBlks w cb (xs.length / blkElems w.target) 0 xs { bytes := [], sats := 0, nans := 0, nanAt := none }

/-! ## LQ12 and its helpers (02 R41, 06 R158) -/

/-- The largest n below 2^k with `ok n`, for an `ok` that holds up to some point. -/
def largest (ok : Nat → Bool) (k : Nat) : Nat := (List.range k).reverse.foldl (fun n i => if ok (n + 2 ^ i) then n + 2 ^ i else n) 0

/-- round(2^(−Q ÷ 256) × 2^24), with 0 for Q = 4,095 (06 R158). No value lies midway, since a midpoint is odd over 2. -/
def exp2Q (q : Nat) : Nat :=
  if q = 4095 then 0
  else
    let n := largest (fun n => n ^ 256 ≤ 2 ^ (6144 - q)) 25
    if 2 ^ (6400 - q) < (2 * n + 1) ^ 256 then n else n + 1

/-- round(−256 × log₂(u ÷ 2^24)) held to 0-4,094, with 4,095 for u = 0 (06 R158). -/
def log2Q (u : Nat) : Nat :=
  if u = 0 then 4095
  else if 2 ^ 24 ≤ u then 0
  else
    let q := largest (fun q => u ^ 256 * 2 ^ q ≤ 2 ^ 6144) 13
    min 4094 (if u ^ 512 * 2 ^ (2 * q + 1) ≤ 2 ^ 12288 then q + 1 else q)

end Sys2Proof.Machine
end

