-- ==== Sys2Proof/Machine/Streams.lean ====
section
/-! DEFINITION. Stream records and the detokenizer state of a channel (03 Table 3.8; 09 R234-R236). -/

namespace Sys2Proof.Machine

/-- A stream record (03 Table 3.8). `kind` is byte 13. -/
def streamRec (tag : Nat) (chan seq kind : Nat) (payload : List Byte) : BitVec 512 :=
  BitVec.ofNat 512 (tag % 2 ^ 64 + chan % 4096 * 2 ^ 64 + seq % 65536 * 2 ^ 80 + payload.length % 256 * 2 ^ 96
    + kind % 256 * 2 ^ 104 + ofLe (payload.take 48) * 2 ^ 128)

/-- A stream ring takes records (03 R523). -/
def State.streamOn (s : State) (p : Fin 16) (r : Fin 16) : Bool := (s.P p).sr[r].en && !(s.P p).sr[r].wfail

/-- A stream ring by number. -/
def ring16 (n : Nat) : Fin 16 := ⟨n % 16, Nat.mod_lt _ (by decide)⟩

/-- Queue a record for a stream ring; a disabled or broken ring takes none (03 R523). -/
def State.putStream (s : State) (p : Fin 16) (r : Fin 16) (op : Option Nat) (d : BitVec 512) : State :=
  s.modP p fun q => q.modSr r fun c => if c.en ∧ !c.wfail then { c with outq := c.outq ++ [{ data := d, op := op }] } else c

/-- The detokenizer state of a channel. -/
def State.dtk (s : State) (chan : Nat) (p : Fin 16) : Dtk :=
  (s.dtks.find? fun d => d.chan == chan && d.ptn == p).getD { chan := chan, ptn := p, withheld := [], seq := 0 }

def State.putDtk (s : State) (d : Dtk) : State :=
  let rest := s.dtks.filter fun x => !(x.chan == d.chan && x.ptn == d.ptn)
  if d.withheld = [] ∧ d.seq = 0 then { s with dtks := rest } else { s with dtks := d :: rest }

/-- U+FFFD as UTF-8. -/
def replBytes : List Byte := [0xEF, 0xBF, 0xBD]

/-- The END record of a channel whose output has ended, with its withheld bytes flushed; a record that no ring takes is not counted (04
R99, 09 R236). -/
def State.endStream (s : State) (j : Job) (chan ring : Nat) : State :=
  let d := s.dtk chan j.ptn
  let flush := d.withheld != []
  let s := s.putDtk { d with withheld := [], seq := d.seq + 1 }
  let s := if flush && s.streamOn j.ptn (ring16 ring) then s.bump j.ptn .txuFlush 1 else s
  s.putStream j.ptn (ring16 ring) none (streamRec (dTag j.desc) chan d.seq.toNat (4 + 8 * flush.toNat) (if flush then replBytes else []))

end Sys2Proof.Machine
end

