-- ==== Sys2Proof/Machine/Operands.lean ====
section
/-! DEFINITION. Tensor descriptors (05 R131, R134), the checks of a compute-channel access (07 R182), reading and
writing operands, and what one write does to the operations under way (06 R162). -/

namespace Sys2Proof.Machine

/-! ## The descriptor (05 Table 5.14) -/

abbrev TDesc := BitVec 256

def tOff (b : TDesc) : Nat := fld b 0 48
def tSeg (b : TDesc) : Nat := fld b 48 4
def tFmt (b : TDesc) : Nat := fld b 52 4
def tRank (b : TDesc) : Nat := fld b 56 3
def tArg (b : TDesc) : Bool := bit b 59
def tDim (b : TDesc) (i : Nat) : Nat := fld b (64 + 32 * i) 32
def tCb (b : TDesc) : Nat := fld b 192 40
def tCbOff (b : TDesc) : Nat := fld b 192 36 * 128
def tCbSeg (b : TDesc) : Nat := fld b 228 4

/-- Rows: the product of the extents above the innermost. -/
def tRows (b : TDesc) : Nat :=
  ((List.range 3).map fun i => if i + 1 < tRank b then tDim b (i + 1) else 1).foldl (· * ·) 1

/-- Bytes of the whole tensor. -/
def tBytes (b : TDesc) : Nat := rowBytes (tFmt b) (tDim b 0) * tRows b

/-- No reserved field or encoding (05 R131, R134; 02 R35). An ACC24 tensor whose OFFSET is not a multiple of 128 passes: 02 R40 aligns the
blocks and names no check, so the model reads and stores at the unaligned place (DESIGN CHOICE, log 53). -/
def tOk (b : TDesc) : Bool :=
  tFmt b ≤ 8 && 1 ≤ tRank b && tRank b ≤ 4 && fld b 60 4 == 0 && fld b 232 24 == 0
    && ((List.range 4).all fun i => (decide (i < tRank b)) == (tDim b i != 0))
    && tDim b 0 % blkElems (tFmt b) == 0
    && (!tArg b || (tSeg b == 0 && tCb b == 0))

/-- DESC_RESERVED of a descriptor in a d register. -/
def exDesc (r : Fin 16) (b : TDesc) : Exc := { cause := 0x04, dreg := some r, addr := some (tOff b, tSeg b, true) }

/-- SEG_VIOLATION of an access at an offset of a segment. -/
def exSeg (r : Option (Fin 16)) (seg off : Nat) : Exc := { cause := 0x05, dreg := r, addr := some (off, seg, true) }

/-- NOT_RESIDENT at a UTA address. -/
def exNotRes (r : Option (Fin 16)) (uta : Nat) : Exc := { cause := 0x06, dreg := r, addr := some (uta, 0, false) }

/-! ## Where an operand lies -/

/-- A checked place: in the job's argument block, in a resident tensor (its UTA address, the tensor's base), or in place in T2 (the
same and its IOVA). -/
inductive Loc where
  | arg (a : Nat)
  | mem (uta base : Nat)
  | t2 (uta base iova : Nat)
  deriving DecidableEq, Repr

/-- The unit that asks: an ENG number, or the bit of CND or RING in a segment entry (07 Table 7.5). An operation that completes brings
what other writes did to its operands: `view` the contents it sees where it may see either, `bad` the ranges whose contents are no
longer those of its issue, `clash` those its own output meets another's write in (06 R162; 09 R232; 10 R252, R260; 11 R276). -/
structure Who where
  ptn : Fin 16
  cfg : Bool
  job : Nat
  unit : Nat
  view : List (Nat × Byte) := []
  bad : List (Nat × Nat) := []
  clash : List (Nat × Nat) := []

def uCnd : Nat := 9
def uRing : Nat := 10
def uMge : Nat := 6

/-- The tensor of a range that is pinned and resident, or pinned in place for an MGE (07 R182 step 2). -/
def State.placeOf (s : State) (w : Who) (r : Option (Fin 16)) (uta n : Nat) : Except Exc Loc :=
  match (s.P w.ptn).tensorAt uta with
  | some t =>
    if t.base + t.size * 4096 < uta + n ∨ t.pins = 0 then .error (exNotRes r uta)
    else if t.resident then .ok (.mem uta t.base)
    else if w.unit = uMge ∧ t.place = 2 ∧ t.tier = 2 then .ok (.t2 uta t.base (t.t2 + (uta - t.base)))
    else .error (exNotRes r uta)
  | none => .error (exNotRes r uta)

/-- The checks of an access of `n` bytes at an offset of a segment (07 R182). -/
def State.inSeg (s : State) (w : Who) (r : Option (Fin 16)) (seg off n : Nat) (rd wr : Bool) : Except Exc Loc :=
  let e := csSeg ((s.P w.ptn).cset w.cfg) seg
  if segV e && off + n ≤ segLimit e && (!rd || segR e) && (!wr || segW e) && e.testBit (64 + w.unit) then
    s.placeOf w r (segBase e + off) n
  else .error (exSeg r seg off)

/-- The checks of an access of `n` bytes at `at_` from a descriptor's OFFSET (05 R130, R134; 07 R182). -/
def State.locate (s : State) (w : Who) (r : Fin 16) (b : TDesc) (at_ n : Nat) (rd wr : Bool) : Except Exc Loc :=
  if tArg b then
    let len := match s.job? w.job with | some j => dArgLen j.desc | none => 0
    if wr ∨ len = 0 ∨ len < tOff b + at_ + n then .error (exSeg (some r) 0 (tOff b + at_)) else .ok (.arg (tOff b + at_))
  else s.inSeg w (some r) (tSeg b) (tOff b + at_) n rd wr

/-- The whole operand. -/
def State.operand (s : State) (w : Who) (r : Fin 16) (b : TDesc) (rd wr : Bool) : Except Exc Loc := s.locate w r b 0 (tBytes b) rd wr

/-- A place `k` bytes further on. -/
def Loc.plus (l : Loc) (k : Nat) : Loc :=
  match l with | .arg a => .arg (a + k) | .mem u b => .mem (u + k) b | .t2 u b i => .t2 (u + k) b (i + k)

def Loc.uta (l : Loc) : Nat := match l with | .arg a => a | .mem u _ => u | .t2 u _ _ => u

/-- Bytes from an address up, as a view shows them. -/
def overlay (v : List (Nat × Byte)) (u : Nat) (bs : List Byte) : List Byte :=
  if v.isEmpty then bs else ((List.range bs.length).zip bs).map fun e => (v.lookup (u + e.1)).getD e.2

/-- The bytes of an operand. An argument block or resident tensor is read here; a place in T2 is read by DMA. -/
def State.readLoc (s : State) (w : Who) (l : Loc) (n : Nat) : List Byte :=
  match l with
  | .arg a => match s.job? w.job with | some j => rdBytes j.arg a n | none => List.replicate n 0
  | .mem u _ => overlay w.view u (rdBytes (s.P w.ptn).mem u n)
  | .t2 _ _ _ => List.replicate n 0

/-- A 64-byte unit of a range is uncorrectable (07 R197). -/
def State.badIn (s : State) (w : Who) (l : Loc) (n : Nat) : Bool :=
  match l with
  | .mem u _ => (s.P w.ptn).bad.any fun x => u < x * 64 + 64 && x * 64 < u + n
  | _ => false

/-- A unit only part of which a write covers is uncorrectable (07 R197). -/
def State.badEdge (s : State) (w : Who) (l : Loc) (n : Nat) : Bool :=
  match l with
  | .mem u _ => (s.P w.ptn).bad.any fun x => u < x * 64 + 64 && x * 64 < u + n && !(u ≤ x * 64 && x * 64 + 64 ≤ u + n)
  | _ => false

/-! ## Writes -/

/-- The UTA address of an offset within a descriptor's tensor. For a descriptor of the argument block (ARG, 05 R134), which has no UTA
address, it is the offset in segment 0: 18 Table 18.5 has no form for such a structure, and the model gives this one (DESIGN CHOICE, log
54). -/
def State.utaOf (s : State) (o : Op) (b : TDesc) (off : Nat) : Nat :=
  segBase (csSeg ((s.P o.ptn).cset o.cfg) (tSeg b)) + tOff b + off

/-- `n` bytes at an offset of a descriptor's tensor as a UTA range; a descriptor of the argument block has none. -/
def State.rangeAt (s : State) (o : Op) (b : TDesc) (off n : Nat) : List (Nat × Nat) := if tArg b then [] else [(s.utaOf o b off, n)]

/-- The tensors an operation's descriptors name. -/
def State.opTensors (s : State) (o : Op) : List Nat :=
  ([o.dA, o.dB, o.dC] ++ if o.den then [o.dD] else []).filterMap fun b =>
    if tArg b then none else ((s.P o.ptn).tensorAt (s.utaOf o b 0)).map (·.base)

/-- Two ranges share a byte. -/
def meets (a b : Nat × Nat) : Bool := a.2 != 0 && b.2 != 0 && a.1 < b.1 + b.2 && b.1 < a.1 + a.2

/-- Take `n` free bytes (06 R162). -/
def State.freeBytes (s : State) (n : Nat) : State × List Byte :=
  ({ s with free := s.free + n }, (List.range n).map s.freeByteAt)

/-- Take one free number below `n`. -/
def State.pickBelow (s : State) (n : Nat) : State × Nat := ({ s with free := s.free + 1 }, Config.freeNat s.free % max 1 n)

/-- Free bytes in place of those that a range of a list reaches; `all` for every one. -/
def State.blur (s : State) (u : Nat) (all : Bool) (l : List (Nat × Nat)) (bs : List Byte) : State × List Byte :=
  if all || l.any (meets (u, bs.length)) then
    ({ s with free := s.free + bs.length },
     ((List.range bs.length).zip bs).map fun e => if all || l.any (meets (u + e.1, 1)) then s.freeByteAt e.1 else e.2)
  else (s, bs)

/-- A write of a partition's memory changes what an operation of another writer, issued and not complete, may see (06 R162). -/
def Op.overwritten (o : Op) (p : Fin 16) (self : Option Nat) (scat : Bool) (uta : Nat) (old : List Byte) : Op :=
  if o.ptn = p ∧ some o.id ≠ self then
    { o with stale := o.stale ++ ((List.range old.length).zip old).map fun e => (uta + e.1, e.2, scat) }
  else o

/-- Bytes of an HWR's source that have not left the device when they are overwritten leave as free bytes (06 R162). -/
def State.blurHwr (s : State) (p : Fin 16) (uta n : Nat) (self : Option Nat) : State :=
  s.each (s.xfers.filter fun x => x.chan == 4 && x.ptn == p && x.op != self) fun s x =>
    if meets (x.base + x.done, x.len - x.done) (uta, n) then
      let r := s.blur x.base false [(uta, n)] x.data
      r.1.modX x.id fun y => { y with data := x.data.take x.done ++ r.2.drop x.done }
    else s

/-- Store bytes in a resident tensor: it becomes dirty (07 R176), units wholly written are good again (07 R197), and the other
operations of the partition have an operand overwritten (06 R162). -/
def State.putMem (s : State) (p : Fin 16) (uta base : Nat) (bs : List Byte) (self : Option Nat) : State :=
  let old := rdBytes (s.P p).mem uta bs.length
  let s := s.modP p fun q =>
    { q with mem := wrBytes q.mem uta bs
             bad := q.bad.filter fun x => !(uta ≤ x * 64 && x * 64 + 64 ≤ uta + bs.length) }
  let s := s.modTensor p base fun t => { t with dirty := true }
  let scat := (self.bind s.op?).any (·.mn == .scat)
  { s with ops := s.ops.map fun (o : Op) => o.overwritten p self scat uta old }.blurHwr p uta bs.length self

/-- Store output of an operation that was computed from the ranges `deps`: free bytes where it is undefined (06 R162, 10 R260). -/
def State.putOut (s : State) (o : Op) (w : Who) (l : Loc) (bs : List Byte) (deps : List (Nat × Nat)) : State :=
  match l with
  | .mem u b =>
    let r := s.blur u (deps.any fun d => w.bad.any (meets d)) w.clash bs
    r.1.putMem o.ptn u b r.2 (some o.id)
  | _ => s

/-- Bytes of an operand, free where other writes have left them undefined (06 R162, 12 R302). -/
def State.readSoft (s : State) (w : Who) (l : Loc) (n : Nat) : State × List Byte :=
  match l with
  | .mem u _ => s.blur u false w.bad (s.readLoc w l n)
  | _ => (s, s.readLoc w l n)

/-! ## What an operation reads -/

def Op.who (o : Op) (unit : Nat) : Who := { ptn := o.ptn, cfg := o.cfg, job := o.job, unit := unit }

/-- The ENG number of a queue kind (05 Table 5.13), or the RING bit. -/
def engOfKind (k : QKind) : Nat :=
  match k with
  | .mxa => 0 | .mvp => 1 | .ssu => 2 | .lse => 3 | .gse => 4 | .smu => 5 | .mge => 6 | .txu => 7 | .hdma => 8 | .vc1 | .vc2 => uRing

/-- The reading of a codebook set when an operation starts (02 R37, R51): nothing for a tensor that is not PN4 or has none. -/
def State.snapCb (s : State) (w : Who) (r : Fin 16) (b : TDesc) : Except Exc (List Byte) :=
  if tFmt b ≠ fPn4 ∨ tCb b = 0 then .ok []
  else
    match s.inSeg w (some r) (tCbSeg b) (tCbOff b) 128 true false with
    | .error e => .error e
    | .ok l =>
      match l with
      -- a set in place in T2 is read by DMA with the operation's data
      | .t2 _ _ _ => .ok []
      | _ =>
        let bs := s.readLoc w l 128
        if s.badIn w l 128 then .error { exData with dreg := some r, addr := some (l.uta, 0, false) }
        else if sliceLe bs 112 16 ≠ 0 then .error { cause := 0x04, dreg := some r, addr := some (l.uta, 0, false) }
        else .ok bs

/-- A snapshot as a codebook set. -/
def cbOf (bs : List Byte) : CbSet := if bs.isEmpty then none else some bs

/-- The snapshot of operand i of an operation. -/
def Op.cb (o : Op) (i : Nat) : CbSet := cbOf (o.cbs.getD i [])

/-! ## Checks -/

/-- Run checks in order. -/
def checks : List (Option Exc) → Except Exc Unit
  | [] => .ok ()
  | none :: t => checks t
  | some e :: _ => .error e

/-- DESC_RESERVED unless a condition holds. -/
def need (ok : Bool) (e : Exc) : Option Exc := if ok then none else some e

def errOf {α : Type} (x : Except Exc α) : Option Exc := match x with | .ok _ => none | .error e => some e

/-- A descriptor's own encoding. -/
def descCheck (r : Fin 16) (b : TDesc) : Option Exc := need (tOk b) (exDesc r b)

/-- An operand that is read must hold good data (06 R164). -/
def State.goodCheck (s : State) (w : Who) (r : Fin 16) (b : TDesc) : Option Exc :=
  match s.operand w r b true false with
  | .ok l => if s.badIn w l (tBytes b) then some { exData with dreg := some r, addr := some (l.uta, 0, false) } else none
  | .error e => some e

/-- Rows of a descriptor of RANK 1 or 2. -/
def rows12 (b : TDesc) : Nat := if tRank b = 2 then tDim b 1 else 1

def rank12 (b : TDesc) : Bool := tRank b == 1 || tRank b == 2

/-- The whole bytes of an operand. -/
def State.readOp (s : State) (w : Who) (r : Fin 16) (b : TDesc) : List Byte :=
  match s.operand w r b true false with
  | .ok l => s.readLoc w l (tBytes b)
  | .error _ => []

/-- Store output bytes at an offset from the start of a descriptor's tensor. -/
def State.putAt (s : State) (o : Op) (w : Who) (r : Fin 16) (b : TDesc) (off : Nat) (bs : List Byte) (deps : List (Nat × Nat)) : State :=
  match s.locate w r b off bs.length false true with
  | .ok l => s.putOut o w l bs deps
  | .error _ => s

/-- A write that covers only part of an uncorrectable unit meets the error: ENGINE_DATA (07 R197). -/
def State.edgeErr (s : State) (w : Who) (r : Fin 16) (b : TDesc) (off n : Nat) : Option Exc :=
  match s.locate w r b off n false true with
  | .error e => some e
  | .ok l => if s.badEdge w l n then some { exData with dreg := some r, addr := some (l.uta, 0, false) } else none

/-- Store output bytes, unless the place cannot be written. -/
def State.store (s : State) (o : Op) (w : Who) (r : Fin 16) (b : TDesc) (off : Nat) (bs : List Byte) (deps : List (Nat × Nat)) :
    State × Option EngErr :=
  match s.edgeErr w r b off bs.length with
  | some e => (s, some (.exc e))
  | none => (s.putAt o w r b off bs deps, none)

/-- A place that is read holds good data: ENGINE_DATA otherwise (06 R164). -/
def State.sound (s : State) (w : Who) (r : Option (Fin 16)) (l : Loc) (n : Nat) : Option Exc :=
  if s.badIn w l n then some { exData with dreg := r, addr := some (l.uta, 0, false) } else none

/-- `n` bytes at an offset of a descriptor's tensor, checked and good. -/
def State.readAt (s : State) (w : Who) (r : Fin 16) (b : TDesc) (off n : Nat) : Except Exc (List Byte) :=
  match s.locate w r b off n true false with
  | .error e => .error e
  | .ok l => match s.sound w (some r) l n with | some e => .error e | none => .ok (s.readLoc w l n)

/-! ## Structures at UTA addresses -/

/-- `n` bytes of a structure at a UTA address, in a pinned resident tensor, free of uncorrectable units (07 R182 step 2; log 21). -/
def State.utaBytes (s : State) (w : Who) (uta n : Nat) : Except Exc (List Byte) :=
  match s.placeOf w none uta n with
  | .error e => .error e
  | .ok l => if s.badIn w l n then .error { exData with addr := some (uta, 0, false) } else .ok (s.readLoc w l n)

/-- `n` bytes at an offset of a segment, read by a unit, with their UTA address. -/
def State.segBytes (s : State) (w : Who) (seg off n : Nat) : Except Exc (List Byte) :=
  match s.inSeg w none seg off n true false with
  | .error e => .error e
  | .ok l => if s.badIn w l n then .error { exData with addr := some (l.uta, 0, false) } else .ok (s.readLoc w l n)

def ensure (ok : Bool) (e : Exc) : Except Exc Unit := if ok then .ok () else .error e

end Sys2Proof.Machine
end

