-- ==== Sys2Proof/Machine/Forms.lean ====
section
/-! DEFINITION. The parameter words and structures that decide which bytes an operation reads and writes: TOPK's word (10 R253), list
scans (10 R244-R251, R262), gathers and scatters (11 R265-R273), generation channels (12 R281-R285, R295). -/

namespace Sys2Proof.Machine

/-! ## TOPK -/

/-- The word of s[SP]: K and ASC, or none where a bit is reserved. -/
def topkWord (w : Nat) : Option (Nat × Bool) :=
  let k := bits w 0 11
  if 1 ≤ k ∧ k ≤ 1024 ∧ w - k - bits w 16 1 * 2 ^ 16 = 0 then some (k, w.testBit 16) else none

/-! ## LSCAN -/

/-! ## The parameter block (10 Table 10.3) -/

/-- A query entry. -/
structure QEnt where
  q : Nat
  col : Nat
  bias : Int

structure LParm where
  resolve : Bool
  index : Nat
  list : Nat
  qs : List QEnt

/-- Read the parameter block, or none where a rule is broken (10 R248, R262). -/
def lparmOf (bs : List Byte) : Option LParm :=
  let mode := sliceLe bs 0 1
  let nq := sliceLe bs 2 2
  let list := sliceLe bs 4 4
  let qs := (List.range nq).map fun i =>
    ({ q := sliceLe bs (64 + 8 * i) 1, col := sliceLe bs (65 + 8 * i) 3, bias := sx 32 (sliceLe bs (68 + 8 * i) 4) } : QEnt)
  if mode < 2 && sliceLe bs 1 1 < 32 && 1 ≤ nq && nq ≤ 256 && bs.length == 64 + 8 * nq && list < 2 ^ 21 && sliceLe bs 8 56 == 0
      && (mode == 1 || (decide (qs.map (·.q)).Nodup && qs.all fun e => -(2 ^ 22 : Int) ≤ e.bias && e.bias ≤ 2 ^ 22)) then
    some { resolve := mode == 1, index := sliceLe bs 1 1, list := list, qs := qs }
  else none

/-! ## The version block (10 Table 10.1) -/

structure LVer where
  nlist : Nat
  subs : Nat
  bits : Nat
  dir : Nat × Nat
  codes : Nat × Nat
  ids : Nat × Nat
  stats : Nat × Nat

/-- Read a version block, or none where a value is reserved or out of its range. -/
def lverOf (bs : List Byte) : Option LVer :=
  let c : TDesc := BitVec.ofNat 256 (sliceLe bs 0 32)
  let nl := sliceLe bs 32 4
  let d := sliceLe bs 36 2
  let sb := sliceLe bs 38 2
  let ref (o : Nat) : Nat × Nat := (bits (sliceLe bs o 8) 48 4, bits (sliceLe bs o 8) 0 48)
  if tOk c && !tArg c && tFmt c == fPn4 && tRank c == 2 && tDim c 0 == d && tDim c 1 == nl
      && 32 ≤ nl && nl ≤ 1048576 && nl % 32 == 0 && 32 ≤ d && d ≤ 2048 && d % 32 == 0 && 32 ≤ sb && sb ≤ 256 && sb % 8 == 0
      && sliceLe bs 40 1 < 2 && sliceLe bs 41 7 == 0 && ([48, 56, 64, 72].all fun o => sliceLe bs o 8 < 2 ^ 52) && sliceLe bs 88 40 == 0 then
    some { nlist := nl, subs := sb, bits := if sliceLe bs 40 1 = 0 then 4 else 2, dir := ref 48, codes := ref 56, ids := ref 64, stats := ref 72 }
  else none

/-- Bytes of a query block (10 R249). -/
def LVer.blk (v : LVer) : Nat := roundUp (64 + v.subs * 2 ^ v.bits) 64

/-! ## What a scan reads before it writes -/

/-- An LSCAN made ready: its parameters and bound version block. -/
structure LPrep where
  parm : LParm
  ver : LVer
  raw : List Byte
  count : Nat
  /-- where the list's codes lie; none for an empty list and a RESOLVE -/
  codes : Option Loc

/-- The identifiers of a list lie within their segment (10 R262). -/
def idsOk (b : CfgSet) (v : LVer) (start count : Nat) : Bool :=
  let e := csSeg b v.ids.1
  count == 0 || (segV e && v.ids.2 + 5 * (start + count) ≤ segLimit e)

/-- Read the parameter block, the bound version block, and, for a SCAN, the directory entry, with the checks of its operands and of
the list's codes, identifiers and scan-time counter (10 R244-R251, R262). A breach by dC or dB names that register. -/
def lscanPrep (s : State) (w : Who) (o : Op) : Except Exc LPrep := do
  checks [need (o.den && o.sp == 0) exReserved, descCheck o.rC o.dC, descCheck o.rD o.dD,
    need (tFmt o.dD == fRaw8) (exDesc o.rD o.dD), s.goodCheck w o.rD o.dD]
  let pAddr := s.utaOf o o.dD 0
  match lparmOf (s.readOp w o.rD o.dD) with
  | none => .error (exStruct pAddr)
  | some parm =>
    match (s.job? o.job).bind fun j => j.idx.find? (·.1 == parm.index) with
    | none => .error (exStruct pAddr)
    | some (_, slot) =>
      let vAddr := csIndexRoot ((s.P o.ptn).cset o.cfg) + 256 * parm.index + 128 * slot.toNat
      let raw ← s.utaBytes w vAddr 128
      match lverOf raw with
      | none => .error (exStruct vAddr)
      | some ver =>
        if parm.resolve then
          checks [need (tFmt o.dC == fRaw8 && 128 ≤ tDim o.dC 0) (exDesc o.rC o.dC), errOf (s.operand w o.rC o.dC false true)]
          return { parm := parm, ver := ver, raw := raw, count := 0, codes := none }
        else
          checks [need (parm.list < ver.nlist) (exStruct pAddr), descCheck o.rA o.dA, descCheck o.rB o.dB,
            need (tFmt o.dB == fRaw8) (exDesc o.rB o.dB), need (tFmt o.dC == fAcc24 && tRank o.dC == 2) (exDesc o.rC o.dC),
            errOf (s.operand w o.rA o.dA true false), errOf (s.operand w o.rB o.dB true false),
            errOf (s.operand w o.rC o.dC false true)]
          let ent ← s.segBytes w ver.dir.1 (ver.dir.2 + 16 * parm.list) 16
          let count := sliceLe ent 12 4
          let dirAt := segBase (csSeg ((s.P o.ptn).cset o.cfg) ver.dir.1) + ver.dir.2 + 16 * parm.list
          ensure (sliceLe ent 11 1 == 0 && count ≤ 2 ^ 31) (exStruct dirAt)
          let region := divUp count 32
          ensure (parm.qs.all fun e => e.q < tDim o.dC 1 && (e.col + region) * 32 ≤ tDim o.dC 0 && (e.q + 1) * ver.blk ≤ tBytes o.dB)
            (exStruct pAddr)
          let at_ := ver.codes.2 + sliceLe ent 0 6
          let codes ← if count = 0 then pure none else (s.inSeg w none ver.codes.1 at_ (count * (ver.subs * ver.bits / 8)) true false).map some
          ensure (idsOk ((s.P o.ptn).cset o.cfg) ver (sliceLe ent 6 5) count)
            (exSeg none ver.ids.1 (ver.ids.2 + 5 * sliceLe ent 6 5))
          let cUta := segBase (csSeg ((s.P o.ptn).cset o.cfg) ver.codes.1) + ver.codes.2
          -- dA names the tensor that holds the code area
          ensure (match s.operand w o.rA o.dA true false with
            | .ok (.mem _ b) => ((s.P o.ptn).tensorAt cUta).any fun t => t.base == b
            | _ => false) (exDesc o.rA o.dA)
          let _ ← s.inSeg w none ver.stats.1 (ver.stats.2 + 4 * parm.list) 4 true true
          return { parm := parm, ver := ver, raw := raw, count := count, codes := codes }

/-! ## Tables -/

/-- The gather control word (11 Table 11.2). -/
structure GatWord where
  table : Nat
  bound : Bool
  strict : Bool

def gatWord (scat : Bool) (w : Nat) : Option GatWord :=
  if w < 256 ∧ !(scat ∧ w.testBit 6) ∧ (w.testBit 6 ∨ bits w 0 6 = 0) then some { table := bits w 0 6, bound := w.testBit 6, strict := w.testBit 7 }
  else none

/-- Elements of one table row: for RANK 1, each element is a row (11 R266). -/
def tblW (b : TDesc) : Nat := if tRank b = 1 then 1 else tDim b 0
def tblRows (b : TDesc) : Nat := if tRank b = 1 then tDim b 0 else tRows b
def tblRowBytes (b : TDesc) : Nat := if tRank b = 1 then blkBytes (tFmt b) else rowBytes (tFmt b) (tDim b 0)

/-- The rules a table's descriptor must meet, whichever way it is named (11 R266). -/
def tblOk (b : TDesc) : Bool :=
  tOk b && tblRows b ≤ 2 ^ 34 && tblRowBytes b ≤ 65536 && (blkElems (tFmt b) == 1 || 2 ≤ tRank b)

/-- SLICE of a version block, or none where a value is reserved or a rule of 11 R266 is broken. -/
def sliceOf (bs : List Byte) : Option TDesc :=
  let b : TDesc := BitVec.ofNat 256 (sliceLe bs 0 32)
  let m := sliceLe bs 32 1
  let c0 := sliceLe bs 36 4
  let d := sliceLe bs 40 4
  if tblOk b && 1 ≤ m && m ≤ 64 && sliceLe bs 33 1 < m && sliceLe bs 34 2 == 0 && c0 < 2 ^ 18 && 1 ≤ d && d ≤ 262144
      && sliceLe bs 44 4 == 0 && sliceLe bs 56 8 == 0 && c0 % blkElems (tFmt b) == 0 && c0 + tblW b ≤ d then some b
  else none

/-! ## What an operation reads before its rows -/

/-- A gather or scatter made ready: the register and descriptor of the table, and its control word. -/
structure GPrep where
  r : Fin 16
  tbl : TDesc
  word : GatWord

/-- A descriptor has the table's format and row width and at least `n` rows (11 R269, R273). -/
def rowsLike (t b : TDesc) (n : Nat) : Bool :=
  tFmt b == tFmt t && ((tRank b == 2 && tDim b 0 == tblW t && n ≤ tDim b 1) || (tRank b == 1 && tRank t == 1 && n ≤ tDim b 0))

/-- The base of the tensor that an operand lies in. -/
def locBase (x : Except Exc Loc) : Option Nat := match x with | .ok (.mem _ b) => some b | _ => none

/-- The checks of GATH and SCAT, and the table they use (11 R265-R269, R273). -/
def gatPrep (s : State) (w : Who) (o : Op) : Except Exc GPrep := do
  let scat := o.mn == .scat
  checks [descCheck o.rA o.dA, descCheck o.rB o.dB, descCheck o.rC o.dC,
    need (tRank o.dB == 1 && (tFmt o.dB == fU32 || tFmt o.dB == fPid5 || tFmt o.dB == fPid8)) (exDesc o.rB o.dB)]
  match gatWord scat o.sp.toNat with
  | none => .error exReserved
  | some g =>
    let n := tDim o.dB 0
    let p : GPrep ←
      if g.bound then
        match (s.job? o.job).bind fun j => j.tbl.find? (·.1 == g.table) with
        | none => .error exReserved
        | some (_, slot) => do
          let vAddr := csTableRoot ((s.P o.ptn).cset o.cfg) + 128 * g.table + 64 * slot.toNat
          let raw ← s.utaBytes w vAddr 64
          match sliceOf raw with
          | none => .error (exStruct vAddr)
          | some b =>
            checks [errOf (s.operand w o.rA o.dA true false), errOf (s.operand w o.rA b true false),
              need (locBase (s.operand w o.rA o.dA true false) == locBase (s.operand w o.rA b true false)) (exDesc o.rA o.dA)]
            pure { r := o.rA, tbl := b, word := g }
      else if scat then pure { r := o.rC, tbl := o.dC, word := g }
      else pure { r := o.rA, tbl := o.dA, word := g }
    checks [need (tblOk p.tbl) (exDesc p.r p.tbl),
      need (if scat then rowsLike p.tbl o.dA n else rowsLike p.tbl o.dC n) (if scat then exDesc o.rA o.dA else exDesc o.rC o.dC),
      errOf (s.operand w o.rA o.dA true false), errOf (s.operand w o.rB o.dB true false), errOf (s.operand w o.rC o.dC false true),
      s.goodCheck w o.rB o.dB]
    return p

/-! ## Indices (11 R270; 02 Table 2.3) -/

inductive Ix where
  | row (r : Nat)
  | null
  | range
  | reserved

def ixOf (f rows x : Nat) : Ix :=
  let nul := if f = fU32 then 2 ^ 32 - 1 else 2 ^ 40 - 1
  if 2 ^ 40 ≤ x then .reserved else if x = nul then .null else if rows ≤ x then .range else .row x

/-! ## Generation channels -/

/-- The page stride (12 R282). -/
def kvStride (row nreg : Nat) : Nat := roundUp (nreg * 64 * row) 4096

/-! ## The channel word and block (12 Tables 12.1, 12.3) -/

structure KvWord where
  chan : Nat
  func : Nat
  arg : Nat
  mode : Nat
  adaptEn : Bool
  adapter : Nat
  trim : Bool

def kvWord (w : Nat) : Option KvWord :=
  let f := bits w 12 3
  let m := bits w 34 2
  if w < 2 ^ 50 ∧ f ≤ 5 ∧ ¬(f = 0 ∧ m = 3) then
    some { chan := bits w 0 12, func := f, arg := bits w 15 19, mode := m, adaptEn := w.testBit 36, adapter := bits w 37 12
           trim := w.testBit 49 }
  else none

/-- The byte of the pool tensor at which a position's row lies (12 R283). -/
def kvRowAt (c : Chan) (row nreg g x : Nat) : Nat :=
  c.pages.getD (x / 64) 0 * kvStride row nreg + g * 64 * row + x % 64 * row

/-- An open channel of a partition. -/
def State.chan? (s : State) (p : Fin 16) (n : Nat) : Option Chan :=
  (s.chans.find? fun c => c.1 == n && c.2.ptn == p).map (·.2)

end Sys2Proof.Machine
end

