-- ==== Sys2Proof/Machine/Overlap.lean ====
section
/-! DEFINITION. Which bytes an operation writes, and what it sees of bytes that another writes while it is incomplete: undefined output
(06 R162; 10 R260; 12 R302), or the contents of either writer (09 R232; 10 R247, R252; 11 R267, R276; 13 R320). -/

namespace Sys2Proof.Machine

/-! ## What an operation writes -/

/-- One index of a GATH or SCAT, at position `i` of dB. -/
def State.gatIxAt (s : State) (w : Who) (o : Op) (t : TDesc) (i : Nat) : Ix :=
  let cb := blkBytes (tFmt o.dB)
  ixOf (tFmt o.dB) (tblRows t) (match s.locate w o.rB o.dB (cb * i) cb true false with | .ok l => ofLe (s.readLoc w l cb) | .error _ => 0)

/-- The rows of the table that a SCAT names, with the bytes of dA that go there. -/
def State.scatRows (s : State) (o : Op) : List (Nat × List Byte) :=
  let w := o.who 4
  match gatPrep s w o with
  | .error _ => []
  | .ok p =>
    let rb := tblRowBytes p.tbl
    (List.range (tDim o.dB 0)).filterMap fun i =>
      match s.gatIxAt w o p.tbl i with
      | .row r => match s.locate w o.rC o.dC (rb * r) rb false true, s.locate w o.rA o.dA (rb * i) rb true false with
        | .ok (.mem u _), .ok l => some (u, s.readLoc w l rb)
        | _, _ => none
      | _ => none

/-- The pages of a channel within the pool tensor that a COMPACT names as dA. -/
def State.compactPages (s : State) (o : Op) (chan : Nat) : List (Nat × Nat) :=
  let st := kvStride (s.P o.ptn).kvRow.toNat (s.P o.ptn).kvNreg.toNat
  match s.chan? o.ptn chan with
  | some c => c.pages.flatMap fun p => s.rangeAt o o.dA (p * st) st
  | none => []

/-- The UTA ranges that an operation writes. -/
def State.opWrites (s : State) (o : Op) : List (Nat × Nat) :=
  let rows (n stride len : Nat) : List (Nat × Nat) := (List.range n).flatMap fun r => s.rangeAt o o.dC (stride * r) len
  match o.mn with
  | .xmul | .mvmul | .mconv | .ttok | .hrd | .gath => s.rangeAt o o.dC 0 (tBytes o.dC)
  | .topk => rows (rows12 o.dA) (4 * tDim o.dC 0) (match topkWord o.sp.toNat with | some (k, _) => 4 * k | none => 0)
  | .samp => rows (tDim o.dA 1) (4 * tDim o.dC 0) 16
  | .lscan => match lscanPrep s (o.who 3) o with
    | .error _ => []
    | .ok p =>
      if p.parm.resolve then s.rangeAt o o.dC 0 128
      else p.parm.qs.flatMap fun e => s.rangeAt o o.dC (e.q * rowBytes fAcc24 (tDim o.dC 0) + 128 * e.col) (128 * divUp p.count 32)
  | .scat => (s.scatRows o).map fun e => (e.1, e.2.length)
  | .kvcmp => match kvWord o.sp.toNat with
    | none => []
    | some k => s.rangeAt o o.dB 0 (if k.func = 4 then tBytes o.dB else 64) ++ (if k.func = 3 then s.compactPages o k.chan else [])
  | .tdtk | .hwr | .rsend => []
  | .rrecv | .rreduce => s.rangeAt o o.dA 0 (tBytes o.dA)

/-- The other operations of a partition that have started and are incomplete. -/
def State.others (s : State) (o : Op) : List Op := s.ops.filter fun x => x.ptn == o.ptn && x.id != o.id && x.started

/-- What a conductor of a partition cannot yet read: what its running operations write, and the rows of a channel under COMPACT (12
R302). Which of it they have written is not stated (log 55). -/
def State.unsettled (s : State) (p : Fin 16) : List (Nat × Nat) := (s.ops.filter fun x => x.ptn == p && x.started).flatMap s.opWrites

/-! ## What it sees -/

/-- Both are gathers or scatters, whose common rows hold the data of either (11 R276). -/
def eitherRows (o x : Op) : Bool := (o.mn == .gath || o.mn == .scat) && x.mn == .scat

/-- What was overwritten since an operation was issued and leaves its output undefined: for a table operation, what no SCAT wrote. -/
def Op.spoilt (o : Op) : List Nat :=
  (o.stale.filter fun e => !(e.2.2 && (o.mn == .gath || o.mn == .scat))).map (·.1)

/-- The asker of an operation, with the ranges that other writes have unsettled. Rows that two table operations share are left out:
they hold either's data (11 R276). An operation's own output counts against its inputs (06 R162), but a COMPACT moves rows within its pool,
a SCAT writes its table alone, and an RREDUCE combines in place. -/
def State.asker (s : State) (o : Op) (unit : Nat) : Who :=
  let st := o.spoilt.map fun a => (a, 1)
  let ow := ((s.others o).filter fun x => !eitherRows o x).flatMap s.opWrites
  let own := if o.mn = .kvcmp ∨ o.mn = .scat ∨ o.mn = .rreduce then [] else s.opWrites o
  { o.who unit with bad := st ++ ow ++ own, clash := st ++ ow }

/-- The addresses that two ranges share. -/
def common (a b : Nat × Nat) : List Nat :=
  (List.range (min (a.1 + a.2) (b.1 + b.2) - max a.1 b.1)).map (max a.1 b.1 + ·)

/-- The bytes of a range that an operation may see as either writer left them, each chosen freely: what it held before an overwriting,
what it holds, what a running SCAT is to put there; or anything, under another running operation's output. -/
def State.either (s : State) (o : Op) (w : Who) (vr : List (Nat × Nat)) (rows : List (Nat × List Byte)) : State × List (Nat × Byte) :=
  let inVr (a : Nat) : Bool := vr.any fun r => r.1 ≤ a && a < r.1 + r.2
  let oth := ((s.others o).filter fun x => !eitherRows o x).flatMap s.opWrites
  let wild := oth.flatMap fun a => vr.flatMap (common a)
  let addrs := (((o.stale.map (·.1)) ++ rows.flatMap fun e => (List.range e.2.length).map (e.1 + ·)).filter inVr ++ wild).dedup
  let cands (a : Nat) : List Byte :=
    sget 0 (s.P w.ptn).mem a :: (o.stale.filter (·.1 == a)).map (·.2.1) ++ rows.filterMap fun e => if e.1 ≤ a then e.2[a - e.1]? else none
  ({ s with free := s.free + addrs.length },
   ((List.range addrs.length).zip addrs).map fun e =>
     (e.2, if wild.contains e.2 then s.freeByteAt e.1 else (cands e.2).getD (Config.freeNat (s.free + e.1) % (cands e.2).length) 0))

/-- The asker of an operation that sees either contents of the ranges `vr`; what it reads there counts against none of its output. -/
def State.chooser (s : State) (o : Op) (unit : Nat) (vr : List (Nat × Nat)) : State × Who :=
  let w := s.asker o unit
  let r := s.either o w vr (((s.others o).filter (eitherRows o)).flatMap s.scatRows)
  (r.1, { w with view := r.2 })

end Sys2Proof.Machine
end

