-- ==== Sys2Proof/Machine/Finish.lean ====
section
/-! DEFINITION. The measured use of shared engines (04 R94), and the time an operation has run. -/

namespace Sys2Proof.Machine

/-- The CCLK cycles since an operation started. -/
def State.opCycles (s : State) (o : Op) : Nat := (s.clk.cyc10 - o.startCyc) / 10

/-- The kinds shared between partitions (04 R94). -/
def shared (k : QKind) : Bool := match k with | .lse | .gse | .smu | .txu => true | _ => false

/-- The counter of busy CCLK of a kind (10 R264, 11 R280). -/
def busyCtr : QKind → Option Ctr
  | .lse => some .lseBusy | .gse => some .gseBusy | _ => none

/-- An operation leaves its unit, done, suspended, failed or stopped: its time there is measured use (04 R94) and its engine's
busy time. -/
def State.charge (s : State) (o : Op) : State :=
  if shared o.k && o.run.isSome then
    let s := match busyCtr o.k with | some k => s.bumpK o.ptn k ((s.clk.cyc10 - o.sliceCyc) / 10) | none => s
    s.noteUse (resEngine o.k) o.ptn (s.clk.cyc10 - o.sliceCyc)
  else s

end Sys2Proof.Machine
end

