-- ==== Sys2Proof/Machine/Matrix.lean ====
section
/-! DEFINITION. XMUL and MVMUL (06 R146-R166), and TOPK (10 R253, R254). The work of an operation is a run of units in the order of the
spec; `cut` ends it after so many of them (06 R163, 10 R261), and without it the work runs to its end or its first error. -/

namespace Sys2Proof.Machine

/-! ## Operands -/

/-- The input and the weight operand: dA and dB of XMUL, dB and dA of MVMUL. -/
def matIn (o : Op) : Fin 16 × TDesc × CbSet := if o.mn = .mvmul then (o.rB, o.dB, o.cb 1) else (o.rA, o.dA, o.cb 0)
def matW (o : Op) : Fin 16 × TDesc × CbSet := if o.mn = .mvmul then (o.rA, o.dA, o.cb 0) else (o.rB, o.dB, o.cb 1)

/-- The format pairs of 06 Table 6.1 and R154. -/
def pairOk (mv : Bool) (fi fw : Nat) : Bool :=
  if mv then (fi == 1 || fi == 3) && (fw == 1 || fw == 3)
  else (fi == 1 && fw == 1) || (fi == 2 && fw == 2) || (fi == 3 && fw == 1) || ((fi == 1 || fi == 3) && fw == 3)

/-- Blocks in a K chunk: 128 elements, 256 for PN2 (06 Table 6.1). -/
def chunkBlks (_fi : Nat) : Nat := 4

/-- The plane load L in CCLK, and the cycles per input vector (06 Table 6.1). -/
def planeLoad (fw : Nat) : Nat := if fw = 3 then 66 else 34
def vecCycles (fi fw : Nat) : Nat := if fi = 3 ∨ fw = 3 then 4 else 1

/-- The checks of the shapes and formats (06 R146-R148, R154, R160), each naming the register at fault: a rule that ties the weights to the
input names dB, one that ties the output to them dC (log 56). A bad control word names none. -/
def matChecks (o : Op) : List (Option Exc) :=
  let mv := o.mn == .mvmul
  let (ri, i, _) := matIn o
  let (rw, w, _) := matW o
  let f := tFmt o.dC
  let fmtIn (b : TDesc) : Bool := (List.range 4).any fun g => pairOk mv (tFmt b) g
  let fmtW (b : TDesc) : Bool := (List.range 4).any fun g => pairOk mv g (tFmt b)
  [need (fmtIn i && rank12 i && tDim i 0 ≤ 2 ^ 24 && (!mv || rows12 i ≤ 256)) (exDesc ri i),
   need (fmtW w && tRank w == 2 && tDim w 1 % 32 == 0 && tDim w 0 ≤ 2 ^ 24 && tDim w 1 ≤ 2 ^ 24) (exDesc rw w),
   need (pairOk mv (tFmt i) (tFmt w) && tDim w 0 == tDim i 0) (exDesc o.rB o.dB),
   need (tRank o.dC == tRank i && tDim o.dC 0 == tDim w 1 && rows12 o.dC == rows12 i && (f == fAcc24 || (!o.accum && (f == 1 || f == 2 || f == 3))))
     (exDesc o.rC o.dC),
   need (if f = fAcc24 then o.sp == 0 else (match ccwOf o.sp.toNat with | some w => w.source == 3 && w.target == f | none => false)) exReserved]

/-- The checks of XMUL and MVMUL when they start, and the codebook snapshots. -/
def matStart (s : State) (o : Op) : Except Exc (List (List Byte)) := do
  let w := o.who (engOfKind o.k)
  checks ([descCheck o.rA o.dA, descCheck o.rB o.dB, descCheck o.rC o.dC] ++ matChecks o ++
    [errOf (s.operand w o.rA o.dA true false), errOf (s.operand w o.rB o.dB true false), errOf (s.operand w o.rC o.dC o.accum true)])
  let a ← s.snapCb w o.rA o.dA
  let b ← s.snapCb w o.rB o.dB
  let c ← s.snapCb w o.rC o.dC
  return [a, b, c]

/-! ## The arithmetic (06 R149) -/

/-- The chunk terms of an output: block sums with their exponents. -/
def chunkTerms (a w : List Blk) : List (Int × Int) :=
  (a.zip w).map fun p => (((p.1.v.zip p.2.v).map fun e => e.1 * e.2).sum, p.1.e + p.2.e)

/-- Split a list into pieces of `n`. -/
def pieces {α : Type} (n : Nat) : Nat → List α → List (List α)
  | 0, _ => []
  | fuel + 1, l => if l.isEmpty then [] else l.take n :: pieces n fuel (l.drop n)

/-- One output element: chunks in ascending K order into the accumulator. -/
def dotAcc (per : Nat) (a w : List Blk) (init : Acc) : Acc :=
  (pieces per a.length (chunkTerms a w)).foldl (fun acc ch => let t := chunkSum ch; acc.add t.1 t.2) init

/-- What a run of units has done: the state, the first error, and the units still allowed. -/
structure Run where
  st : State
  err : Option EngErr
  left : Option Nat

/-- Do one unit, unless the run has failed or its allowance is used. -/
def Run.unit (x : Run) (f : State → State × Option EngErr) : Run :=
  if x.err.isSome ∨ x.left = some 0 then x
  else
    let r := f x.st
    { st := r.1, err := r.2, left := x.left.map (· - 1) }

/-- Do the units of a list in order. -/
def Run.each {α : Type} (x : Run) (l : List α) (f : α → State → State × Option EngErr) : Run := l.foldl (fun x a => x.unit (f a)) x

/-- The state and the failure of a run; one that was cut short has no failure of its own. -/
def Run.result (x : Run) : State × Option EngErr := (x.st, if x.left.isSome then none else x.err)

/-- The failure that a block makes: JOB_DATA cause 3, or DESC_RESERVED of the structure at its address (02 R48; 00 R10). -/
def blkFail (e : BlkErr) (uta : Nat) : EngErr := match e with | .absent => .data 3 uta | .reserved => .exc (exStruct uta)

/-- Block `b` of row `r` of an operand with `per` blocks a row. -/
def State.blkAt (s : State) (o : Op) (w : Who) (i : Fin 16 × TDesc × CbSet) (per r b : Nat) : Except EngErr Blk :=
  let f := tFmt i.2.1
  let off := (r * per + b) * blkBytes f
  match s.readAt w i.1 i.2.1 off (blkBytes f) with
  | .error e => .error (.exc e)
  | .ok bs => match readBlk f i.2.2 bs with
    | .error e => .error (blkFail e (s.utaOf o i.2.1 off))
    | .ok x => .ok x

/-- The initial accumulators of the columns of a block of one output row (06 R148). -/
def State.initAt (s : State) (o : Op) (w : Who) (r b : Nat) : Except EngErr (List Acc) :=
  if o.accum then
    let off := r * rowBytes fAcc24 (tDim o.dC 0) + 128 * b
    match s.readAt w o.rC o.dC off 128 with
    | .error e => .error (.exc e)
    | .ok bs => match readAcc bs with
      | .error e => .error (blkFail e (s.utaOf o o.dC off))
      | .ok a => .ok a
  else .ok (List.replicate 32 accZero)

/-- The output of one block of 32 columns: accumulators stored raw, or converted (06 R147), with the saturations of each; none where the
conversion has no selector (02 R48). -/
structure Piece where
  bytes : List Byte
  accSat : Nat
  cvtSat : Nat

def outPiece (o : Op) (per : Nat) (a : List Blk) (ws : List (List Blk)) (init : List Acc) : Option Piece :=
  let accs := (ws.zip init).map fun p => (dotAcc per a p.1 { p.2 with sat := false }, p.2.sat)
  let n := (accs.filter fun p => p.1.sat).length
  if tFmt o.dC = fAcc24 then
    some { bytes := storeAcc (accs.map fun p => { p.1 with sat := p.1.sat || p.2 }), accSat := n, cvtSat := 0 }
  else
    (ccwOf o.sp.toNat).bind fun w =>
      if w.absent (o.cb 2) then none
      else
        let c := convert w (o.cb 2) (accs.map fun p => accNum p.1)
        some { bytes := c.bytes, accSat := n, cvtSat := c.sats }

/-- A tile of the output: its rows, its columns in blocks of 32, and the cycles an XMUL spends on it: vectors entering, and the first
plane's stall (06 R151, R154). -/
structure Tile where
  rows : List Nat
  blks : List Nat
  busy : Nat
  stall : Nat

/-- The first block of a tile's operands that cannot be read: initial accumulators, then, plane by plane, weights before inputs (02
R48; 06 R148, R151). -/
def tileErr (s : State) (o : Op) (w : Who) (kb : Nat) (t : Tile) : Option EngErr :=
  let per := chunkBlks (tFmt (matIn o).2.1)
  let cols := t.blks.flatMap fun b => (List.range 32).map (32 * b + ·)
  let bad {α : Type} (x : Except EngErr α) : Option EngErr := match x with | .ok _ => none | .error e => some e
  let any (i : Fin 16 × TDesc × CbSet) (l : List Nat) (c : Nat) : Option EngErr :=
    l.findSome? fun r => (List.range (min per (kb - per * c))).findSome? fun b => bad (s.blkAt o w i kb r (per * c + b))
  (t.rows.findSome? fun r => t.blks.findSome? fun b => bad (s.initAt o w r b)).or
    ((List.range (divUp kb per)).findSome? fun c => (any (matW o) cols c).or (any (matIn o) t.rows c))

/-- Store the blocks of one row of a tile. -/
def storeRow (s0 : State) (o : Op) (w : Who) (kb : Nat) (t : Tile) (r : Nat) (s : State) : State × Option EngErr :=
  let got {α : Type} (d : α) (x : Except EngErr α) : α := match x with | .ok a => a | .error _ => d
  let blk (i : Fin 16 × TDesc × CbSet) (r : Nat) : List Blk :=
    (List.range kb).map fun b => got { e := 0, v := [] } (s0.blkAt o w i kb r b)
  let i := matIn o
  let q := matW o
  let inB := kb * blkBytes (tFmt i.2.1)
  let wB := kb * blkBytes (tFmt q.2.1)
  let bb := blkBytes (tFmt o.dC)
  let at_ (b : Nat) : Nat := r * rowBytes (tFmt o.dC) (tDim o.dC 0) + b * bb
  match s.edgeErr w o.rC o.dC (at_ (t.blks.headD 0)) (bb * t.blks.length) with
  | some e => (s, some (.exc e))
  | none =>
    t.blks.foldl (fun (x : State × Option EngErr) b =>
      if x.2.isSome then x
      else
        match outPiece o (chunkBlks (tFmt i.2.1)) (blk i r) ((List.range 32).map fun n => blk q (32 * b + n)) (got [] (s0.initAt o w r b)) with
        | none => (x.1, some (.data 3 (s0.utaOf o o.dC (at_ b))))
        | some p =>
          let dep := s0.rangeAt o i.2.1 (r * inB) inB ++ s0.rangeAt o q.2.1 (32 * b * wB) (32 * wB)
          -- an accumulator that another wrote is an input too
          let acc := if o.accum then (s0.rangeAt o o.dC (at_ b) p.bytes.length).filter fun d => w.clash.any (meets d) else []
          (((x.1.putAt o w o.rC o.dC (at_ b) p.bytes (dep ++ acc)).bump o.ptn .accSat p.accSat).bump o.ptn .cvtSat p.cvtSat, none)) (s, none)

/-- The tiles of an XMUL in the order of 06 R151, with the cycles of their planes (R152, R153, Table 6.2): a plane stalls for what of
its load the plane before it did not hide, the first for what an earlier XMUL did not. -/
def xmulTiles (o : Op) : List Tile :=
  let m := rows12 o.dA
  let nb := tDim o.dB 1 / 32
  let c := divUp (tDim o.dA 0) (chunkBlks (tFmt o.dA) * blkElems (tFmt o.dA))
  let l := planeLoad (tFmt o.dB)
  (List.range (divUp m 256)).flatMap fun g =>
    let rows := (List.range (min 256 (m - 256 * g))).map (256 * g + ·)
    let cyc := rows.length * vecCycles (tFmt o.dA) (tFmt o.dB)
    (List.range (divUp nb 4)).map fun t =>
      -- the plane before a tile's first is of this group, or, before the group's first tile, of the full group before it
      let before := if 0 < t then l - cyc else if 0 < g then l - 256 * vecCycles (tFmt o.dA) (tFmt o.dB) else l - o.hid
      { rows := rows, blks := (List.range (min 4 (nb - 4 * t))).map (4 * t + ·), busy := c * cyc, stall := before + (c - 1) * (l - cyc) }

/-- The tiles of an MVMUL: passes of up to eight rows, each weight row in turn completing its column (06 R154), and the cycles of a
pass's share. -/
def mvmulTiles (o : Op) : List Tile :=
  let m := rows12 o.dB
  let nb := tDim o.dA 1 / 32
  (List.range (divUp m 8)).flatMap fun q => (List.range nb).map fun b =>
    { rows := (List.range (min 8 (m - 8 * q))).map (8 * q + ·), blks := [b]
      busy := 0, stall := 0 }

/-- The work of XMUL and MVMUL: tile by tile, the operands are read, then the rows stored (06 R149-R154; 02 R48, R53). A unit is one row
of a tile. -/
def matWork (o : Op) (s : State) (cut : Option Nat) : State × Option EngErr :=
  let w := s.asker o (engOfKind o.k)
  let i := matIn o
  let kb := tDim i.2.1 0 / blkElems (tFmt i.2.1)
  let mv := o.mn == .mvmul
  let x := (if mv then mvmulTiles o else xmulTiles o).foldl (fun (x : Run) t =>
    if x.err.isSome ∨ x.left = some 0 then x
    else match tileErr x.st o w kb t with
      | some e => { x with err := some e }
      | none =>
        let st := if mv then x.st else (x.st.bumpK o.ptn .mxaBusy t.busy).bumpK o.ptn .mxaStall t.stall
        ({ x with st := st } : Run).each t.rows (storeRow x.st o w kb t)) ({ st := s, err := none, left := cut } : Run)
  x.result

/-- What an XMUL hides of the next one's first plane load: its last plane, its drain and its store (06 Table 6.2, R153). -/
def xmulHides (o : Op) : Nat :=
  let m := rows12 o.dA
  let g := m - 256 * ((m - 1) / 256)
  g * vecCycles (tFmt o.dA) (tFmt o.dB) + (if vecCycles (tFmt o.dA) (tFmt o.dB) = 4 then 8 else 5) + g

/-- The queued XMUL behind one that completes loads its first plane meanwhile, from its issue on (06 Table 6.2). -/
def State.hideNext (s : State) (o : Op) : State :=
  match s.ops.find? fun x => x.c == o.c && x.mn == .xmul && x.id != o.id && !x.started with
  | some n => s.modOp n.id fun n =>
      { n with hid := min (planeLoad (tFmt n.dB)) (min (xmulHides o) ((s.clk.cyc10 - n.issued) / 10)) }
  | none => s

/-- XMUL's work, whole or cut short. -/
def xmulWork (o : Op) (s : State) (cut : Option Nat) : State × Option EngErr :=
  let r := matWork o s cut
  if cut.isNone ∧ r.2.isNone then (r.1.hideNext o, none) else r

/-- MVMUL's work; the path is busy for the weights of its passes, or, ended early, since it started (06 R155, R166; log 19). -/
def mvmulWork (o : Op) (s : State) (cut : Option Nat) : State × Option EngErr :=
  let r := matWork o s cut
  let all := divUp (rows12 o.dB) 8 * divUp (tDim o.dA 1 * tDim o.dA 0) (if tFmt o.dA = 1 then 512 else 256)
  (r.1.bumpK o.ptn .mvpBusy (if cut.isNone ∧ r.2.isNone then all else min all ((s.clk.cyc10 - o.startCyc) / 10)), r.2)

/-! ## TOPK (10 R253, R254) -/

def keyFmt (f : Nat) : Bool := f == 1 || f == 3 || f == 4 || f == 5 || f == 6

/-- The checks of TOPK when it starts, and its codebook snapshot. -/
def topkStart (s : State) (o : Op) : Except Exc (List (List Byte)) := do
  let w := o.who 2
  checks [descCheck o.rA o.dA, descCheck o.rC o.dC, need (keyFmt (tFmt o.dA) && rank12 o.dA) (exDesc o.rA o.dA),
    need (topkWord o.sp.toNat).isSome exReserved,
    need (tFmt o.dC == fU32 && rank12 o.dC && rows12 o.dC == rows12 o.dA && (topkWord o.sp.toNat).all (·.1 ≤ tDim o.dC 0)) (exDesc o.rC o.dC),
    errOf (s.operand w o.rA o.dA true false), errOf (s.operand w o.rC o.dC false true)]
  let a ← s.snapCb w o.rA o.dA
  return [a, [], []]

/-- The accumulators of a row of ACC24 blocks, or the block at fault. -/
def accRow (bs : List Byte) (blocks : Nat) : Except Nat (List Acc) :=
  (List.range blocks).foldl (fun acc i => match acc with
    | .error e => .error e
    | .ok l => match readAcc ((bs.drop (128 * i)).take 128) with
      | .error _ => .error i
      | .ok a => .ok (l ++ a)) (.ok [])

/-- The keys of one row as exact values in units of 2^−149, or the block that cannot be read: its offset in the row (10 R253). -/
def rowKeys (f : Nat) (cb : CbSet) (bs : List Byte) (n : Nat) : Except (Nat × BlkErr) (List Int) :=
  if f = fU32 then .ok ((List.range n).map fun i => (sliceLe bs (4 * i) 4 : Int))
  else if f = fLq12 then
    match (List.range n).find? fun i => 4096 ≤ sliceLe bs (2 * i) 2 with
    | some i => .error (2 * i, .reserved)
    | none => .ok ((List.range n).map fun i => -(sliceLe bs (2 * i) 2 : Int))
  else if f = fAcc24 then
    match accRow bs (n / 32) with
    | .error b => .error (128 * b, .reserved)
    | .ok l => .ok (l.map fun x => x.a * 2 ^ (x.f + 149).toNat)
  else
    match readBlks f cb bs (n / 32) 0 with
    | .error e => .error (e.1 * blkBytes f, e.2)
    | .ok l => .ok (l.flatMap fun b => b.v.map fun v => v * 2 ^ (b.e + 149).toNat)

/-- The selection of a row: indices in selection order, and how many keys entered the tree (10 R253, R254). A key enters when the
tree holds fewer than K or it beats the K-th best; equal keys go to the lower index first. -/
def selectRow (k : Nat) (asc : Bool) (keys : List Int) : List Nat × Nat :=
  let beats (a b : Int × Nat) : Bool := if asc then a.1 < b.1 else b.1 < a.1
  -- best first; an equal key stays behind the earlier one
  let put (x : Int × Nat) (l : List (Int × Nat)) := insSorted (fun a b => !beats b a) x l
  let r := (keys.zip (List.range keys.length)).foldl (fun (acc : List (Int × Nat) × Nat) x =>
    if acc.1.length < k then (put x acc.1, acc.2 + 1)
    else match acc.1.getLast? with
      | some last => if beats x last then ((put x acc.1).take k, acc.2 + 1) else acc
      | none => acc) ([], 0)
  (r.1.map (·.2), r.2)

/-- The work of TOPK: each row's indices are written, up to the first key that cannot be read. A unit is one row. -/
def topkWork (o : Op) (s : State) (cut : Option Nat) : State × Option EngErr :=
  let w := s.asker o 2
  match topkWord o.sp.toNat with
  | none => (s, some (.exc (exDesc o.rA o.dA)))
  | some (k, asc) =>
    let n := tDim o.dA 0
    let rb := rowBytes (tFmt o.dA) n
    (({ st := s, err := none, left := cut } : Run).each (List.range (rows12 o.dA)) fun r s =>
      match s.readAt w o.rA o.dA (r * rb) rb with
      | .error e => (s, some (.exc e))
      | .ok bs => match rowKeys (tFmt o.dA) (o.cb 0) bs n with
        | .error e => (s, some (blkFail e.2 (s.utaOf o o.dA (r * rb + e.1))))
        | .ok keys =>
          let sel := selectRow k asc keys
          let out := (sel.1 ++ List.replicate (k - sel.1.length) 0xFFFFFFFF).flatMap (leBytes 4)
          let t := s.store o w o.rC o.dC (4 * tDim o.dC 0 * r) out (s.rangeAt o o.dA (r * rb) rb)
          (t.1.bumpK o.ptn .ssuEnter sel.2, t.2)).result

end Sys2Proof.Machine
end

