-- ==== Sys2Proof/Machine/Convert.lean ====
section
/-! DEFINITION. The operations that reach host memory: MCONV (02 R43-R53; 07 R174, R177), HRD and HWR (05 R127; 07 R183): their
start, and the work of a conversion block by block. -/

namespace Sys2Proof.Machine

/-! ## MCONV -/

/-- Bytes of a source element: binary32, binary16, bfloat16. -/
def srcBytes (w : Ccw) : Nat := if w.source = 0 then 4 else 2

/-- The elements of a descriptor. -/
def tElems (b : TDesc) : Nat := tDim b 0 * tRows b

/-- A host-format source is a RAW8 tensor of its bytes, an ACC24 source an ACC24 tensor; dC has the target's format and as many
elements (log 20). -/
def mconvOk (o : Op) (w : Ccw) : Option Exc :=
  let src := if w.source = 3 then tFmt o.dA == fAcc24 else tFmt o.dA == fRaw8 && tBytes o.dA % srcBytes w == 0
  let n := if w.source = 3 then tElems o.dA else tBytes o.dA / srcBytes w
  if !src then some (exDesc o.rA o.dA)
  else if tFmt o.dC ≠ w.target ∨ tElems o.dC ≠ n then some (exDesc o.rC o.dC)
  else none

def mconvStart (s : State) (o : Op) : Except Exc (List (List Byte)) := do
  let u := o.who uMge
  checks [descCheck o.rA o.dA, descCheck o.rC o.dC,
    (match ccwOf o.sp.toNat with | none => some exReserved | some w => mconvOk o w),
    errOf (s.operand u o.rA o.dA true false), errOf (s.operand u o.rC o.dC false true)]
  let c ← s.snapCb u o.rC o.dC
  return [[], [], c]

/-- The IOVA of an operand in place in T2. -/
def t2Of (x : Except Exc Loc) : Option Nat := match x with | .ok (.t2 _ _ i) => some i | _ => none

/-- The codebook set of dC, where it lies in place in T2. -/
def State.cbT2 (s : State) (o : Op) : Option Nat :=
  if tFmt o.dC ≠ fPn4 ∨ tCb o.dC = 0 then none else t2Of (s.inSeg (o.who uMge) (some o.rC) (tCbSeg o.dC) (tCbOff o.dC) 128 true false)

/-- A read of an operation over DMA channel `chan`. -/
def State.opRead (s : State) (o : Op) (chan iova len : Nat) : State :=
  s.startX { blankX o.ptn o.cfg chan iova len false with job := some o.job, op := some o.id }

/-- What MCONV reads from host memory starts with it. -/
def mconvGo (s : State) (o : Op) : State :=
  let s := match t2Of (s.operand (o.who uMge) o.rA o.dA true false) with
    | some i => s.opRead o 2 i (tBytes o.dA)
    | none => s
  match s.cbT2 o with
  | some i => s.opRead o 2 i 128
  | none => s

/-- The transfers of an operation. -/
def State.opXfers (s : State) (id : Nat) : List Xfer := s.xfers.filter fun x => x.op == some id && x.chan != 9

/-- Every transfer of an operation has been issued whole. -/
def State.opIssued (s : State) (id : Nat) : Bool := (s.opXfers id).all fun x => x.st == .issued

def State.dropXfers (s : State) (id : Nat) : State := { s with xfers := s.xfers.filter fun x => !(x.op == some id && x.chan != 9) }

/-- The elements of a source. -/
def srcNums (w : Ccw) (bs : List Byte) (n : Nat) : Except Nat (List Num) :=
  match w.source with
  | 0 => .ok ((List.range n).map fun i => f32Num (sliceLe bs (4 * i) 4))
  | 1 => .ok ((List.range n).map fun i => f16Num (sliceLe bs (2 * i) 2))
  | 2 => .ok ((List.range n).map fun i => bf16Num (sliceLe bs (2 * i) 2))
  | _ =>
    (List.range (n / 32)).foldl (fun acc i => match acc with
      | .error e => .error e
      | .ok l => match readAcc ((bs.drop (128 * i)).take 128) with
        | .error _ => .error i
        | .ok a => .ok (l ++ a.map accNum)) (.ok [])

/-- Bytes of source under `n` elements. -/
def srcLen (w : Ccw) (n : Nat) : Nat := if w.source = 3 then n / 32 * 128 else n * srcBytes w

/-- Output block `i` of a conversion: its bytes, with what they add to the counters, or why it cannot be written (02 R43-R53). `src` gives
bytes of the source. -/
def mconvBlk (s : State) (o : Op) (w : Ccw) (book : CbSet) (src : Nat → Nat → Except EngErr (List Byte)) (i : Nat) : Except EngErr Conv :=
  let n := blkElems w.target
  if w.absent book then .error (.data 3 (s.utaOf o o.dC (i * blkBytes w.target)))
  else match src (srcLen w (i * n)) (srcLen w n) with
    | .error e => .error e
    | .ok bs => match srcNums w bs n with
      | .error k => .error (.exc (exStruct (s.utaOf o o.dA (srcLen w (i * n) + 128 * k))))
      | .ok xs =>
        let c := convert w book xs
        match c.nanAt with
        | some k => .error (.data 2 (i * n + k))
        | none => .ok c

/-- The blocks of a conversion. -/
def mconvBlks (o : Op) (w : Ccw) : List Nat := List.range (tElems o.dC / blkElems w.target)

/-- The conversions of a block are counted (02 R55). -/
def State.cvtCount (s : State) (o : Op) (c : Conv) : State := (s.bump o.ptn .cvtSat c.sats).bump o.ptn .cvtNan c.nans

/-- A conversion into a resident tensor: block by block in the order of the source, up to one that cannot be written (02 R53). A unit is one
block. -/
def mconvRun (o : Op) (cw : Ccw) (book : CbSet) (src : State → Who → Nat → Nat → Except EngErr (List Byte)) (s : State) (cut : Option Nat) :
    State × Option EngErr :=
  let w := s.asker o uMge
  (({ st := s, err := none, left := cut } : Run).each (mconvBlks o cw) fun i s =>
    match mconvBlk s o cw book (src s w) i with
    | .error e => (s, some e)
    | .ok c =>
      let n := blkElems cw.target
      let r := s.store o w o.rC o.dC (i * blkBytes cw.target) c.bytes (s.rangeAt o o.dA (srcLen cw (i * n)) (srcLen cw n))
      (if r.2.isNone then r.1.cvtCount o c else r.1, r.2)).result

/-- The source of a conversion in a resident tensor or the argument block. -/
def State.mconvSrc (o : Op) (s : State) (w : Who) (off n : Nat) : Except EngErr (List Byte) :=
  match s.readAt w o.rA o.dA off n with | .ok bs => .ok bs | .error e => .error (.exc e)

/-- What a conversion cut short has written to a resident tensor: so many blocks, or, of a source still on its way from host memory, bytes the
model cannot know (log 60). -/
def mconvCut (o : Op) (s : State) (k : Nat) : State :=
  let u := o.who uMge
  match ccwOf o.sp.toNat, t2Of (s.operand u o.rC o.dC false true) with
  | some cw, none =>
    if (t2Of (s.operand u o.rA o.dA true false)).isSome ∨ (s.cbT2 o).isSome then
      let n := blkBytes cw.target * min k (mconvBlks o cw).length
      let r := s.freeBytes n
      if n = 0 then s else r.1.putAt o (r.1.asker o uMge) o.rC o.dC 0 r.2 []
    else (mconvRun o cw (o.cb 2) (State.mconvSrc o) s (some k)).1
  | _, _ => s

/-! ## HRD and HWR -/

def hrdStart (s : State) (o : Op) : Except Exc (List (List Byte)) := do
  checks [descCheck o.rC o.dC, need (decide (o.sp.toNat < 2 ^ 48)) exReserved, errOf (s.operand (o.who 8) o.rC o.dC false true)]
  return [[], [], []]

def hwrStart (s : State) (o : Op) : Except Exc (List (List Byte)) := do
  checks [descCheck o.rA o.dA, need (decide (o.sp.toNat < 2 ^ 48)) exReserved, errOf (s.operand (o.who 8) o.rA o.dA true false),
    s.goodCheck (o.who 8) o.rA o.dA]
  return [[], [], []]

def hrdGo (s : State) (o : Op) : State := s.opRead o 3 o.sp.toNat (tBytes o.dC)

/-- HWR sends its source as it is when the operation starts; bytes that are undefined, or overwritten before they leave, go out as free bytes
(06 R162). -/
def hwrGo (s : State) (o : Op) : State :=
  let w := s.asker o 8
  let l := match s.operand w o.rA o.dA true false with | .ok l => l | .error _ => .arg 0
  let r := s.readSoft w l (tBytes o.dA)
  -- an argument block, which nothing overwrites, has no UTA address
  r.1.startX { blankX o.ptn o.cfg 4 o.sp.toNat (tBytes o.dA) true with
    job := some o.job, op := some o.id, base := (match l with | .mem u _ => u | _ => 2 ^ 60), data := r.2 }

/-- What an HRD cut short has written: some of its bytes, which the model cannot know (log 60). -/
def hrdCut (o : Op) (s : State) (k : Nat) : State :=
  let n := min k (tBytes o.dC)
  let r := s.freeBytes n
  if n = 0 then s else r.1.putAt o (r.1.asker o 8) o.rC o.dC 0 r.2 []

end Sys2Proof.Machine
end

