-- ==== Sys2Proof/Machine/Channels.lean ====
section
/-! DEFINITION. Generation channels (12 R281-R308): the channel functions of KVCMP, COMPACT, and the KV pool registers. -/

namespace Sys2Proof.Machine

/-! ## Channels and pages -/

/-- A channel with no state but its opening (12 Table 12.2, 13 R310). -/
def Chan.fresh (p : Fin 16) (mode : BitVec 2) (adapter : Option (BitVec 12)) : Chan :=
  { ptn := p, mode := mode, adapter := adapter, len := 0, pages := [], step := 0, tail := [], cursor := none, exhausted := false }

def State.modChan (s : State) (p : Fin 16) (n : Nat) (f : Chan → Chan) : State :=
  { s with chans := s.chans.map fun (c : Nat × Chan) => if c.1 = n ∧ c.2.ptn = p then (c.1, f c.2) else c }

/-- A channel that a job generates on: its output goes to the job's stream ring until a TDTK names another, and ends with the job (04
R99). -/
def State.useChan (s : State) (job chan : Nat) : State :=
  s.modJob job fun j =>
    if dStreamEn j.desc && !(j.chans.any (·.1 == chan)) then { j with chans := (chan, dStream j.desc) :: j.chans } else j

/-- STATUS codes (12 R285). -/
def kvOk : Nat := 0
def kvNoRoom : Nat := 1
def kvNotOpen : Nat := 2
def kvAlready : Nat := 3
def kvRange : Nat := 4
def kvMode : Nat := 5

/-- Bytes 0-63 of the channel block after a function. -/
def State.kvHeader (s : State) (o : Op) (n status moved : Nat) : List Byte :=
  let left := match s.job? o.job with | some j => j.resKv | none => 0
  match s.chan? o.ptn n with
  | some c =>
    leBytes 1 status ++ leBytes 1 (c.mode.toNat + 4 + 8 * c.adapter.isSome.toNat)
      ++ leBytes 2 (match c.adapter with | some a => a.toNat | none => 0) ++ leBytes 4 c.len ++ leBytes 4 c.pages.length
      ++ leBytes 4 left ++ leBytes 4 moved ++ leBytes 4 c.step.toNat ++ leBytes 40 0
  | none => leBytes 12 status ++ leBytes 4 left ++ leBytes 4 moved ++ leBytes 44 0

/-! ## Checks at the start -/

/-- The header of an adapter directory, which counts more than adapter `a` (12 R290, R291). -/
def adapterHdrOk (hdr : List Byte) (a : Nat) : Bool :=
  let n := sliceLe hdr 4 2
  sliceLe hdr 0 4 == 0x31444150 && 1 ≤ n && n ≤ 4096 && sliceLe hdr 6 58 == 0 && a < n

/-- An adapter's directory entry is sound (12 R290, R291). -/
def adapterOk (ent : List Byte) : Bool :=
  let da : TDesc := BitVec.ofNat 256 (sliceLe ent 0 32)
  let db : TDesc := BitVec.ofNat 256 (sliceLe ent 32 32)
  let r := sliceLe ent 64 1
  let rp := roundUp r 32
  tOk da && tFmt da == fPn4 && tRank da == 2 && tDim da 1 == rp && tOk db && tFmt db == fPn4 && tRank db == 2 && tDim db 0 == rp
    && 8 ≤ r && r ≤ 128 && r % 8 == 0 && sliceLe ent 65 1 == 1 && sliceLe ent 66 6 == 0 && sliceLe ent 80 48 == 0

/-- The checks of a KVCMP when it starts (12 R285, R291). -/
def kvStart (s : State) (o : Op) : Except Exc (List (List Byte)) := do
  let w := o.who 4
  match kvWord o.sp.toNat with
  | none => .error exReserved
  | some k =>
    let b := (s.P o.ptn).cset o.cfg
    let compact := k.func == 3
    checks [descCheck o.rA o.dA, descCheck o.rB o.dB, need (csChan b k.chan) exReserved,
      need (tFmt o.dA == fRaw8 && tRank o.dA == 1) (exDesc o.rA o.dA),
      need (tFmt o.dB == fRaw8 && tRank o.dB == 1 && (if compact then 256 else 64) ≤ tDim o.dB 0) (exDesc o.rB o.dB),
      errOf (s.operand w o.rA o.dA compact compact), errOf (s.operand w o.rB o.dB compact true)]
    if k.func = 0 ∧ k.adaptEn then
      let base := csAdapter b
      let hdr ← s.utaBytes w base 64
      ensure (adapterHdrOk hdr k.adapter) (exStruct base)
      let ent ← s.utaBytes w (base + 64 + 128 * k.adapter) 128
      ensure (adapterOk ent) (exStruct (base + 64 + 128 * k.adapter))
    return [[], [], []]

/-! ## Functions that take effect when they start -/

/-- OPEN: the channel opens with LEN 0, no pages and STEP 0, and its withheld bytes are discarded. -/
def kvOpen (s : State) (o : Op) (k : KvWord) : State × Nat :=
  match s.chan? o.ptn k.chan with
  | some _ => (s, kvAlready)
  | none =>
    let c := Chan.fresh o.ptn (BitVec.ofNat 2 k.mode) (if k.adaptEn then some (BitVec.ofNat 12 k.adapter) else none)
    (({ s with chans := s.chans ++ [(k.chan, c)] }.putDtk { chan := k.chan, ptn := o.ptn, withheld := [], seq := 0 }).useChan o.job k.chan,
     kvOk)

/-- RESERVE: the page list covers LEN + ARG positions, all or none (12 R288). -/
def kvReserve (s : State) (o : Op) (k : KvWord) : State × Nat :=
  match s.chan? o.ptn k.chan with
  | none => (s, kvNotOpen)
  | some c =>
    let total := divUp (c.len + k.arg) 64
    let need := total - c.pages.length
    if 131072 < c.len + k.arg ∨ 2048 < total then (s, kvRange)
    else
      let own := match s.job? o.job with | some j => min need j.resKv | none => 0
      if s.kvFree o.ptn < need - own then (s.bump o.ptn .kvNoroom 1, kvNoRoom)
      else
        let new := (s.kvUnheld o.ptn).take need
        ((s.modChan o.ptn k.chan fun c => { c with pages := c.pages ++ new }).modJob o.job fun j => { j with resKv := j.resKv - own }, kvOk)

/-- SETLEN: LEN = ARG, with the pages above it released under TRIM. -/
def kvSetlen (s : State) (o : Op) (k : KvWord) : State × Nat :=
  match s.chan? o.ptn k.chan with
  | none => (s, kvNotOpen)
  | some c =>
    if c.pages.length * 64 < k.arg then (s, kvRange)
    else
      ((s.bump o.ptn .kvRollback (c.len - k.arg)).modChan o.ptn k.chan fun c =>
        { c with len := k.arg, pages := if k.trim then c.pages.take (divUp k.arg 64) else c.pages }, kvOk)

/-- CLOSE: every page returns to the pool and the channel is closed. -/
def kvClose (s : State) (o : Op) (k : KvWord) : State × Nat :=
  match s.chan? o.ptn k.chan with
  | none => (s, kvNotOpen)
  | some _ => ({ s with chans := s.chans.filter fun c => !(c.1 == k.chan && c.2.ptn == o.ptn) }, kvOk)

/-- The page entries STATE writes: min(PAGES, (DIM0 − 256) ÷ 4). -/
def kvPageList (c : Chan) (dim : Nat) : List Byte := (c.pages.take ((dim - 256) / 4)).flatMap (leBytes 4)

/-- A KVCMP other than COMPACT: its effect when it starts, and its block (12 R285, R286). -/
def kvAct (o : Op) (s : State) : State × Option EngErr :=
  match kvWord o.sp.toNat with
  | none => (s, none)
  | some k =>
    let w := s.asker o 4
    match s.edgeErr w o.rB o.dB 0 64 with
    | some e => (s, some (.exc e))
    | none =>
      let r := match k.func with
        | 0 => kvOpen s o k
        | 1 => kvReserve s o k
        | 2 => kvSetlen s o k
        | 4 => (s, if (s.chan? o.ptn k.chan).isSome then kvOk else kvNotOpen)
        | _ => kvClose s o k
      let x := r.1.store o w o.rB o.dB 0 (r.1.kvHeader o k.chan r.2 0) []
      match k.func, x.1.chan? o.ptn k.chan with
      | 4, some c => let l := kvPageList c (tDim o.dB 0); if l.isEmpty then x else x.1.store o w o.rB o.dB 256 l []
      | _, _ => x

/-! ## COMPACT (12 R295) -/

/-- An accepted tree path. -/
structure KvTree where
  n : Nat
  depth : Nat
  path : List Nat
  parent : List Nat

/-- The number of ancestors of a node, counted by walking PARENT. -/
def treeDepth (parent : List Nat) : Nat → Nat → Nat
  | 0, _ => 0
  | fuel + 1, i => if i = 0 then 0 else treeDepth parent fuel (parent.getD i 0) + 1

/-- The tree of a channel block, or none where a rule of 12 R295 is broken. -/
def kvTree (bs : List Byte) : Option KvTree :=
  let n := sliceLe bs 64 1
  let d := sliceLe bs 65 1
  let path := (List.range d).map fun i => sliceLe bs (66 + i) 1
  let parent := (List.range n).map fun i => sliceLe bs (128 + i) 1
  let kids (i : Nat) : Nat := ((List.range n).filter fun j => j != 0 && parent.getD j 0 == i).length
  let steps := (0 :: path).zip path
  if 1 ≤ n && n ≤ 128 && d ≤ 16 && sliceLe bs 82 46 == 0 && parent.getD 0 0 == 0xFF
      && ((List.range n).all fun i => i == 0 || parent.getD i 0 < i)
      && ((List.range n).all fun i => kids i ≤ 8 && treeDepth parent n i ≤ 16)
      && (steps.all fun e => e.2 != 0 && e.2 < n && parent.getD e.2 0 == e.1) then
    some { n := n, depth := d, path := path, parent := parent }
  else none

/-- Copy one row of a channel between positions. -/
def kvCopy (o : Op) (w : Who) (c : Chan) (src dst g : Nat) (s : State) : State × Option EngErr :=
  let row := (s.P o.ptn).kvRow.toNat
  let nreg := (s.P o.ptn).kvNreg.toNat
  let from_ := kvRowAt c row nreg g src
  match s.readAt w o.rA o.dA from_ row with
  | .error e => (s, some (.exc e))
  | .ok bs => s.store o w o.rA o.dA (kvRowAt c row nreg g dst) bs (s.rangeAt o o.dA from_ row)

/-- The work of COMPACT: the accepted path is made contiguous, row by row, and LEN moves on; or its STATUS says why nothing changed (12
R285, R295, R303, R306). A unit is one row. -/
def compactWork (o : Op) (s : State) (cut : Option Nat) : State × Option EngErr :=
  match kvWord o.sp.toNat with
  | none => (s, none)
  | some k =>
    let w := s.asker o 4
    let fin (s : State) (st moved : Nat) : State × Option EngErr :=
      if cut.isSome then (s, none)
      else
        let r := s.store o w o.rB o.dB 0 (s.kvHeader o k.chan st moved) []
        if r.2.isSome then r else ((r.1.bump o.ptn .kvMoved moved).bump o.ptn .kvcmpCnt 1, none)
    match s.chan? o.ptn k.chan with
    | none => fin s kvNotOpen 0
    | some c =>
      if c.mode ≠ 2 then fin s kvMode 0
      else match s.goodCheck w o.rB o.dB, kvTree (s.readOp w o.rB o.dB) with
        | some e, _ => (s, some (.exc e))
        | none, none => (s, some (.exc (exStruct (s.utaOf o o.dB 0))))
        | none, some t =>
          if c.pages.length * 64 < c.len + t.n then fin s kvRange 0
          else
            let moves := ((List.range t.depth).map fun i => (t.path.getD i 0, i + 1)).filter fun e => e.1 != e.2
            let rows := moves.flatMap fun e => (List.range (s.P o.ptn).kvNreg.toNat).map fun g => (e.1, e.2, g)
            let x := (({ st := s, err := none, left := cut } : Run).each rows fun e => kvCopy o w c (c.len + e.1) (c.len + e.2.1) e.2.2).result
            match x.2 with
            | some _ => x
            | none =>
              if cut.isSome then x
              else fin (x.1.modChan o.ptn k.chan fun c => { c with len := c.len + t.depth + 1 }) kvOk moves.length

/-- Another COMPACT that has started holds the channel of a KVCMP until its tally add, so it waits (12 R286). -/
def State.kvBlocked (s : State) (o : Op) : Bool :=
  o.mn == .kvcmp && (match kvWord o.sp.toNat with
    | some k => (s.others o).any fun x => x.mn == .kvcmp && (match kvWord x.sp.toNat with | some y => y.func == 3 && y.chan == k.chan | none => false)
    | none => false)

/-! ## The KV pool registers (12 R282) -/

/-- The partition's channels or admission reservations hold pages. -/
def State.kvInUse (s : State) (p : Fin 16) : Bool := !(s.kvHeld p).isEmpty || s.kvResv p != 0

/-- KV_POOL write: PAGES, unless pages are in use or the bounds are broken. -/
def kvPoolPut (s : State) (p : Fin 16) (val : Nat) : State :=
  let n := bits val 0 19
  let others := (((List.finRange 16).filter (· != p)).map fun i => (s.P i).kvPages.toNat).sum
  if s.kvInUse p || 262144 < n + others then s.modP p fun q => { q with kvWrDrop := true }
  else s.modP p fun q => { q with kvPages := BitVec.ofNat 19 n }

/-- KV_GEOM write: ROW_BYTES and NREG. -/
def kvGeomPut (s : State) (p : Fin 16) (val : Nat) : State :=
  let row := bits val 0 13
  let n := bits val 16 12
  if s.kvInUse p || row < 1 || 4352 < row || n < 1 || 16777216 < kvStride row n then s.modP p fun q => { q with kvWrDrop := true }
  else s.modP p fun q => { q with kvRow := BitVec.ofNat 13 row, kvNreg := BitVec.ofNat 12 n }

/-- KV_POOL written by a function that reaches the block. -/
def execKvPoolWrite (fn : Fn) (p : Fin 16) (val : W32) (s : State) : Out := .next (if s.reach fn p then kvPoolPut s p val.toNat else s)

/-- KV_GEOM written by a function that reaches the block. -/
def execKvGeomWrite (fn : Fn) (p : Fin 16) (val : W32) (s : State) : Out := .next (if s.reach fn p then kvGeomPut s p val.toNat else s)

end Sys2Proof.Machine
end

