-- ==== Sys2Proof/Machine/Sampling.lean ====
section
/-! DEFINITION. SAMP (13 R309-R318) and the constraint sets (13 R317-R320). -/

namespace Sys2Proof.Machine

/-! ## Constraint sets (13 Table 13.3) -/

/-- An entry: its kind, the banned sequence or trigger followed by the continuation, and the lengths. -/
structure CsEnt where
  forced : Bool
  len : Nat
  clen : Nat
  toks : List Nat

structure CsSet where
  fallback : Nat
  ents : List CsEnt

/-- Read entry `e`, or none where it breaks Table 13.3. -/
def csEntOf (bs : List Byte) (e : Nat) : Option CsEnt :=
  let b := (bs.drop (64 + 136 * e)).take 136
  let k := sliceLe b 0 1
  let l := sliceLe b 1 1
  let cl := sliceLe b 2 1
  let n := l + cl
  let ts := (List.range 32).map fun i => sliceLe b (8 + 4 * i) 4
  if k < 2 && (if k = 0 then 1 ≤ l && l ≤ 32 && cl == 0 else 1 ≤ l && l ≤ 31 && 1 ≤ cl && cl ≤ 31 && n ≤ 32) && sliceLe b 3 5 == 0
      && (ts.all fun t => t < 2 ^ 20) && ((ts.drop n).all (· == 0)) then
    some { forced := k == 1, len := l, clen := cl, toks := ts.take n }
  else none

/-- Read a set, or the entry at fault, 0x1FFF for the header (13 R319, Table 13.4). -/
def csSetOf (bs : List Byte) : Except Nat CsSet :=
  let n := sliceLe bs 4 2
  if sliceLe bs 0 4 ≠ 0x31534358 ∨ n < 1 ∨ 4096 < n ∨ sliceLe bs 6 2 ≠ 0 ∨ 2 ^ 20 ≤ sliceLe bs 8 4 ∨ sliceLe bs 12 52 ≠ 0
      ∨ bs.length < 64 + 136 * n then .error 0x1FFF
  else
    let l := (List.range n).map (csEntOf bs)
    match l.findIdx? (·.isNone) with
    | some e => .error e
    | none => .ok { fallback := sliceLe bs 8 4, ents := l.filterMap id }

/-- A forced entry conflicts with a banned one (13 R319). -/
def csConflict (f b : CsEnt) : Bool :=
  (List.range f.clen).any fun i =>
    let k := f.len + 1 + i
    (List.range (min b.len k)).any fun i =>
      let j := i + 1
      (b.toks.drop (b.len - j) == (f.toks.take k).drop (k - j)) && (j == b.len || k == j)

/-- The first conflict of a set: the forced entry and the banned entry. -/
def csConflictOf (c : CsSet) : Option (Nat × Nat) :=
  let ix := (List.range c.ents.length).zip c.ents
  (ix.filter fun e => e.2.forced).findSome? fun f =>
    ((ix.filter fun e => !e.2.forced).find? fun b => csConflict f.2 b.2).map fun b => (f.1, b.1)

/-- The UTA address and bytes of constraint set `n`, read through the table of a set by the SMU (13 R317). -/
def State.csBytes (s : State) (w : Who) (n : Nat) : Except Exc (Nat × List Byte) := do
  let at_ := csConstraint ((s.P w.ptn).cset w.cfg) + 32 * n
  let db ← s.utaBytes w at_ 32
  let d : TDesc := BitVec.ofNat 256 (ofLe db)
  ensure (tOk d && !tArg d && tFmt d == fRaw8 && tRank d == 1) (exStruct at_)
  let bs ← s.segBytes w (tSeg d) (tOff d) (tDim d 0)
  return (segBase (csSeg ((s.P w.ptn).cset w.cfg) (tSeg d)) + tOff d, bs)

/-- The structure at fault in a set: an entry, or its header (00 R10). -/
def csFault (uta e : Nat) : Nat := if e = 0x1FFF then uta else uta + 64 + 136 * e

/-! ## The generator and the weights -/

/-- mix of 13 R314. -/
def smMix (z : Nat) : Nat :=
  let a := (z ^^^ z / 2 ^ 30) * 0xBF58476D1CE4E5B9 % 2 ^ 64
  let b := (a ^^^ a / 2 ^ 27) * 0x94D049BB133111EB % 2 ^ 64
  b ^^^ b / 2 ^ 31

/-- The random value r of a seed, channel and step (13 R314). -/
def smRand (seed c step : Nat) : Nat := smMix ((seed + 0x9E3779B97F4A7C15 * (c * 2 ^ 32 + step + 1)) % 2 ^ 64) / 2 ^ 40

/-- log₂e × 2^128, rounded down. No rational of the size 13 R311 divides lies within its error of log₂e. -/
def log2e128 : Nat := 490923683258796565746369346286093237521

/-- Q of a logit `d` × 2^−15 below the largest, at temperature T′ (13 R311). -/
def smQ (d t : Nat) : Nat := min 4094 (rneDiv (2 * d * log2e128) (t * 2 ^ 128))
where
  /-- a ÷ b to the nearest, ties to even. -/
  rneDiv (a b : Nat) : Nat :=
    let q := a / b
    let r := 2 * (a % b)
    if b < r ∨ (r = b ∧ q % 2 = 1) then q + 1 else q

/-- round(−256 × log₂(w ÷ W)) limited to 4,094, or 4,095 for w = 0 (13 R313). No tie exists, since 2 to a 512th is irrational. -/
def smOutQ (w total : Nat) : Nat :=
  if w = 0 then 4095
  else
    let q := largest (fun q => w ^ 256 * 2 ^ q ≤ total ^ 256) 13
    min 4094 (if w ^ 512 * 2 ^ (2 * q + 1) ≤ total ^ 512 then q + 1 else q)

/-! ## Row parameters (13 Table 13.1) -/

structure SRow where
  chan : Nat
  op : Nat
  csEn : Bool
  cset : Nat
  temp : Nat
  topk : Nat
  topp : Nat
  cands : List Nat
  seed : Nat
  push : Nat

/-- Read a parameter record, or none where a value is reserved or out of range. -/
def srowOf (b : List Byte) : Option SRow :=
  let op := bits (sliceLe b 2 1) 0 2
  let tk := sliceLe b 6 2
  let tp := sliceLe b 8 2
  let nc := sliceLe b 10 1
  let cs := (List.range 8).map fun i => sliceLe b (24 + 4 * i) 4
  if sliceLe b 0 2 < 4096 && op < 3 && sliceLe b 2 1 < 8 && (op == 2 || (1 ≤ tk && tk ≤ 1024 && 1 ≤ tp && tp ≤ 4096))
      && tk < 2048 && tp < 8192 && nc < 16 && (op != 1 || (1 ≤ nc && nc ≤ 8)) && sliceLe b 11 5 == 0 && sliceLe b 56 8 == 0
      && cs.all fun t => t < 2 ^ 20 then
    some { chan := sliceLe b 0 2, op := op, csEn := (sliceLe b 2 1).testBit 2, cset := sliceLe b 3 1, temp := sliceLe b 4 2
           topk := tk, topp := tp, cands := if op = 1 then cs.take nc else [], seed := sliceLe b 16 8, push := cs.getD 0 0 }
  else none

/-- The rows of a SAMP as its parameter tensor gives them; an unreadable one is none. -/
def State.srows (s : State) (w : Who) (o : Op) : List (Option SRow) :=
  let bs := s.readOp w o.rB o.dB
  (List.range (tDim o.dA 1)).map fun i => srowOf ((bs.drop (64 * i)).take 64)

/-- The checks of SAMP when it starts (13 R309, R319). -/
def sampStart (s : State) (o : Op) : Except Exc (List (List Byte)) := do
  let w := o.who 5
  let b := (s.P o.ptn).cset o.cfg
  let n := tDim o.dA 1
  checks [descCheck o.rA o.dA, descCheck o.rB o.dB, descCheck o.rC o.dC, if o.den then descCheck o.rD o.dD else none,
    need (tFmt o.dA == fPn8 && tRank o.dA == 2 && 32 ≤ tDim o.dA 0 && tDim o.dA 0 ≤ 1048576 && n ≤ 256) (exDesc o.rA o.dA),
    need (tFmt o.dB == fRaw8 && tBytes o.dB == 64 * n) (exDesc o.rB o.dB),
    need (tFmt o.dC == fU32 && tRank o.dC == 2 && 4 ≤ tDim o.dC 0 && n ≤ tDim o.dC 1) (exDesc o.rC o.dC),
    -- s[SP] must be s0: the register named, not its value
    need (fld o.w1 11 5 == 0) exReserved,
    errOf (s.operand w o.rA o.dA true false), errOf (s.operand w o.rB o.dB true false), errOf (s.operand w o.rC o.dC false true),
    if o.den then (match s.operand w o.rD o.dD true false with
      | .error e => some e | .ok l => need (l.uta == csConstraint b && !tArg o.dD) (exDesc o.rD o.dD)) else none,
    s.goodCheck w o.rB o.dB]
  let rows := s.srows w o
  match rows.findIdx? fun r => match r with
      | none => true
      | some r => !csChan b r.chan || (s.chan? o.ptn r.chan).isNone || (r.csEn && (!o.den || !bit (s.P o.ptn).csLoaded r.cset)) with
  | some i => .error (exStruct (s.utaOf o o.dB (64 * i)))
  | none => return [[], [], []]

/-! ## One row -/

/-- The last `n` tokens of TAIL. -/
def tailLast (tail : List Nat) (n : Nat) : Option (List Nat) := if n ≤ tail.length then some (tail.drop (tail.length - n)) else none

/-- Tokens a set masks after a TAIL (13 R317). -/
def csMasked (c : CsSet) (tail : List Nat) : List Nat :=
  c.ents.filterMap fun e =>
    if !e.forced && tailLast tail (e.len - 1) == some (e.toks.take (e.len - 1)) then e.toks[e.len - 1]? else none

/-- The forced entry that triggers: the longest trigger, then the lowest entry (13 R317). -/
def csTrigger (c : CsSet) (tail : List Nat) : Option Nat :=
  let hits := ((List.range c.ents.length).zip c.ents).filter fun e => e.2.forced && tailLast tail e.2.len == some (e.2.toks.take e.2.len)
  (firstBy (fun (a b : Nat × CsEnt) => b.2.len < a.2.len) hits).map (·.1)

/-- How a row chose its token. -/
inductive How where
  | sampled | greedy | forced | exhausted
  deriving DecidableEq

structure Pick where
  tok : Nat
  how : How
  masked : Nat
  /-- the weight of the token, or none for one with no logit -/
  w : Option Nat
  total : Nat

/-- The weights, the pool, and the choice of a token (13 R311-R315). `zs` are the logits in units of 2^−15. -/
def smPick (r : SRow) (zs : List Int) (ban : List Nat) (force : Option Nat) (fallback step : Nat) : Pick :=
  let zmax := maxOf zs
  let t := if r.temp = 0 then 256 else r.temp
  let pool := (selectRow 1024 false zs).1
  let masked := pool.filter ban.contains
  let w (i : Nat) : Nat := if masked.contains i then 0 else exp2Q (smQ (zmax - zs.getD i zmax).toNat t)
  let total := ((List.range zs.length).map w).sum
  let cand := (pool.filter fun i => !masked.contains i).take r.topk
  let done (tok : Nat) (h : How) : Pick :=
    { tok := tok, how := h, masked := masked.length, w := if tok < zs.length then some (w tok) else none, total := total }
  match force, cand with
  | some f, _ => done f .forced
  | none, [] => done fallback .exhausted
  | none, c0 :: _ =>
    if r.temp = 0 then done c0 .greedy
    else
      let cum (n : Nat) : Nat := ((cand.take n).map w).sum
      let n := ((List.range cand.length).find? fun n => r.topp * total ≤ cum (n + 1) * 4096).getD (cand.length - 1) + 1
      let rnd := smRand r.seed r.chan step
      let i := ((List.range n).find? fun i => rnd * cum n < cum (i + 1) * 2 ^ 24).getD 0
      done (cand.getD i c0) .sampled

/-- The output record of a row (13 Table 13.2). -/
def outRec (tok flags q step : Nat) : List Byte := leBytes 4 tok ++ leBytes 4 flags ++ leBytes 4 q ++ leBytes 4 step

/-- A run of rows, and the channels barred by a VERIFY not accepted. -/
structure SRun where
  run : Run
  barred : List Nat

/-- TAIL with one more token: its newest 31 are kept. -/
def tailPut (tail : List Nat) (t : Nat) : List Nat := (tail ++ [t]).drop (tail.length + 1 - 31)

/-- The cursor a row begins with: a row that applies no set, or another than the cursor's, returns it to idle (13 R317). -/
def csKeep (r : SRow) (c : Chan) : Option (Nat × Nat × Nat) := c.cursor.filter fun cu => r.csEn && cu.1 == r.cset

/-- What a SAMPLE or VERIFY row reads: its parameter record, its logits in units of 2^−15, and its set's contents. -/
structure RowIn where
  rec_ : List Byte
  zs : List Int
  set : Option (CsSet × List Byte)

/-- What a row decides: the pick, Q, the candidate that matches, and the cursor after it (13 R310-R318). -/
structure RowOut where
  pick : Pick
  q : Nat
  hit : Option Nat
  cursor : Option (Nat × Nat × Nat)

/-- A SAMPLE or VERIFY row is decided (13 R311-R318): a function of the six inputs of R316 and the cursor. -/
def rowDecide (r : SRow) (c : Chan) (x : RowIn) : RowOut :=
  let set := x.set.map (·.1)
  let cursor : Option (Nat × Nat × Nat) := (csKeep r c).or ((set.bind fun t => csTrigger t c.tail).map fun e => (r.cset, e, 0))
  let ent : Option CsEnt := match cursor, set with | some cu, some t => t.ents[cu.2.1]? | _, _ => none
  let force := match cursor, ent with | some cu, some e => e.toks[e.len + cu.2.2]? | _, _ => none
  let next := match cursor, ent with
    | some cu, some e => if cu.2.2 + 1 < e.clen then some (cu.1, cu.2.1, cu.2.2 + 1) else none
    | _, _ => none
  let p := smPick r x.zs (match set with | some t => csMasked t c.tail | none => []) force (match set with | some t => t.fallback | none => 0)
    c.step.toNat
  { pick := p, hit := r.cands.findIdx? (· == p.tok), cursor := next
    q := match p.w with
      | some v => smOutQ v p.total
      | none => (Config.tokenQ x.zs x.rec_ r.chan c.step.toNat c.tail (match x.set with | some t => t.2 | none => [])).toNat }

/-- A decided row takes effect: its record is written, its token enters TAIL, STEP advances, the cursor moves (13 R310, R317, R318). -/
def sampDecide (o : Op) (w : Who) (i : Nat) (r : SRow) (c : Chan) (x : RowIn) (deps : List (Nat × Nat)) (s : State) :
    State × Option EngErr × Bool :=
  let d := rowDecide r c x
  let p := d.pick
  let flags := (p.how == .sampled).toNat + 2 * (p.how == .greedy).toNat + 4 * (p.how == .forced).toNat + 8 * (p.how == .exhausted).toNat
    + (match d.hit with | some k => 32 + 256 * k | none => 0)
  match s.store o w o.rC o.dC (4 * tDim o.dC 0 * i) (outRec p.tok flags d.q c.step.toNat) deps with
  | (s, some e) => (s, some e, false)
  | (s, none) =>
    let s := s.modChan o.ptn r.chan fun c =>
      { c with tail := tailPut c.tail p.tok, step := c.step + 1, cursor := d.cursor, exhausted := c.exhausted || p.how == .exhausted }
    let s := ((s.bumpK o.ptn .smuRow 1).bump o.ptn .csMask p.masked).bump o.ptn .csForce (p.how == .forced).toNat
    let s := if p.how = .exhausted then (s.bump o.ptn .csExhaust 1).modJob o.job fun j => { j with exhausted := true } else s
    (s.useChan o.job r.chan, none, r.op == 1 && d.hit.isNone)

/-- The logits and the set of a SAMPLE or VERIFY row, or why they cannot be read (13 R317, R319, R323). -/
def rowRead (s : State) (o : Op) (w : Who) (i : Nat) (r : SRow) : Except EngErr RowIn :=
  let rb := rowBytes fPn8 (tDim o.dA 0)
  let set : Except Exc (Option (CsSet × List Byte)) :=
    if r.csEn then
      (match s.csBytes w r.cset with
       | .error e => .error e
       | .ok (uta, bs) => match csSetOf bs with
         | .error e => .error (exStruct (csFault uta e))
         | .ok set => .ok (some (set, bs)))
    else .ok none
  match set, s.readAt w o.rA o.dA (rb * i) rb with
  | .error e, _ => .error (.exc e)
  | _, .error e => .error (.exc e)
  | .ok set, .ok bs => match readBlks fPn8 none bs (tDim o.dA 0 / 32) 0 with
    | .error e => .error (.exc (exStruct (s.utaOf o o.dA (rb * i + 33 * e.1))))
    | .ok bl => .ok { rec_ := s.readOp w o.rB o.dB |>.drop (64 * i) |>.take 64
                      zs := bl.flatMap fun b => b.v.map fun v => v * 2 ^ (b.e + 15).toNat, set := set }

/-- One row of a SAMP (13 R310); the flag says that its channel's later rows are skipped. -/
def sampRow (o : Op) (w : Who) (barred : List Nat) (i : Nat) (s : State) : State × Option EngErr × Option Nat :=
  let uta := s.utaOf o o.dB (64 * i)
  let at_ := 4 * tDim o.dC 0 * i
  let rb := rowBytes fPn8 (tDim o.dA 0)
  let recDep := s.rangeAt o o.dB (64 * i) 64
  match (s.srows w o).getD i none with
  | none => (s, some (.exc (exStruct uta)), none)
  | some r =>
    match s.chan? o.ptn r.chan with
    | none => (s, some (.exc (exStruct uta)), none)
    | some c =>
      if c.exhausted ∨ r.chan ∈ barred then
        let x := s.store o w o.rC o.dC at_ (outRec 0 16 0 c.step.toNat) recDep
        (if x.2.isNone then x.1.bump o.ptn .smuSkip 1 else x.1, x.2, none)
      else if r.op = 2 then
        let x := s.store o w o.rC o.dC at_ (outRec 0 0 0 c.step.toNat) recDep
        if x.2.isSome then (x.1, x.2, none)
        else (((x.1.modChan o.ptn r.chan fun c => { c with tail := tailPut c.tail r.push, cursor := csKeep r c }).bumpK o.ptn .smuRow 1).useChan
          o.job r.chan, none, none)
      else match rowRead s o w i r with
        | .error e => (s, some e, none)
        | .ok x =>
          let y := sampDecide o w i r c x (recDep ++ s.rangeAt o o.dA (rb * i) rb) s
          (y.1, y.2.1, if y.2.2 then some r.chan else none)

/-- The sets a SAMP names, with their table entries: written while it is incomplete, they are read as either contents (13 R320). -/
def State.sampEither (s : State) (o : Op) : List (Nat × Nat) :=
  let w := o.who 5
  let b := (s.P o.ptn).cset o.cfg
  (s.srows w o).flatMap fun r => match r with
    | some r => if r.csEn then (csConstraint b + 32 * r.cset, 32) :: (match s.csBytes w r.cset with | .ok (u, bs) => [(u, bs.length)] | .error _ => [])
      else []
    | none => []

/-- The work of SAMP: its rows in order (13 R310); a unit is one row. -/
def sampWork (o : Op) (s : State) (cut : Option Nat) : State × Option EngErr :=
  let (s, w) := s.chooser o 5 (s.sampEither o)
  ((List.range (tDim o.dA 1)).foldl (fun (x : SRun) i =>
    if x.run.err.isSome ∨ x.run.left = some 0 then x
    else
      let r := sampRow o w x.barred i x.run.st
      { run := { st := r.1, err := r.2.1, left := x.run.left.map (· - 1) }, barred := r.2.2.toList ++ x.barred })
    ({ run := { st := s, err := none, left := cut }, barred := [] } : SRun)).run.result

/-! ## LOAD and UNLOAD (13 R319, R320) -/

/-- A command is written to CS_CMD: discarded while one is in progress. -/
def csCmd (s : State) (p : Fin 16) (op : Nat) (set : Byte) : State :=
  if (s.P p).csBusy then s.modP p fun q => { q with csDropped := true }
  else
    let was := bit (s.P p).csLoaded set.toNat
    let s := s.modP p fun q => { q with csBusy := true, csOp := BitVec.ofNat 2 op, csSet := set }
    if op = 2 then
      -- an UNLOAD marks the set at once; the result of one not loaded is settled here
      if was then s.modP p fun q => { q with csLoaded := setBit q.csLoaded set.toNat false, csResult := 0 }
      else s.modP p fun q => { q with csResult := 3 }
    else s

/-- LOAD of a set, written by a function that reaches the block. -/
def execLoad (fn : Fn) (p : Fin 16) (set : Byte) (s : State) : Out := .next (if s.reach fn p then csCmd s p 1 set else s)

/-- UNLOAD of a set. -/
def execUnload (fn : Fn) (p : Fin 16) (set : Byte) (s : State) : Out := .next (if s.reach fn p then csCmd s p 2 set else s)

/-- The result of a LOAD: its code, ENTRY_A and ENTRY_B (13 Table 13.4). -/
def csCheck (s : State) (p : Fin 16) (set : Nat) : Nat × Nat × Nat :=
  if bit (s.P p).csLoaded set then (5, 0, 0)
  else
    match s.csBytes { ptn := p, cfg := (s.P p).swap.active, job := 0, unit := 5 } set with
    | .error e => if e.cause = 0x04 then (1, 0x1FFF, 0) else (4, 0, 0)
    | .ok (_, bs) => match csSetOf bs with
      | .error a => (1, a, 0)
      | .ok c => match csConflictOf c with
        | some (a, b) => (2, a, b)
        | none => (0, 0, 0)

/-- A queued or running SAMP of the partition names a set. -/
def State.csNamed (s : State) (p : Fin 16) (set : Nat) : Bool :=
  s.ops.any fun o => o.ptn == p && o.mn == .samp && (s.srows (o.who 5) o).any fun r => r.any fun r => r.csEn && r.cset == set

/-- CS_UNLOAD_DONE: no queued or running SAMP names the set any more, and BUSY falls. -/
def execCsUnloadDone (p : Fin 16) (s : State) : Out :=
  let q := s.P p
  if !q.csBusy || q.csOp != 2 || s.csNamed p q.csSet.toNat || !s.running then .next s
  else .next (s.modP p fun q => { q with csBusy := false, csA := 0, csB := 0 })

end Sys2Proof.Machine
end

