-- ==== Sys2Proof/Machine/Search.lean ====
section
/-! DEFINITION. LSCAN (10 R244-R252, R258-R264): the start of a scan, its scores, the lookup-table store and the scan-time counters. -/

namespace Sys2Proof.Machine

/-- The checks of an LSCAN when it starts. -/
def lscanStart (s : State) (o : Op) : Except Exc (List (List Byte)) := do
  let _ ← lscanPrep s (o.who 3) o
  return [[], [], []]

/-! ## Scores -/

/-- Code `i` of a record (02 R34). -/
def lcode (v : LVer) (rec_ : List Byte) (i : Nat) : Nat :=
  let per := 8 / v.bits
  bits (sliceLe rec_ (i / per) 1) (v.bits * (i % per)) v.bits

/-- BIAS + the sum of the table entries of a record's codes (10 R250). -/
def lscore (v : LVer) (blk : List Byte) (bias : Int) (rec_ : List Byte) : Int :=
  bias + ((List.range v.subs).map fun i => sx 8 (sliceLe blk (64 + i * 2 ^ v.bits + lcode v rec_ i) 1)).sum

/-- ACC24 block `b` of one query's region, padded with A = −2^23 (10 R250); `codes` are the block's own records. -/
def lblock (v : LVer) (blk : List Byte) (bias : Int) (count : Nat) (codes : List Byte) (b : Nat) : List Byte :=
  let n := v.subs * v.bits / 8
  let f : Int := (sliceLe blk 0 1 : Int) - 15
  storeAcc ((List.range 32).map fun i =>
    { a := if 32 * b + i < count then lscore v blk bias ((codes.drop (i * n)).take n) else accMin, f := f, sat := false })

/-- Give up entries of a store, chosen freely (log 52), until they fit `cap` bytes; `k` counts the choices. -/
def evictTo : Nat → Nat → Nat → List LutTag → List LutTag × Nat
  | 0, _, k, l => (l, k)
  | fuel + 1, cap, k, l =>
    if (l.map (·.size)).sum ≤ cap then (l, k) else evictTo fuel cap (k + 1) (l.eraseIdx (Config.freeNat k % max 1 l.length))

/-- Cache the query blocks a scan used in the 1,040 KiB of its LSE, and count those loaded (10 R252). -/
def State.loadLuts (s : State) (o : Op) (uta blk : Nat) (qs : List Nat) : State :=
  let l := o.run.getD (o.home.getD 0)
  let tags := qs.map fun q => ({ lse := l, ptn := o.ptn, uta := uta, query := q, size := blk } : LutTag)
  let new := tags.filter fun t => !s.luts.contains t
  let rest := s.luts.filter fun t => !tags.contains t
  let mine := rest.filter fun t => t.lse == l
  let r := evictTo mine.length (1064960 - blk * tags.length) s.free mine
  { s with luts := tags ++ r.1 ++ rest.filter fun (t : LutTag) => t.lse != l, free := r.2 }.bump o.ptn .lseLutLoad new.length

/-- The scan time of a list is added to its counter and compared with the longest (10 R251, R264). -/
def State.scanTime (s : State) (o : Op) (p : LPrep) : State :=
  let n := s.opCycles o
  let w := o.who 3
  let s := match s.inSeg w none p.ver.stats.1 (p.ver.stats.2 + 4 * p.parm.list) 4 true true with
    | .ok (.mem u b) =>
      let old := rdLe (s.P o.ptn).mem u 4
      let s := if 2 ^ 32 ≤ old + n then s.bump o.ptn .srchStatSat 1 else s
      s.putMem o.ptn u b (leBytes 4 (min (2 ^ 32 - 1) (old + n))) (some o.id)
    | _ => s
  if (s.P o.ptn).cnt[Ctr.lseMaxList.ix].toNat < n then
    s.modP o.ptn fun q => { q with cnt := q.cnt.set Ctr.lseMaxList.ix (BitVec.ofNat 32 (min (2 ^ 32 - 1) n))
                                   maxList := BitVec.ofNat 21 p.parm.list, maxIndex := BitVec.ofNat 5 p.parm.index }
  else s

/-- The structures of a bound index that a scan reads: its version block, directory entry and codes, and the lookup tables. Written while it
is incomplete, they are read as either contents (10 R247, R252). -/
def State.lscanEither (s : State) (o : Op) : List (Nat × Nat) :=
  let b := (s.P o.ptn).cset o.cfg
  match lscanPrep s (o.who 3) o with
  | .error _ => []
  | .ok p =>
    let slot := match (s.job? o.job).bind fun j => j.idx.find? (·.1 == p.parm.index) with | some e => e.2.toNat | none => 0
    (csIndexRoot b + 256 * p.parm.index + 128 * slot, 128) :: (segBase (csSeg b p.ver.dir.1) + p.ver.dir.2 + 16 * p.parm.list, 16)
      :: (match p.codes with | some l => [(l.uta, p.count * (p.ver.subs * p.ver.bits / 8))] | none => [])
      ++ (if p.parm.resolve then [] else s.rangeAt o o.dB 0 (tBytes o.dB))

/-- The work of LSCAN: the version block, or the scores of a list, 32 entries of every query at a time; a unit is such a block, the model's
slice of the list entries of 10 R261 (log 57). -/
def lscanWork (o : Op) (s : State) (cut : Option Nat) : State × Option EngErr :=
  let (s, w) := s.chooser o 3 (s.lscanEither o)
  let run : Run := { st := s, err := none, left := cut }
  let parmDep := s.rangeAt o o.dD 0 (tBytes o.dD)
  match lscanPrep s w o with
  | .error e => (s, some (.exc e))
  | .ok p =>
    if p.parm.resolve then (run.unit fun s => s.store o w o.rC o.dC 0 p.raw parmDep).result
    else
      let lut := s.utaOf o o.dB 0
      let b := p.ver.blk
      let tabs := p.parm.qs.map fun e => (e, s.readAt w o.rB o.dB (e.q * b) b)
      match tabs.findSome? fun e => match e.2 with
          | .error x => some x
          | .ok t => if 32 ≤ sliceLe t 0 1 || sliceLe t 1 63 != 0 then some (exStruct (lut + e.1.q * b)) else none with
      | some e => (s, some (.exc e))
      | none =>
        let row := rowBytes fAcc24 (tDim o.dC 0)
        let n := p.ver.subs * p.ver.bits / 8
        let x := ({ run with st := s.loadLuts o lut b (p.parm.qs.map (·.q)) } : Run).each (List.range (divUp p.count 32)) fun i s =>
          match p.codes with
          | none => (s, none)
          | some l =>
            let here := l.plus (32 * i * n)
            let len := min 32 (p.count - 32 * i) * n
            match s.sound w none here len with
            | some e => (s, some (.exc e))
            | none =>
              let codes := s.readLoc w here len
              tabs.foldl (fun (y : State × Option EngErr) e =>
                match y.2, e.2 with
                | none, .ok t =>
                  y.1.store o w o.rC o.dC (e.1.q * row + 128 * (e.1.col + i)) (lblock p.ver t e.1.bias p.count codes i) parmDep
                | _, _ => y) (s, none)
        match x.result with
        | (s, none) => (if cut.isNone then s.scanTime o p else s, none)
        | r => r

end Sys2Proof.Machine
end

