-- ==== Sys2Proof/Machine/Tables.lean ====
section
/-! DEFINITION. GATH and SCAT (11 R265-R278): their start, rows, the coalescing buffer and the hot-index report. -/

namespace Sys2Proof.Machine

/-- The checks of a GATH or SCAT when it starts. -/
def gatStart (s : State) (o : Op) : Except Exc (List (List Byte)) := do
  let _ ← gatPrep s (o.who 4) o
  return [[], [], []]

/-! ## The coalescing buffer (11 R271, R275) -/

/-- Entries, most recently used first, each with its hit count; the hits, the fetches or writes, and the largest count. -/
structure Buf where
  ents : List (Nat × Nat)
  hits : Nat
  moved : Nat
  best : Nat
  bestIx : Nat

/-- A row is used. `writes` counts the rows written out on eviction, for SCAT; otherwise the fetches of misses. -/
def Buf.use (b : Buf) (rowB : Nat) (writes : Bool) (r : Nat) : Buf :=
  if 4352 < rowB then { b with moved := b.moved + 1 }
  else match b.ents.find? (·.1 == r) with
    | some e =>
      let h := e.2 + 1
      { b with ents := (r, h) :: b.ents.filter (·.1 != r), hits := b.hits + 1
               best := max b.best h, bestIx := if b.best < h then r else b.bestIx }
    | none =>
      { b with ents := (r, 0) :: b.ents.take 63
               moved := b.moved + (if writes then (if 64 ≤ b.ents.length then 1 else 0) else 1) }

/-- The buffer is emptied, its SCAT rows written out (11 R271). -/
def Buf.empty (b : Buf) (writes : Bool) : Buf := { b with ents := [], moved := b.moved + (if writes then b.ents.length else 0) }

/-- The counters of an operation's end, whole, failed or stopped, whose buffered rows are written out first (11 R277, R280), and, unless
it was stopped, its report (11 R275). -/
def State.bufEnd (s : State) (o : Op) (g : GatWord) (b : Buf) (report : Bool) : State :=
  let scat := o.mn == .scat
  let s := (s.bumpK o.ptn .gseHit b.hits).bumpK o.ptn .gseFetch (b.empty scat).moved
  if report ∧ (s.P o.ptn).hotThresh.toNat < b.best then
    let s := s.bump o.ptn .tblHotCnt 1
    if (s.P o.ptn).cnt[Ctr.tblHotHits.ix].toNat < b.best then
      s.modP o.ptn fun q =>
        { q with cnt := q.cnt.set Ctr.tblHotHits.ix (BitVec.ofNat 32 (min (2 ^ 32 - 1) b.best))
                 hotIdx := BitVec.ofNat 64 (b.bestIx % 2 ^ 40 + g.table * 2 ^ 40 + (!g.bound && !scat).toNat * 2 ^ 46 + scat.toNat * 2 ^ 47) }
    else s
  else s

/-! ## Rows -/

/-- A row written by a SCAT while another writes it holds, byte by byte, the data of either (11 R276). -/
def State.mixRow (s : State) (w : Who) (u : Nat) (bs : List Byte) : State × List Byte :=
  if w.view.isEmpty then (s, bs)
  else
    ({ s with free := s.free + bs.length },
     ((List.range bs.length).zip bs).map fun e => match w.view.lookup (u + e.1) with
       | some v => if Config.freeNat (s.free + e.1) % 2 = 0 then e.2 else v
       | none => e.2)

/-- One index of a GATH or SCAT: the row used, if one is. -/
def gatIx (o : Op) (w : Who) (p : GPrep) (i : Nat) (s : State) : State × Option EngErr × Option Nat :=
  let cb := blkBytes (tFmt o.dB)
  let rb := tblRowBytes p.tbl
  let scat := o.mn == .scat
  let addr := s.utaOf o o.dB (cb * i)
  let ixDep := s.rangeAt o o.dB (cb * i) cb
  let nul (s : State) : State × Option EngErr × Option Nat :=
    if scat then (s, none, none)
    else let r := s.store o w o.rC o.dC (rb * i) (List.replicate rb 0) ixDep; (r.1, r.2, none)
  match s.readAt w o.rB o.dB (cb * i) cb with
  | .error e => (s, some (.exc e), none)
  | .ok ib =>
    match ixOf (tFmt o.dB) (tblRows p.tbl) (ofLe ib) with
    | .reserved => (s, some (.exc (exStruct addr)), none)
    | .null => nul s
    | .range =>
      if p.word.strict then (s, some (.exc { cause := 0x05, dreg := none, addr := some (addr, 0, false) }), none)
      else nul (s.bump o.ptn .tblOor 1)
    | .row r =>
      if scat then
        match s.readAt w o.rA o.dA (rb * i) rb, s.locate w o.rC o.dC (rb * r) rb false true with
        | .ok bs, .ok d =>
          let x := s.mixRow w d.uta bs
          let y := x.1.store o w o.rC o.dC (rb * r) x.2 (ixDep ++ s.rangeAt o o.dA (rb * i) rb)
          (y.1, y.2, some r)
        | .error e, _ => (s, some (.exc e), none)
        | _, .error e => (s, some (.exc e), none)
      else
        match s.readAt w p.r p.tbl (rb * r) rb with
        | .ok bs =>
          let y := s.store o w o.rC o.dC (rb * i) bs (ixDep ++ s.rangeAt o p.tbl (rb * r) rb)
          (y.1, y.2, some r)
        | .error e => (s, some (.exc e), none)

/-- What a GATH or SCAT reads that a running SCAT may write, or that the host may replace: the rows of its table and a bound version block
(11 R267, R276). -/
def State.gatEither (s : State) (o : Op) : List (Nat × Nat) :=
  match gatPrep s (o.who 4) o with
  | .error _ => []
  | .ok p =>
    let slot := match (s.job? o.job).bind fun j => j.tbl.find? (·.1 == p.word.table) with | some e => e.2.toNat | none => 0
    s.rangeAt o p.tbl 0 (tBytes p.tbl)
      ++ (if p.word.bound then [(csTableRoot ((s.P o.ptn).cset o.cfg) + 128 * p.word.table + 64 * slot, 64)] else [])

/-- The work of GATH and SCAT: indices in ascending position, up to one that fails. A unit is one index. -/
def gatWork (o : Op) (s : State) (cut : Option Nat) : State × Option EngErr :=
  let (s, w) := s.chooser o 4 (s.gatEither o)
  match gatPrep s w o with
  | .error e => (s, some (.exc e))
  | .ok p =>
    let rb := tblRowBytes p.tbl
    let scat := o.mn == .scat
    let x := (List.range (tDim o.dB 0)).foldl (fun (x : Run × Buf) i =>
      if x.1.err.isSome ∨ x.1.left = some 0 then x
      else
        let b := if o.cuts.contains i then x.2.empty scat else x.2
        let r := gatIx o w p i x.1.st
        ({ st := r.1, err := r.2.1, left := x.1.left.map (· - 1) }, match r.2.2 with | some k => b.use rb scat k | none => b))
      (({ st := s, err := none, left := cut } : Run), { ents := [], hits := 0, moved := 0, best := 0, bestIx := 0 })
    let r := x.1.result
    (r.1.bufEnd o p.word x.2 cut.isNone, r.2)

end Sys2Proof.Machine
end

