-- ==== Sys2Proof/Machine/Text.lean ====
section
/-! DEFINITION. The text unit (09): UTF-8 checking, segments and merges of TTOK, and the stream records of TDTK. -/

namespace Sys2Proof.Machine

/-! ## UTF-8 (09 R226) -/

/-- What a byte string begins with: a whole well-formed character of `n` bytes, an ill-formed maximal subpart of `n` bytes, or, to
its very end, a valid prefix of `n` bytes. -/
inductive Utf where
  | char (n : Nat)
  | bad (n : Nat)
  | part (n : Nat)
  deriving DecidableEq, Repr

/-- The length a lead byte announces; 0 for a byte that leads nothing. -/
def utfLen (b : Nat) : Nat :=
  if b < 0x80 then 1 else if b < 0xC2 then 0 else if b < 0xE0 then 2 else if b < 0xF0 then 3 else if b < 0xF5 then 4 else 0

/-- The second bytes a lead byte permits: no overlong form, surrogate or value above U+10FFFF. -/
def utfSecond (b c : Nat) : Bool :=
  match b with
  | 0xE0 => 0xA0 ≤ c && c < 0xC0
  | 0xED => 0x80 ≤ c && c < 0xA0
  | 0xF0 => 0x90 ≤ c && c < 0xC0
  | 0xF4 => 0x80 ≤ c && c < 0x90
  | _ => 0x80 ≤ c && c < 0xC0

/-- How many of the next bytes continue a sequence. -/
def utfRun : Nat → List Byte → Nat
  | 0, _ => 0
  | _, [] => 0
  | n + 1, c :: t => if 0x80 ≤ c.toNat ∧ c.toNat < 0xC0 then utfRun n t + 1 else 0

def utfHead (bs : List Byte) : Utf :=
  match bs with
  | [] => .part 0
  | b :: t =>
    let len := utfLen b.toNat
    if len = 0 then .bad 1
    else if len = 1 then .char 1
    else
      let k := match t with
        | [] => 0
        | c :: u => if utfSecond b.toNat c.toNat then utfRun (len - 2) u + 1 else 0
      if k + 1 = len then .char len else if k = t.length then .part (k + 1) else .bad (k + 1)

/-! ## TTOK: the policy word, context and merge table -/

/-- The words of 09 Table 9.1. -/
structure TokWord where
  txu : Nat
  ctx : Nat
  policy : Nat
  first : Bool
  last : Bool

def tokWord (w : Nat) : Option TokWord :=
  if w < 256 ∧ bits w 4 2 < 3 then
    some { txu := bits w 0 2, ctx := bits w 2 2, policy := bits w 4 2, first := w.testBit 6, last := w.testBit 7 }
  else none

/-- The text unit is granted (09 R222, R233). -/
def State.txuOk (s : State) (o : Op) (t : Nat) : Bool := (csTxu ((s.P o.ptn).cset o.cfg)).testBit t

/-- The number of a partition's context on a text unit (09 R224). -/
def ctxIx (p : Fin 16) (c : Nat) : Nat := 4 * p.val + c

def State.ctx (s : State) (t ix : Nat) : Ctx :=
  (s.ctxs.find? fun c => c.txu == t && c.ix == ix).getD { txu := t, ix := ix, carry := [], held := [], off := 0, jobs := [] }

/-- Keep a context; one that holds nothing and is used by no job is not listed. -/
def State.putCtx (s : State) (c : Ctx) : State :=
  let rest := s.ctxs.filter fun x => !(x.txu == c.txu && x.ix == c.ix)
  { s with ctxs := if c.carry = [] ∧ c.held = [] ∧ c.off = 0 ∧ c.jobs = [] then rest else c :: rest }

/-- A merge table as the text unit sees it: its bytes and UTA address (09 Table 9.2). -/
structure MTab where
  mem : Nat → Nat
  len : Nat
  vocab : Nat
  hlog : Nat
  fb : Bool
  fbase : Nat
  mapOff : Nat
  hashOff : Nat

def rd4 (mem : Nat → Nat) (a : Nat) : Nat := mem a + 256 * mem (a + 1) + 65536 * mem (a + 2) + 16777216 * mem (a + 3)

/-- Read the header of a merge table, or none where it breaks a rule (09 R230). -/
def mtabOf (mem : Nat → Nat) (len : Nat) : Option MTab :=
  let vocab := rd4 mem 4
  let nm := rd4 mem 8
  let h := mem 12
  let flags := mem 13
  let fbase := rd4 mem 16
  let mo := rd4 mem 20
  let ho := rd4 mem 24
  let zero := mem 14 == 0 && mem 15 == 0 && (List.range 36).all fun i => mem (28 + i) == 0
  if 64 ≤ len && rd4 mem 0 == 0x314B5458 && 256 ≤ vocab && vocab ≤ 1048576 && 10 ≤ h && h ≤ 24 && flags < 2 && zero
      && nm ≤ 3 * 2 ^ h / 4 && mo % 64 == 0 && ho % 64 == 0 && mo + 1024 ≤ len && ho + 16 * 2 ^ h ≤ len
      && fbase < 2 ^ 20 && (flags == 0 || fbase + 255 < vocab) && (List.range 256).all fun b => rd4 mem (mo + 4 * b) < vocab then
    some { mem := mem, len := len, vocab := vocab, hlog := h, fb := flags == 1, fbase := fbase, mapOff := mo, hashOff := ho }
  else none

/-- A merge found: its result, rank and slot. -/
structure Hit where
  result : Nat
  rank : Nat
  slot : Nat

/-- What a lookup gives: an entry, nothing, or a broken rule at a slot (09 R230, R231; 02 R42 for the token containers). -/
inductive Look where
  | found (h : Hit)
  | miss
  | broken (slot : Nat)

/-- Look on from slot `i`, for at most `fuel` slots; the slots read come with the answer. -/
def lookFrom (m : MTab) (l r : Nat) : Nat → Nat → Look × List Nat
  | 0, i => (.broken i, [])
  | fuel + 1, i =>
    let a := m.hashOff + 16 * i
    let left := rd4 m.mem a
    let right := rd4 m.mem (a + 4)
    let rank := rd4 m.mem (a + 12)
    let res := rd4 m.mem (a + 8)
    if rank = 0xFFFFFFFF then (.miss, [i])
    else if m.vocab ≤ res ∨ 2 ^ 20 ≤ left ∨ 2 ^ 20 ≤ right then (.broken i, [i])
    else if left = l ∧ right = r then (.found { result := res, rank := rank, slot := i }, [i])
    else
      let x := lookFrom m l r fuel ((i + 1) % 2 ^ m.hlog)
      (x.1, i :: x.2)

/-- lookup(l, r) (09 R231). -/
def lookup (m : MTab) (l r : Nat) : Look × List Nat :=
  lookFrom m l r 64 ((l * 0x9E3779B1 + r * 0x85EBCA77) % 2 ^ 32 / 2 ^ (32 - m.hlog))

/-- The best merge of a sequence: lowest rank, leftmost on a tie (09 R229), and the slots read. -/
def bestMerge (m : MTab) : Nat → List Nat → Option (Nat × Hit) → List Nat → Except Nat (Option (Nat × Hit) × List Nat)
  | i, a :: b :: t, best, seen =>
    let x := lookup m a b
    match x.1 with
    | .broken s => .error s
    | .miss => bestMerge m (i + 1) (b :: t) best (x.2 ++ seen)
    | .found h =>
      bestMerge m (i + 1) (b :: t) (match best with | some y => if h.rank < y.2.rank then some (i, h) else best | none => some (i, h))
        (x.2 ++ seen)
  | _, _, best, seen => .ok (best, seen)

/-- Merge a sequence until no pair is found; the slots read come with it. -/
def mergeSeq (m : MTab) : Nat → List Nat → List Nat → Except Nat (List Nat × List Nat)
  | 0, seq, slots => .ok (seq, slots)
  | fuel + 1, seq, slots =>
    match bestMerge m 0 seq none slots with
    | .error s => .error s
    | .ok (none, seen) => .ok (seq, seen)
    | .ok (some (i, h), seen) => mergeSeq m fuel (seq.take i ++ h.result :: seq.drop (i + 2)) seen.dedup

/-! ## TTOK: the scan of a buffer -/

/-- The state of a scan. -/
structure Scan where
  seg : List Byte
  toks : List Nat
  slots : List Nat
  repl : Nat
  subs : Nat
  /-- a merge entry broke a rule: its slot -/
  broken : Option Nat

/-- Close the open segment and emit its tokens (09 R229). -/
def Scan.close (m : MTab) (x : Scan) : Scan :=
  if x.seg.isEmpty then x
  else match mergeSeq m x.seg.length (x.seg.map fun b => rd4 m.mem (m.mapOff + 4 * b.toNat)) [] with
    | .error s => { x with broken := some s }
    | .ok r => { x with seg := [], toks := x.toks ++ r.1, slots := r.2 ++ x.slots }

def opensSeg (c : List Byte) : Bool := match c with | [b] => b == 0x09 || b == 0x0A || b == 0x0D || b == 0x20 | _ => false

/-- Add one character to the open segment (09 R228). -/
def Scan.char (m : MTab) (x : Scan) (c : List Byte) : Scan :=
  let x := if opensSeg c ∨ 1024 < x.seg.length + c.length then x.close m else x
  { x with seg := x.seg ++ c }

/-- A maximal subpart under REPLACE or BYTE (09 R227). -/
def Scan.sub (m : MTab) (x : Scan) (byteFb : Bool) (c : List Byte) : Scan :=
  if byteFb then
    let x := x.close m
    { x with toks := x.toks ++ c.map fun b => m.fbase + b.toNat, repl := x.repl + c.length, subs := x.subs + c.length }
  else { x.char m replBytes with repl := x.repl + 1, subs := x.subs + 1 }

/-- How a scan ends: the carry left, or the position of a rejected subpart. -/
structure ScanEnd where
  x : Scan
  carry : List Byte
  reject : Option Nat

def scan (m : MTab) (w : TokWord) : Nat → List Byte → Nat → Scan → ScanEnd
  | 0, _, _, x => { x := x, carry := [], reject := none }
  | fuel + 1, bs, pos, x =>
    if x.broken.isSome ∨ bs.isEmpty then { x := x, carry := [], reject := none }
    else
      let sub (n : Nat) : ScanEnd :=
        if w.policy = 2 then { x := x, carry := [], reject := some pos }
        else scan m w fuel (bs.drop n) (pos + n) (x.sub m (w.policy == 1) (bs.take n))
      match utfHead bs with
      | .char n => scan m w fuel (bs.drop n) (pos + n) (x.char m (bs.take n))
      | .bad n => sub n
      | .part n => if w.last then sub n else { x := x, carry := bs.take n, reject := none }

/-! ## TTOK -/

/-- The shapes of TTOK's text and of its tokens (09 R223). -/
def ttokTextOk (o : Op) : Bool := tFmt o.dA == fRaw8 && tRank o.dA == 1 && tDim o.dA 0 ≤ 65536
def ttokOutOk (o : Op) : Bool := tFmt o.dC == fU32 && tRank o.dC == 1 && 4 + 3 * (tDim o.dA 0 + 1027) ≤ tDim o.dC 0

/-- The bytes of an operand by offset, zero past its end. -/
def State.opMem (s : State) (w : Who) (r : Fin 16) (b : TDesc) : Nat → Nat :=
  match s.operand w r b true false with
  | .ok l => fun i => if i < tBytes b then ofLe (s.readLoc w (l.plus i) 1) else 0
  | .error _ => fun _ => 0

def ttokStart (s : State) (o : Op) : Except Exc (List (List Byte)) := do
  let w := o.who 7
  checks [descCheck o.rA o.dA, descCheck o.rB o.dB, descCheck o.rC o.dC, need (ttokTextOk o) (exDesc o.rA o.dA), need (ttokOutOk o) (exDesc o.rC o.dC),
    (match tokWord o.sp.toNat with | some t => need (s.txuOk o t.txu) exReserved | none => some exReserved),
    errOf (s.operand w o.rA o.dA true false), errOf (s.operand w o.rB o.dB true false), errOf (s.operand w o.rC o.dC false true),
    s.goodCheck w o.rA o.dA, s.goodCheck w o.rB o.dB]
  match mtabOf (s.opMem w o.rB o.dB) (tBytes o.dB), tokWord o.sp.toNat with
  | some m, some t =>
    if t.policy = 1 ∧ !m.fb then .error (exStruct (s.utaOf o o.dB 0)) else return [[], [], []]
  | _, _ => .error (exStruct (s.utaOf o o.dB 0))

/-- Note the merge entries a text unit now caches: 8 MiB of 16-byte entries (09 R232). -/
def State.cacheMerges (s : State) (t : Nat) (p : Fin 16) (uta : Nat) (slots : List Nat) : State :=
  let new := slots.dedup.map fun i => ({ txu := t, ptn := p, uta := uta, slot := i } : MergeTag)
  let rest := s.merges.filter fun m => !new.contains m
  let mine := rest.filter (·.txu == t)
  let n := mine.length - (524288 - new.length)
  { s with merges := new ++ evict n s.free mine ++ rest.filter (·.txu != t), free := s.free + n }

/-- The work of TTOK: the tokens of the closed segments are written after the header, and the context kept (09 R223-R231). Cut short, it
has written so many tokens and no header (log 59). A merge table written meanwhile is read as either contents (09 R232). -/
def ttokWork (o : Op) (s : State) (cut : Option Nat) : State × Option EngErr :=
  let (s, who) := s.chooser o 7 (s.rangeAt o o.dB 0 (tBytes o.dB))
  match tokWord o.sp.toNat, mtabOf (s.opMem who o.rB o.dB) (tBytes o.dB) with
  | some w, some m =>
    let ix := ctxIx o.ptn w.ctx
    let old := s.ctx w.txu ix
    let s := if w.first ∧ (old.carry ≠ [] ∨ old.held ≠ []) then s.bump o.ptn .txuCtxDrop 1 else s
    let old := { old with jobs := (o.job :: old.jobs).dedup }
    let c := if w.first then { old with carry := [], held := [], off := 0 } else old
    -- R224: a job that fails here has used the context, and its end empties it
    let s := s.putCtx c
    match s.readAt who o.rA o.dA 0 (tBytes o.dA) with
    | .error e => (s, some (.exc e))
    | .ok buf =>
      let bs := c.carry ++ buf
      let e := scan m w (bs.length + 1) bs 0 { seg := c.held, toks := [], slots := [], repl := 0, subs := 0, broken := none }
      let x := if e.reject.isNone ∧ w.last then e.x.close m else e.x
      let dep := s.rangeAt o o.dA 0 (tBytes o.dA)
      match cut with
      | some k =>
        ((if k = 0 then s else s.putAt o who o.rC o.dC 16 ((x.toks.take k).flatMap (leBytes 4)) dep), none)
      | none =>
        match x.broken with
        | some slot => (s, some (.exc (exStruct (s.utaOf o o.dB (m.hashOff + 16 * slot)))))
        | none =>
          let consumed := match e.reject with | some p => p - c.carry.length | none => buf.length
          let out := ([x.toks.length, consumed, e.reject.isSome.toNat, x.repl] ++ x.toks).flatMap (leBytes 4)
          match s.store o who o.rC o.dC 0 out dep with
          | (s, some e) => (s, some e)
          | (s, none) =>
            let s := (s.cacheMerges w.txu o.ptn (s.utaOf o o.dB 0) x.slots).bump o.ptn (if w.policy = 1 then .txuFb else .txuRepl) x.subs
            match e.reject with
            | some p => (s.bump o.ptn .txuReject 1, some (.data 1 (c.off - c.carry.length + p)))
            | none =>
              (s.putCtx (if w.last then { c with carry := [], held := [], off := 0 }
                else { c with carry := e.carry, held := x.seg, off := c.off + buf.length }), none)
  | _, _ => (s, some (.exc (exStruct (s.utaOf o o.dB 0))))

/-! ## TDTK -/

/-- The word of 09 Table 9.4. -/
structure DtkWord where
  ring : Nat
  chan : Nat
  txu : Nat
  last : Bool
  kind : Bool

def dtkWord (w : Nat) : Option DtkWord :=
  if w < 2 ^ 20 then some { ring := bits w 0 4, chan := bits w 4 12, txu := bits w 16 2, last := w.testBit 18, kind := w.testBit 19 }
  else none

def tdtkStart (s : State) (o : Op) : Except Exc (List (List Byte)) := do
  let w := o.who 7
  checks [descCheck o.rA o.dA, descCheck o.rB o.dB, need (tFmt o.dA == fU32 && tRank o.dA == 1) (exDesc o.rA o.dA),
    (match dtkWord o.sp.toNat with
     | some t => need (s.txuOk o t.txu && csChan ((s.P o.ptn).cset o.cfg) t.chan && (s.P o.ptn).sr[ring16 t.ring].en) exReserved
     | none => some exReserved),
    errOf (s.operand w o.rA o.dA true false), errOf (s.operand w o.rB o.dB true false),
    s.goodCheck w o.rA o.dA, s.goodCheck w o.rB o.dB]
  return [[], [], []]

/-- A vocabulary: its size and pool length, or none where its header breaks a rule (09 Table 9.5). -/
def vocabOf (mem : Nat → Nat) (len : Nat) : Option (Nat × Nat) :=
  let v := rd4 mem 4
  let p := rd4 mem 8
  if rd4 mem 0 = 0x31565458 ∧ 1 ≤ v ∧ v ≤ 1048576 ∧ p ≤ 16777216 ∧ rd4 mem 12 = 0 ∧ 16 + 4 * v + p ≤ len then some (v, p) else none

/-- The strings of tokens, or the offset of the structure at fault: the token's own container is `none` (09 R234). -/
def tokStrings (mem : Nat → Nat) (v p : Nat) : List Nat → Nat → Except (Option Nat × Nat) (List Byte)
  | [], _ => .ok []
  | t :: rest, i =>
    if v ≤ t then .error (none, i)
    else
      let e := rd4 mem (16 + 4 * t)
      let off := e % 2 ^ 24
      let len := e / 2 ^ 24
      if p < off + len then .error (some (16 + 4 * t), i)
      else (tokStrings mem v p rest (i + 1)).map fun l =>
        ((List.range len).map fun k => BitVec.ofNat 8 (mem (16 + 4 * v + off + k))) ++ l

/-- Complete characters of an output stream, how many subparts were replaced, and the prefix withheld. -/
def outChars : Nat → List Byte → List (List Byte) × Nat × List Byte
  | 0, _ => ([], 0, [])
  | fuel + 1, bs =>
    match utfHead bs with
    | .part n => ([], 0, bs.take n)
    | .char n => let r := outChars fuel (bs.drop n); (bs.take n :: r.1, r.2)
    | .bad n => let r := outChars fuel (bs.drop n); (replBytes :: r.1, r.2.1 + 1, r.2.2)

/-- Pack characters into payloads of at most 48 bytes (09 R235). -/
def packRecs : List (List Byte) → List Byte → List (List Byte)
  | [], cur => if cur.isEmpty then [] else [cur]
  | c :: t, cur => if 48 < cur.length + c.length then cur :: packRecs t c else packRecs t (cur ++ c)

/-- A record to be queued: whether it carries tokens, whether it carries flushed bytes, its payload. -/
structure DtkRec where
  kind : Bool
  flush : Bool
  pay : List Byte

/-- Queue the records of an operation: SEQ counts on, the last has END at LAST, and a flushed record that a ring takes is counted (09
R235, R236). -/
def State.putRecs (s : State) (j : Job) (w : DtkWord) (op : Nat) : List DtkRec → Nat → State
  | [], _ => s
  | p :: t, seq =>
    let k := p.kind.toNat + (if t.isEmpty ∧ w.last then 4 else 0) + (if p.flush then 8 else 0)
    let s := if p.flush && s.streamOn j.ptn (ring16 w.ring) then s.bump j.ptn .txuFlush 1 else s
    (s.putStream j.ptn (ring16 w.ring) (some op) (streamRec (dTag j.desc) w.chan seq k p.pay)).putRecs j w op t (seq + 1)

/-- What a TDTK gives out: its records, the bytes withheld, and the subparts replaced (09 R234-R236). `whole` is false for one cut short,
which writes only records that further characters have closed. -/
def dtkRecs (d : Dtk) (w : DtkWord) (toks : List Nat) (strs : List Byte) (whole : Bool) : List DtkRec × List Byte × Nat :=
  let last := w.last && whole
  if w.kind then
    let l := ((List.range (divUp toks.length 12)).map fun i => ((toks.drop (12 * i)).take 12).flatMap (leBytes 4)).map
      fun p => ({ kind := true, flush := false, pay := p } : DtkRec)
    let l := if whole then l else l.take (toks.length / 12)
    -- bytes an earlier text operation withheld are flushed ahead of the tokens (log 58)
    let l := if last ∧ d.withheld ≠ [] then { kind := false, flush := true, pay := replBytes } :: l else l
    (if l.isEmpty ∧ last then [{ kind := true, flush := false, pay := [] }] else l, if last then [] else d.withheld, 0)
  else
    let bs := d.withheld ++ strs
    let r := outChars (bs.length + 1) bs
    let flush := last && !r.2.2.isEmpty
    let l := packRecs (if flush then r.1 ++ [replBytes] else r.1) []
    let l := if whole then l else l.dropLast
    let l := if l.isEmpty ∧ last then [[]] else l
    (((List.range l.length).zip l).map fun e => { kind := false, flush := flush && e.1 + 1 == l.length, pay := e.2 },
     if last then [] else r.2.2, r.2.1)

/-- The work of TDTK: its records are formed and queued. Cut short, it has taken in so many tokens (log 59). Its records are undefined
where its tokens or vocabulary were written meanwhile (06 R162). -/
def tdtkWork (o : Op) (s : State) (cut : Option Nat) : State × Option EngErr :=
  let who := s.asker o 7
  match dtkWord o.sp.toNat, s.job? o.job with
  | some w, some j =>
    let d := s.dtk w.chan o.ptn
    match s.readAt who o.rA o.dA 0 (tBytes o.dA), s.sound who (some o.rB) (match s.operand who o.rB o.dB true false with
        | .ok l => l | .error _ => .arg 0) (tBytes o.dB) with
    | .error e, _ => (s, some (.exc e))
    | .ok _, some e => (s, some (.exc e))
    | .ok ab, none =>
      let toks := (List.range (tDim o.dA 0)).map fun i => sliceLe ab (4 * i) 4
      let toks := match cut with | some k => toks.take k | none => toks
      let bad := (s.rangeAt o o.dA 0 (tBytes o.dA) ++ s.rangeAt o o.dB 0 (tBytes o.dB)).any fun r => who.bad.any (meets r)
      let go (strs : List Byte) : State × Option EngErr :=
        let r := dtkRecs d w toks strs cut.isNone
        let x := r.1.foldl (fun (x : State × List DtkRec) p =>
          let b := x.1.blur 0 bad [] p.pay; (b.1, x.2 ++ [{ p with pay := b.2 }])) (s, [])
        let s := (x.1.bump o.ptn .txuDtkRepl r.2.2).modJob j.id fun j =>
          { j with chans := (if w.last ∧ cut.isNone then [] else [(w.chan, w.ring)]) ++ j.chans.filter (·.1 != w.chan) }
        ((s.putRecs j w o.id x.2 d.seq.toNat).putDtk { d with withheld := r.2.1, seq := d.seq + BitVec.ofNat 16 x.2.length }, none)
      match toks.findIdx? (fun t => 2 ^ 20 ≤ t) with
      | some i => (s, some (.exc (exStruct (s.utaOf o o.dA (4 * i)))))
      | none =>
        if w.kind then go []
        else
          match vocabOf (s.opMem who o.rB o.dB) (tBytes o.dB) with
          | none => (s, some (.exc (exStruct (s.utaOf o o.dB 0))))
          | some (v, p) =>
            match tokStrings (s.opMem who o.rB o.dB) v p toks 0 with
            | .error (some off, _) => (s, some (.exc (exStruct (s.utaOf o o.dB off))))
            | .error (none, i) => (s, some (.exc (exStruct (s.utaOf o o.dA (4 * i)))))
            | .ok strs => go strs
  | _, _ => (s, some (.exc exReserved))

/-- Records of a TDTK are still to be written: its work is done (09 R235). -/
def State.dtkQueued (s : State) (o : Op) : Bool :=
  (s.P o.ptn).sr.any (fun r => r.outq.any fun x => x.op == some o.id) || s.xfers.any fun x => x.op == some o.id

end Sys2Proof.Machine
end

