-- ==== Sys2Proof/Machine/Work.lean ====
section
/-! DEFINITION. The work of each engine operation, whole or cut short, and the operation that is stopped: it has done a part that the spec
bounds by its slices and leaves open otherwise (05 R137; 06 R163; 10 R261; 11 R277; 12 R303; 13 R322; log 61). -/

namespace Sys2Proof.Machine

/-- The work of an operation, to its end or through `cut` of its units. What a transfer from host memory brings is the completion's own
operand, so here a whole MCONV or HRD does nothing. -/
def opWork (o : Op) (s : State) (cut : Option Nat) : State × Option EngErr :=
  match o.mn with
  | .xmul => xmulWork o s cut
  | .mvmul => mvmulWork o s cut
  | .topk => topkWork o s cut
  | .lscan => lscanWork o s cut
  | .gath | .scat => gatWork o s cut
  | .kvcmp => compactWork o s cut
  | .samp => sampWork o s cut
  | .ttok => ttokWork o s cut
  | .tdtk => tdtkWork o s cut
  | .mconv => (match cut with | some k => mconvCut o s k | none => s, none)
  | .hrd => (match cut with | some k => hrdCut o s k | none => s, none)
  | .hwr | .rsend | .rrecv | .rreduce => (s, none)

/-- An operation's work is already done: a TDTK whose records wait to be written, an MCONV whose output is on its way to T2. -/
def State.workDone (s : State) (o : Op) : Bool :=
  (o.mn == .tdtk && s.dtkQueued o) || (o.mn == .mconv && s.xfers.any fun x => x.op == some o.id && x.write)

/-- An operation has done so much of its work as a free number says. -/
def State.cutOp (s : State) (o : Op) : State :=
  (opWork o { s with free := s.free + 1 } (some (Config.freeNat s.free))).1

/-- A started operation stops: what it has done stays, and its time on its unit is counted. -/
def State.stopOp (s : State) (o : Op) : State := if o.started && !s.workDone o then (s.cutOp o).charge o else s

end Sys2Proof.Machine
end

