-- ==== Sys2Proof/Machine/Jobs.lean ====
section
/-! DEFINITION. The ends of a job, a partition and the device: final completion (03 R67, 04 R97-R107), stream END records (09
R236), release of dropped resources (08 R209), the fence (08 R211), the device-fatal stop (18 R430), and containment of a
record by its severity (18 R416). -/

namespace Sys2Proof.Machine

/-! ## Records to the host -/

/-- Queue a record for a completion ring: dropped when the ring is disabled or broken (03 R523). -/
def State.putCr (s : State) (p : Fin 16) (r : Fin 8) (o : RecOut) : State :=
  let c := (s.P p).cr[r]
  if c.en ∧ !c.wfail then s.modP p fun q => q.modCr r fun c => { c with outq := c.outq ++ [o] } else s.crDone o

/-! ## Work units -/

/-- CCLK cycles of every cluster the job holds, summed, in tenths (04 R86). -/
def State.jobCyc10 (s : State) (j : Job) : Nat := if j.ph = .running then j.clusters.length * (s.clk.cyc10 - j.startCyc) else 0

def State.wuUsed (s : State) (j : Job) : Nat := divUp (s.jobCyc10 j) 15000

/-! ## Final statuses (04 Table 4.4) -/

def stOk : Nat := 0x00
def stTruncated : Nat := 0x01
def stExhausted : Nat := 0x02
def stFault : Nat := 0x10
def stDeadline : Nat := 0x11
def stCancelled : Nat := 0x12
def stError : Nat := 0x13
def stFenced : Nat := 0x20
def stDevice : Nat := 0x30

/-- The final completion record (03 Tables 3.6, 3.7); the TIME and PHASE are set when it is written. -/
def finalRec (s : State) (j : Job) (code errSeq : Nat) : BitVec 512 :=
  let ok := code < 0x10
  BitVec.ofNat 512 (dTag j.desc + 2 * 2 ^ 64 + code * 2 ^ 72 + j.ring.val * 2 ^ 80 + j.slot % 4096 * 2 ^ 96
    + (if j.ph = .running then j.start.toNat else 0) * 2 ^ 192 + s.wuUsed j % 2 ^ 32 * 2 ^ 256
    + (if ok then j.resultLen.toNat else 0) * 2 ^ 288 + (if ok then j.result.toNat else 0) * 2 ^ 320 + errSeq % 2 ^ 32 * 2 ^ 448)

/-! ## Ring transfers of a job -/

/-- Open transfers of operations end with a reason, and their partners are told (17 R402, R410). -/
def State.failXfers (s : State) (ops : List Nat) (reason : Nat) : State :=
  let tx := s.ringl.tx.filter fun t => ops.contains t.op
  let rx := s.ringl.rx.filter fun t => !t.done && ops.contains t.op
  let s := { s with ringl := { s.ringl with tx := s.ringl.tx.filter fun t => !ops.contains t.op
                                            rx := s.ringl.rx.filter fun t => t.done || !ops.contains t.op } }
  let s := s.each tx fun s t => (s.sendRefuse t.dst.toNat t.ptn.val t.dptn.val t.xid.toNat reason).bump t.ptn .ringLost 1
  s.each rx fun s t => (s.sendRefuse t.src.toNat t.ptn.val t.sptn.val t.xid.toNat reason).bump t.ptn .ringLost 1

/-! ## Stopping a job -/

/-- The clusters of a job stop and are free (05 R137, R142). -/
def Cluster.stop (k : Cluster) : Cluster := { k with job := none, stall := .none, ended := false }

/-- Release the faults a job holds; its other transfers end with it (07 R195). A load that another PIN waits for goes on. -/
def State.endXfers (s : State) (j : Job) : State :=
  let own := s.xfers.filter fun x => x.job == some j.id
  s.each own fun s x =>
    let held := match x.st with | .held _ _ => true | .heldUnrec _ _ => true | _ => false
    if x.chan = 0 then
      if held then
        if (s.P x.ptn).waits.any fun w => !w.unpin && w.job != j.id && w.bases.contains x.base then
          s.modX x.id fun y => { y with st := .walking, job := none }
        else (s.delX x.id).abortLoad x.ptn x.base
      else s.modX x.id fun y => { y with job := none }
    else if x.chan = 1 then
      if held then (s.delX x.id).abortWb x.ptn x.base else s.modX x.id fun y => { y with job := none }
    else s.delX x.id

/-- The first waiting pin of a job goes. -/
def clearPin (id : Nat) : List NextMv → List NextMv
  | [] => []
  | n :: t => if n.pinJob = some id then { n with pinJob := none } :: t else n :: clearPin id t

/-- One pin of an ended job falls: at once, or when the load in progress completes; one that has still to be added never is
(05 R125; 07 R195). -/
def State.endPin (s : State) (p : Fin 16) (id base : Nat) : State :=
  match (s.P p).tensor base with
  | none => s
  | some t =>
    if t.next.any (·.pinJob == some id) then s.modTensor p base fun t => { t with next := clearPin id t.next }
    else if t.moving = some .load then s.modTensor p base fun t => { t with drop := t.drop + 1 }
    else s.unpinOne p base

/-- A job's pins are released, and its waits for tensors end. -/
def State.endPins (s : State) (j : Job) : State :=
  (s.each j.pins fun s b => s.endPin j.ptn j.id b).modP j.ptn fun q => { q with waits := q.waits.filter (·.job != j.id) }

/-- The end of a job empties every context it used (09 R224); one that no other job used either is no longer listed. -/
def Ctx.leave (c : Ctx) (id : Nat) : Option Ctx :=
  if c.jobs.contains id then
    let l := c.jobs.erase id
    if l.isEmpty then none else some { c with carry := [], held := [], off := 0, jobs := l }
  else some c

/-- A job that is deferred, admitted or running. The first to reach its final decision point decides its status (04 R105). -/
def State.liveJob (s : State) (id : Nat) : Option Job := (s.job? id).filter fun j => j.ph != .ended

/-- End a job with a status: its conductors stop, its queued operations are discarded, its pins and reservations are released,
and its final record is queued (04 R97, R98; 05 R125, R137; 03 R67). -/
def State.endJob (s : State) (id code errSeq : Nat) : State :=
  match s.liveJob id with
  | none => s
  | some j =>
    let rec_ := finalRec s j code errSeq
    let wu := s.wuUsed j
    -- R137: operations under way end at their present slice
    let s := s.each (s.ops.filter (·.job == id)) State.stopOp
    let s := s.each j.clusters State.noteStall
    let chans := match s.job? id with | some j => j.chans | none => []
    let s := s.failXfers ((s.ops.filter (·.job == id)).map (·.id)) (if code = stFenced then 3 else 4)
    let s := if code = stDeadline ∨ code = stCancelled ∨ code = stFenced then s.each chans fun s c => s.endStream j c.1 c.2 else s
    let s := { s with
      ops := s.ops.filter (·.job != id)
      cl := s.cl.map fun (k : Cluster) => if k.job = some id then k.stop else k
      ctxs := s.ctxs.filterMap fun (c : Ctx) => c.leave id }
    let s := s.modP j.ptn fun q => { q with sr := q.sr.map fun (r : PRing) => { r with outq := r.outq.map fun (o : RecOut) =>
      if (o.op.bind s.op?).isNone then { o with op := none } else o } }
    let s := match s.job? id with | some j => ((s.endXfers j).endPins j).giveBack j.ptn (j.resT0 ++ j.argT0 ++ j.resT1) | none => s
    let s := s.modJob id fun j =>
      { j with ph := .ended, clusters := [], resT0 := [], argT0 := [], resT1 := [], resKv := 0, resBuf := 0, argReady := false, arg := []
               pins := [], chans := [] }
    let s := if dWork j.desc < wu then s.bump j.ptn .wuOverrun 1 else s
    let s := if code = stDeadline then s.bump j.ptn .dlMiss 1 else s
    ((((s.unbound j.ptn j.cfg).putCr j.ptn j.ring { data := rec_, op := some (id + 1) }).promoteFault j.ptn)).settle

/-! ## Fence -/

/-- A write-back that a fence ends goes no further than a boundary (07 R196). -/
def Xfer.curtail (x : Xfer) (n : Nat) : Xfer := { x with len := min x.len n, live := false, job := none }

/-- A fence during a swap moves it to WAIT_FENCE with its claims, a reset cancels it (08 R215). -/
def Swap.fence (w : Swap) (reset : Bool) : Swap :=
  match w.st with
  | .validating | .waitResource | .pending =>
    if reset then { w with st := .refused, reason := 8, claims := false, began := false } else { w with st := .waitFence }
  | .waitFence => if reset then { w with st := .refused, reason := 8, claims := false, began := false } else w
  | _ => w

/-- The FENCED, FENCING and swap effects of the start of a fence (08 R211, R215). `zero` is false in the shutdown sequence (20
R475). -/
def State.fenceBody (s : State) (p : Fin 16) (cause : Nat) (errSeq : Nat) (zero reset : Bool) : State :=
  let q := s.P p
  let t0 := s.owns p csT0
  let t1 := s.owns p csT1
  let ta := s.owns p csTallies
  let cl := s.owns p csClusters
  let s := s.modP p fun q => { q with
    fencing := true, fenced := false, fenceCause := BitVec.ofNat 4 cause, resetting := reset
    -- R218: the fence's zeroing is that of what the partition is releasing
    swap := { q.swap.fence reset with asked := true } }
  let s := s.each ((s.jobs.filter (·.ptn == p)).map (·.id)) fun s id => s.endJob id stFenced errSeq
  -- R196: moves end, a write-back at its next 64 KiB boundary; held faults are released; ring accesses start again
  let s := { s with xfers := s.xfers.filterMap fun (x : Xfer) =>
      if x.ptn ≠ p then some x
      else if x.chan = 1 ∧ x.st = XSt.walking ∧ x.done % 65536 ≠ 0 then some (x.curtail (divUp x.done 65536 * 65536))
      else if x.chan = 5 ∨ x.chan = 7 ∨ x.chan = 8 ∨ x.chan = 9 then
        (match x.st with | .held _ _ => some { x with st := .walking } | .heldUnrec _ _ => some { x with st := .walking } | _ => some x)
      else if x.chan = 10 then (match x.st with | .held _ _ => none | .heldUnrec _ _ => none | _ => some x)
      else none }
  let s := s.closeChans p fun _ => true
  let s := s.each (s.ringl.reqs.filter (·.dptn == p)) fun s r => s.sendRefuse r.src.toNat p.val r.sptn.val r.xid.toNat 3
  let s := { s with ctxs := s.ctxs.filter fun (c : Ctx) => c.ix / 4 != p.val
                    luts := s.luts.filter (·.ptn != p)
                    merges := s.merges.filter (·.ptn != p)
                    ringl := { s.ringl with reqs := s.ringl.reqs.filter (·.dptn != p) } }
  let s := s.modP p fun q => { q with
    csLoaded := 0, csBusy := false, tdWait := none, tdBusy := false, waits := []
    dir := q.dir.map fun t => { t with moving := none, dest := [], next := [], cause := none }
    zero := if zero then q.zero.filter (·.why != .create) ++ [zeroOf t0 t1 ta cl (if reset then .reset else .fence)] else q.zero }
  s

/-- Records of a partition error ring that a held write blocks go to the log when a fence releases the fault (18 R432). -/
def State.dropHeldEr (s : State) (p : Fin 16) : State :=
  if s.erHeld (some p) then
    { s with xfers := s.xfers.filter fun x => !(x.ptn == p && x.chan == 10) }.dropQueue (some p) false
  else s

/-- Fence a partition, unless a fence is in force (08 R211; a second fence changes nothing, log 10). -/
def State.fencePtn (s : State) (p : Fin 16) (cause errSeq : Nat) : State :=
  if (s.P p).fencing || (s.P p).fenced then s else (s.dropHeldEr p).fenceBody p cause errSeq true false

/-! ## Device-fatal stop and the start of shutdown -/

/-- A trigger of 20 Table 20.5: the first is CAUSE; each later one sets its bit in TRIGGERS (20 R474, R476). -/
def State.noteTrigger (s : State) (cause : Nat) : State :=
  { s with pwr :=
    if s.pwr.st = .shuttingDown then { s.pwr with triggers := s.pwr.triggers ||| BitVec.ofNat 6 (2 ^ (cause - 1)) }
    else { s.pwr with st := .shuttingDown, sdCause := BitVec.ofNat 3 cause, triggers := 0
                      supplyReturned := false, leaveTimeout := false } }

/-- The device stops on its first S4 (18 R430): the ledger freezes, the drives are removed, admission, conductors and engines
stop, every admitted and deferred job gets a DEVICE_ERROR record, and shutdown begins with cause 5. -/
def State.fatal (s : State) (gseq : W32) : State :=
  let s := { s.freeze with err := { s.err with fatal := true, fatalNs := s.clk.ns } }
  let s := (s.dropDrive 0 4).dropDrive 1 4
  let s := s.each (s.jobs.map (·.id)) fun s id => s.endJob id stDevice gseq.toNat
  (s.noteTrigger 5).pumpAll

/-! ## Containment -/

/-- Containment of an issued record (18 R416): S2 ends the job it names, S3 fences the partition it names, S4 stops the device. -/
def State.contain (i : Issued) (p : Option (Fin 16)) (job : Option Nat) (code cause : Nat) : State :=
  match i.sev with
  | 4 => i.st.fatal i.gseq
  | 3 =>
    -- a job whose S2 record was escalated has ended already (18 Worked case)
    let s := match job with
      | some id => i.st.endJob id code i.pseq.toNat
      | none => i.st
    match p with
    | some p => s.fencePtn p cause i.pseq.toNat
    | none => s
  | 2 => match job with
    | some id => i.st.endJob id code i.pseq.toNat
    | none => i.st
  | _ =>
    -- a record that R433 or R430 kept back still ends the job it would have named
    match job with
    | some id => i.st.endJob id code i.pseq.toNat
    | none => i.st

/-- Issue a record and contain it. -/
def State.report (s : State) (r : Rec) (job : Option Nat) (code : Nat) : State :=
  let r := match job.bind s.job? with
    | some j => { r with ptn := some j.ptn, job := some (j.ring.val, j.slot) }
    | none => r
  (State.contain (s.issue r) r.ptn job code 2).pumpAll

/-- A job fails with an S2 record (18 R416) and JOB_ERROR. -/
def State.failJob (s : State) (id : Nat) (r : Rec) : State := s.report { r with sev := 2 } (some id) stError

end Sys2Proof.Machine
end

