-- ==== Sys2Proof/Machine/Conduct.lean ====
section
/-! DEFINITION. The conductor: register access (05 R111), exceptions (05 R137), trace (22 R513), and the issue of one
instruction (05 R113, R114). -/

namespace Sys2Proof.Machine

/-! ## Registers: s0 reads as zero and p0 as one; writes to them are discarded (05 R111) -/

def Cluster.rs (k : Cluster) (r : Fin 32) : W64 := if r = 0 then 0 else k.s[r]

def Cluster.ws (k : Cluster) (r : Fin 32) (v : W64) : Cluster := if r = 0 then k else { k with s := k.s.set r v }

def Cluster.rp (k : Cluster) (r : Fin 8) : Bool := if r = 0 then true else k.p[r]

def Cluster.wp (k : Cluster) (r : Fin 8) (v : Bool) : Cluster := if r = 0 then k else { k with p := k.p.set r v }

def Cluster.wv (k : Cluster) (r : Fin 32) (v : BitVec 2048) : Cluster := { k with v := k.v.set r v }

def Cluster.wd (k : Cluster) (r : Fin 16) (v : BitVec 256) : Cluster := { k with d := k.d.set r v }

/-! ## Exceptions -/

/-- An entry of the trace buffer (22 R513). -/
def State.trace (s : State) (c : Fin 32) (src dst : Nat) : State :=
  if bit s.dbg.traceEn c.val then
    s.modC c fun k =>
      let dt := min (2 ^ 32 - 1) ((s.clk.cyc10 - k.traceCyc) / 10)
      { k with trace := sput 0 k.trace (k.traceTotal.toNat % 1024) (BitVec.ofNat 64 (src % 65536 + dst % 65536 * 65536 + dt * 2 ^ 32))
               traceTotal := k.traceTotal + 1, traceCyc := s.clk.cyc10 }
  else s

/-- A job's exception (05 R137): counted, traced, recorded; the job ends JOB_ERROR. -/
def State.except (s : State) (job : Nat) (p : Fin 16) (unit : Nat) (c : Fin 32) (pc : W16) (w1 w2 : W32) (e : Exc) : State :=
  let s := (s.bump p .cndExc 1).trace c pc.toNat 0xFFFF
  let s := s.modP p fun q => { q with excCause := BitVec.ofNat 8 e.cause, excCluster := BitVec.ofNat 5 c.val, excPc := pc }
  s.failJob job (excRec unit c pc w1 w2 e)

/-! ## How an operation ends -/

/-- The reporting unit of an operation (18 Table 18.4). -/
def State.opUnit (s : State) (o : Op) : Nat :=
  match o.k with
  | .mxa | .mvp | .ssu => o.c.val
  | .lse => 0x20 + o.run.getD (4 * dieOfCluster o.c)
  | .gse => 0x30 + o.run.getD (2 * dieOfCluster o.c)
  | .smu => 0x38 + dieOfCluster o.c
  | .mge => 0x3C + dieOfCluster o.c
  | .txu => 0x40 + o.run.getD 0
  | .hdma => unitIo (s.dmaIo o.ptn o.cfg)
  | .vc1 | .vc2 => unitRing

/-- The registers that note an exception of an operation (05 R137, R145). -/
def State.noteExc (s : State) (o : Op) (cause : Nat) : State :=
  ((s.bump o.ptn .cndExc 1).trace o.c o.pc.toNat 0xFFFF).modP o.ptn fun q =>
    { q with excCause := BitVec.ofNat 8 cause, excCluster := BitVec.ofNat 5 o.c.val, excPc := o.pc }

/-- An operation's exception (05 R137): counted, recorded with the PC that issued it; the job ends JOB_ERROR. -/
def State.opExcept (s : State) (o : Op) (e : Exc) : State :=
  (s.noteExc o e.cause).failJob o.job (excRec (s.opUnit o) o.c o.pc o.w1 o.w2 e)

/-- The operation fails its job. What it did stands, and the end of the job stops it no second time. A transfer fails with cause ENGINE_DATA, and
TALLY_RANGE for reason 8; its TRANSFER record names the reason (17 R402; 18 Table 18.5; log 80). -/
def State.opFail (s : State) (o : Op) (e : EngErr) : State :=
  let s := (s.charge o).modOp o.id fun x => { x with cbs := [] }
  match e with
  | .exc e => s.opExcept o e
  | .data c d => s.failJob o.job (jobData c d (s.opUnit o))
  | .xfer c xid partner sender =>
    (s.noteExc o (if c = 8 then 0x07 else 0x0A)).failJob o.job { recOf 2 5 c unitRing with detail := xferDetail xid partner sender }

/-- MCONVs that met a NaN or another error, and whose blocks before it are in T2, fail their jobs (02 R53). -/
def State.failDoomed (s : State) : State :=
  s.each (s.ops.filter fun o => o.doom.isSome && !s.xfers.any fun x => x.op == some o.id && x.write) fun s o =>
    match o.doom with | some e => s.opFail o e | none => s

/-! ## Errors of memories and stores -/

/-- The partition whose grant holds a granule (07 R167). -/
def State.granHolder (s : State) (t1 : Bool) (g : Nat) : Option (Fin 16) :=
  (List.finRange 16).find? fun p => (s.owns p (if t1 then csT1 else csT0)).testBit g

/-- DETAIL of a MEMORY record: TIER, granule, byte offset (18 Table 18.5). -/
def memDetail (t1 : Bool) (g off : Nat) : Nat := t1.toNat + g % 65536 * 2 ^ 8 + off % 2 ^ 32 * 2 ^ 24

/-- A MEMORY record that names no job. -/
def memRec (sev cause unit detail : Nat) (p : Option (Fin 16)) : Rec := { recOf sev 6 cause unit with detail := detail, ptn := p }

/-- A granule of the package, and an offset within it. -/
def State.granOk (s : State) (t1 : Bool) (g off : Nat) : Bool := g < (if t1 then s.fuses.nGran else 96) && off < granFrames t1 * 4096

/-- An access meets an error of a memory, store or cache: a corrected one is reported (07 R167), a cached entry is fetched again (09
R241, 10 R262, 11 R278, 13 R323), a unit or an image buffer is bad from then on (07 R197, 08 R219), and an error in a directory granule or in a
channel's state fences its partition (07 R197, 12 R306; the reporting unit of the last is the model's, log 62). One whose place does not exist is
none. -/
def State.meet1 (s : State) (m : MemEv) : State :=
  match m with
  | .corrected t1 g off =>
    if s.granOk t1 g.val off.toNat then
      s.report (memRec 1 (if t1 then 2 else 1) (0x50 + s.dieOf (t1, g.val)) (memDetail t1 g.val off.toNat) (s.granHolder t1 g.val)) none 0
    else s
  | .refetched u t1 g off =>
    if s.granOk t1 g.val off.toNat then s.report (memRec 1 3 u.toNat (memDetail t1 g.val off.toNat) (s.granHolder t1 g.val)) none 0 else s
  | .uncorrectable p u =>
    if ((s.P p).tensorAt (u * 64)).any (·.tier != 2) then
      s.modP p fun q => { q with bad := if q.bad.contains u then q.bad else u :: q.bad }
    else s
  | .directory p off =>
    let g := csTdGranule (s.P p).act
    if (s.P p).activeValid && off.toNat < 32 * csTdCap (s.P p).act then
      s.report (memRec 3 4 (0x50 + s.dieOf (true, g)) (memDetail true g off.toNat) (some p)) none 0
    else s
  | .channel n =>
    match s.chans.find? (·.1 == n.toNat) with
    | some c => s.report (memRec 3 5 0x46 n.toNat (some c.2.ptn)) none 0
    | none => s
  | .image p cfg => s.modP p fun q => q.setImg cfg { q.img cfg with bad := (q.img cfg).bad || (q.img cfg).valid }

/-- The errors that the accesses of a command meet, in their order; a device that is not running accesses nothing. -/
def State.meet (s : State) (l : List MemEv) : State := if s.running then s.each l State.meet1 else s

/-! ## Issue -/

/-- What an instruction does to its conductor. -/
inductive Res where
  /-- complete: the PC moves to the next instruction -/
  | done (s : State)
  /-- complete: the PC has been set -/
  | jump (s : State) (pc : W16)
  /-- the conductor stalls at this instruction -/
  | stall (s : State) (w : Stall)
  /-- it has no effect but its exception (05 R137) -/
  | exc (e : Exc)
  /-- the job fails with an S2 record that is no exception -/
  | kill (r : Rec)

/-- The conductor can issue: a job runs on it, it has not ended, no stall, halt or reset holds it, and the device runs. -/
def State.canIssue (s : State) (c : Fin 32) : Bool :=
  let k := s.cl[c]
  s.running && k.job.isSome && k.stall == .none && !k.ended && !bit s.dbg.halt c.val && !bit s.pwr.clrst c.val

/-- Issue one instruction of `size` bytes at conductor `c` (05 R112, R113). A conductor that is not issuing issues nothing; a
fetch past TEXT raises PC_RANGE; a predicate of 0 makes it a no-operation of its size. -/
def issue (i : Instr) (c : Fin 32) (p : Fin 8) (size : Nat) (s : State) (body : State → Job → Res) : Out :=
  let k := s.cl[c]
  match k.job.bind s.job? with
  | none => .next s
  | some j =>
    if !s.canIssue c then .next s
    else if k.textEnd < k.pc.toNat + size then .next (s.except j.id j.ptn c.val c k.pc 0 0 exPcRange)
    else
      let w := (encodeWord i).getD (0, 0)
      let adv (s : State) : State := s.modC c fun k => { k with pc := k.pc + BitVec.ofNat 16 size }
      if !k.rp p then .next (adv s)
      else
        match body s j with
        | .done t => .next (adv t)
        | .jump t pc => .next (t.modC c fun k => { k with pc := pc })
        | .stall t x => .next ((t.modC c fun k => { k with stall := x }).settle)
        | .exc e => .next (s.except j.id j.ptn c.val c k.pc w.1 w.2 e)
        | .kill r => .next (s.failJob j.id r)

/-- Change only this conductor's registers. -/
def onC (s : State) (c : Fin 32) (f : Cluster → Cluster) : Res := .done (s.modC c f)

end Sys2Proof.Machine
end

