-- ==== Sys2Proof/Machine/Scalar.lean ====
section
/-! DEFINITION. Scalar, predicate, scalar-store and control-flow instructions (05 R115, Table 5.5). -/

namespace Sys2Proof.Machine

/-! ## Shared operations -/

/-- rd = ra op rb. -/
def aluOp (i : Instr) (c : Fin 32) (o : R3) (s : State) (f : W64 → W64 → W64) : Out :=
  issue i c o.p 4 s fun s _ => onC s c fun k => k.ws o.rd (f (k.rs o.ra) (k.rs o.rb))

/-- IMM12 sign-extended. -/
def imm12 (o : I12) : W64 := o.imm.signExtend 64

/-- rd = ra op IMM12. -/
def aluiOp (i : Instr) (c : Fin 32) (o : I12) (s : State) (f : W64 → W64 → W64) : Out :=
  issue i c o.p 4 s fun s _ => onC s c fun k => k.ws o.rd (f (k.rs o.ra) (imm12 o))

/-- Shift by IMM12[5:0]; IMM12[11:6] must be zero. -/
def shiftiOp (i : Instr) (c : Fin 32) (o : I12) (s : State) (f : W64 → Nat → W64) : Out :=
  issue i c o.p 4 s fun s _ =>
    if 64 ≤ o.imm.toNat then .exc exIllegal else onC s c fun k => k.ws o.rd (f (k.rs o.ra) o.imm.toNat)

/-- Shift counts use bits [5:0] of the shift source. -/
def shCount (b : W64) : Nat := b.toNat % 64

/-- The predicate register a field names, or none for a reserved value (05 R114). -/
def pReg (r : Fin 32) : Option (Fin 8) := if h : r.val < 8 then some ⟨r.val, h⟩ else none

/-- pd = ra compares true with rb. -/
def cmpOp (i : Instr) (c : Fin 32) (o : R3) (s : State) (f : W64 → W64 → Bool) : Out :=
  issue i c o.p 4 s fun s _ =>
    match pReg o.rd with
    | some d => onC s c fun k => k.wp d (f (k.rs o.ra) (k.rs o.rb))
    | none => .exc exIllegal

/-- pd = p[RA] op p[RB]. -/
def predOp (i : Instr) (c : Fin 32) (o : R3) (s : State) (f : Bool → Bool → Bool) : Out :=
  issue i c o.p 4 s fun s _ =>
    match pReg o.rd, pReg o.ra, pReg o.rb with
    | some d, some a, some b => onC s c fun k => k.wp d (f (k.rp a) (k.rp b))
    | _, _, _ => .exc exIllegal

/-- The scalar-store address of a load or store of `n` bytes, or none for one unaligned or beyond 32 KiB (05 R115). -/
def sdsAddr (k : Cluster) (o : I12) (n : Nat) : Option Nat :=
  let a := (k.rs o.ra + imm12 o).toNat
  if a % n = 0 ∧ a + n ≤ 32768 then some a else none

/-- rd = n bytes of the scalar data store, extended by `ext`. -/
def loadOp (i : Instr) (c : Fin 32) (o : I12) (s : State) (n : Nat) (ext : Nat → W64) : Out :=
  issue i c o.p 4 s fun s _ =>
    match sdsAddr s.cl[c] o n with
    | some a => onC s c fun k => k.ws o.rd (ext (rdLe k.sds a n))
    | none => .exc exSds

def sext (n v : Nat) : W64 := BitVec.ofInt 64 (sx (8 * n) v)

/-- Store the low n bytes of rd in the scalar data store. -/
def storeOp (i : Instr) (c : Fin 32) (o : I12) (s : State) (n : Nat) : Out :=
  issue i c o.p 4 s fun s _ =>
    match sdsAddr s.cl[c] o n with
    | some a => onC s c fun k => { k with sds := wrLe k.sds a n (k.rs o.rd).toNat }
    | none => .exc exSds

/-! ## Class 0x0 -/

/-- ADD: rd = ra + rb. -/
def execAdd (c : Fin 32) (o : R3) (s : State) : Out := aluOp (.add c o) c o s fun a b => a + b

/-- SUB: rd = ra − rb. -/
def execSub (c : Fin 32) (o : R3) (s : State) : Out := aluOp (.sub c o) c o s fun a b => a - b

/-- AND, bitwise. -/
def execAnd (c : Fin 32) (o : R3) (s : State) : Out := aluOp (.and c o) c o s fun a b => a &&& b

/-- OR, bitwise. -/
def execOr (c : Fin 32) (o : R3) (s : State) : Out := aluOp (.or c o) c o s fun a b => a ||| b

/-- XOR, bitwise. -/
def execXor (c : Fin 32) (o : R3) (s : State) : Out := aluOp (.xor c o) c o s fun a b => a ^^^ b

/-- SLL: ra shifted left by rb. -/
def execSll (c : Fin 32) (o : R3) (s : State) : Out := aluOp (.sll c o) c o s fun a b => a <<< shCount b

/-- SRL: ra shifted right, logical. -/
def execSrl (c : Fin 32) (o : R3) (s : State) : Out := aluOp (.srl c o) c o s fun a b => a >>> shCount b

/-- SRA: ra shifted right, arithmetic. -/
def execSra (c : Fin 32) (o : R3) (s : State) : Out := aluOp (.sra c o) c o s fun a b => a.sshiftRight (shCount b)

/-- MUL: the low 64 bits of the product. -/
def execMul (c : Fin 32) (o : R3) (s : State) : Out := aluOp (.mul c o) c o s fun a b => a * b

/-- MULH: the high 64 bits of the signed 128-bit product. -/
def execMulh (c : Fin 32) (o : R3) (s : State) : Out := aluOp (.mulh c o) c o s fun a b => BitVec.ofInt 64 (a.toInt * b.toInt / 2 ^ 64)

/-- MULHU: the high 64 bits of the unsigned product. -/
def execMulhu (c : Fin 32) (o : R3) (s : State) : Out := aluOp (.mulhu c o) c o s fun a b => BitVec.ofNat 64 (a.toNat * b.toNat / 2 ^ 64)

/-- MIN, signed. -/
def execMin (c : Fin 32) (o : R3) (s : State) : Out := aluOp (.min c o) c o s fun a b => if a.slt b then a else b

/-- MAX, signed. -/
def execMax (c : Fin 32) (o : R3) (s : State) : Out := aluOp (.max c o) c o s fun a b => if a.slt b then b else a

/-- MINU, unsigned. -/
def execMinu (c : Fin 32) (o : R3) (s : State) : Out := aluOp (.minu c o) c o s fun a b => if a.ult b then a else b

/-- MAXU, unsigned. -/
def execMaxu (c : Fin 32) (o : R3) (s : State) : Out := aluOp (.maxu c o) c o s fun a b => if a.ult b then b else a

/-! ## Classes 0x1 and 0x2 -/

/-- ADDI: rd = ra + IMM12. -/
def execAddi (c : Fin 32) (o : I12) (s : State) : Out := aluiOp (.addi c o) c o s fun a b => a + b

/-- ANDI. -/
def execAndi (c : Fin 32) (o : I12) (s : State) : Out := aluiOp (.andi c o) c o s fun a b => a &&& b

/-- ORI. -/
def execOri (c : Fin 32) (o : I12) (s : State) : Out := aluiOp (.ori c o) c o s fun a b => a ||| b

/-- XORI. -/
def execXori (c : Fin 32) (o : I12) (s : State) : Out := aluiOp (.xori c o) c o s fun a b => a ^^^ b

/-- SLLI. -/
def execSlli (c : Fin 32) (o : I12) (s : State) : Out := shiftiOp (.slli c o) c o s fun a n => a <<< n

/-- SRLI. -/
def execSrli (c : Fin 32) (o : I12) (s : State) : Out := shiftiOp (.srli c o) c o s fun a n => a >>> n

/-- SRAI. -/
def execSrai (c : Fin 32) (o : I12) (s : State) : Out := shiftiOp (.srai c o) c o s fun a n => a.sshiftRight n

/-- LUI: rd = IMM20 sign-extended, shifted left 12. -/
def execLui (c : Fin 32) (o : U20) (s : State) : Out :=
  issue (.lui c o) c o.p 4 s fun s _ => onC s c fun k => k.ws o.rd (o.imm.signExtend 64 <<< 12)

/-! ## Class 0x3 -/

/-- CEQ. -/
def execCeq (c : Fin 32) (o : R3) (s : State) : Out := cmpOp (.ceq c o) c o s fun a b => a == b

/-- CNE. -/
def execCne (c : Fin 32) (o : R3) (s : State) : Out := cmpOp (.cne c o) c o s fun a b => a != b

/-- CLT, signed less than. -/
def execClt (c : Fin 32) (o : R3) (s : State) : Out := cmpOp (.clt c o) c o s fun a b => a.slt b

/-- CLTU, unsigned less than. -/
def execCltu (c : Fin 32) (o : R3) (s : State) : Out := cmpOp (.cltu c o) c o s fun a b => a.ult b

/-- CGE, signed at least. -/
def execCge (c : Fin 32) (o : R3) (s : State) : Out := cmpOp (.cge c o) c o s fun a b => !a.slt b

/-- CGEU, unsigned at least. -/
def execCgeu (c : Fin 32) (o : R3) (s : State) : Out := cmpOp (.cgeu c o) c o s fun a b => !a.ult b

/-- PAND. -/
def execPand (c : Fin 32) (o : R3) (s : State) : Out := predOp (.pand c o) c o s fun a b => a && b

/-- POR. -/
def execPor (c : Fin 32) (o : R3) (s : State) : Out := predOp (.por c o) c o s fun a b => a || b

/-- PXOR. -/
def execPxor (c : Fin 32) (o : R3) (s : State) : Out := predOp (.pxor c o) c o s fun a b => a ^^ b

/-- PNOT: pd = NOT p[RA]; RB must be zero. -/
def execPnot (c : Fin 32) (o : R3) (s : State) : Out :=
  issue (.pnot c o) c o.p 4 s fun s _ =>
    match pReg o.rd, pReg o.ra with
    | some d, some a => if o.rb = 0 then onC s c fun k => k.wp d (!k.rp a) else .exc exIllegal
    | _, _ => .exc exIllegal

/-! ## Classes 0x4 and 0x5, scalar data store -/

/-- LDB: 1 byte, sign-extended. -/
def execLdb (c : Fin 32) (o : I12) (s : State) : Out := loadOp (.ldb c o) c o s 1 (sext 1)

/-- LDH: 2 bytes, sign-extended. -/
def execLdh (c : Fin 32) (o : I12) (s : State) : Out := loadOp (.ldh c o) c o s 2 (sext 2)

/-- LDW: 4 bytes, sign-extended. -/
def execLdw (c : Fin 32) (o : I12) (s : State) : Out := loadOp (.ldw c o) c o s 4 (sext 4)

/-- LDD: 8 bytes, zero-extended. -/
def execLdd (c : Fin 32) (o : I12) (s : State) : Out := loadOp (.ldd c o) c o s 8 (BitVec.ofNat 64)

/-- LDBU: 1 byte, zero-extended. -/
def execLdbu (c : Fin 32) (o : I12) (s : State) : Out := loadOp (.ldbu c o) c o s 1 (BitVec.ofNat 64)

/-- LDHU: 2 bytes, zero-extended. -/
def execLdhu (c : Fin 32) (o : I12) (s : State) : Out := loadOp (.ldhu c o) c o s 2 (BitVec.ofNat 64)

/-- LDWU: 4 bytes, zero-extended. -/
def execLdwu (c : Fin 32) (o : I12) (s : State) : Out := loadOp (.ldwu c o) c o s 4 (BitVec.ofNat 64)

/-- STB: the low 1 byte of rd. -/
def execStb (c : Fin 32) (o : I12) (s : State) : Out := storeOp (.stb c o) c o s 1

/-- STH: the low 2 bytes of rd. -/
def execSth (c : Fin 32) (o : I12) (s : State) : Out := storeOp (.sth c o) c o s 2

/-- STW: the low 4 bytes of rd. -/
def execStw (c : Fin 32) (o : I12) (s : State) : Out := storeOp (.stw c o) c o s 4

/-- STD: the low 8 bytes of rd. -/
def execStd (c : Fin 32) (o : I12) (s : State) : Out := storeOp (.std c o) c o s 8

/-! ## Classes 0x6 and 0x7 -/

/-- rd = PC + 4, and the PC is set; a taken jump is traced (22 R513). -/
def jumpTo (s : State) (c : Fin 32) (rd : Fin 32) (target : W16) : Res :=
  let pc := s.cl[c].pc
  .jump ((s.modC c fun k => k.ws rd (BitVec.ofNat 64 (pc.toNat + 4))).trace c pc.toNat target.toNat) target

/-- JAL: PC = PC + 4 × offset, in 16 bits (log 11). -/
def execJal (c : Fin 32) (o : U20) (s : State) : Out :=
  issue (.jal c o) c o.p 4 s fun s _ => jumpTo s c o.rd (s.cl[c].pc + BitVec.ofInt 16 (4 * o.imm.toInt))

/-- JALR: PC = (ra + IMM12) with bits [1:0] cleared, in 16 bits (log 11). -/
def execJalr (c : Fin 32) (o : I12) (s : State) : Out :=
  issue (.jalr c o) c o.p 4 s fun s _ => jumpTo s c o.rd ((((s.cl[c].rs o.ra) + imm12 o) >>> 2 <<< 2).truncate 16)

end Sys2Proof.Machine
end

