-- ==== Sys2Proof/Machine/Access.lean ====
section
/-! DEFINITION. Conductor access to tensors (LDX, STX: 05 R115; VLD, VST: 05 R117), descriptor instructions (05 R118, Table 5.7),
tallies (05 R119-R122, Tables 5.8 and 5.9), and control (05 R135, R136, Tables 5.17 and 5.18). -/

namespace Sys2Proof.Machine

/-! ## Tensor access -/

/-- The d register a 5-bit field names, or none for a reserved value (05 R114). -/
def dReg (r : Fin 32) : Option (Fin 16) := if h : r.val < 16 then some ⟨r.val, h⟩ else none

/-- The checks of an access of `n` bytes at OFFSET + `at_`, on a boundary of `al` bytes: of OFFSET + s for LDX and STX, of s for
VLD and VST (log 14). -/
def cndLoc (s : State) (j : Job) (d : Fin 16) (b : TDesc) (at_ n : Nat) (aligned : Bool) (wr : Bool) : Except Exc Loc :=
  if !tOk b then .error (exDesc d b)
  else if !aligned then .error (exSeg (some d) (tSeg b) (tOff b + at_))
  else s.locate { ptn := j.ptn, cfg := j.cfg, job := j.id, unit := uCnd } d b at_ n (!wr) wr

def Job.cnd (j : Job) : Who := { ptn := j.ptn, cfg := j.cfg, job := j.id, unit := uCnd }

/-- The tensor an access reaches while its frames are still being zeroed: the access stalls (07 R191). -/
def State.zeroingAt (s : State) (j : Job) (l : Loc) : Option Nat :=
  match l with | .mem _ base => if (s.P j.ptn).zeroing base then some base else none | _ => none

/-- A conductor's read of `n` bytes: those that a running operation is to write, or that lie in rows under COMPACT, come out free (12 R302; log
55). -/
def cndRead (s : State) (c : Fin 32) (j : Job) (d : Fin 16) (b : TDesc) (at_ n : Nat) (aligned : Bool)
    (f : Cluster → List Byte → Cluster) : Res :=
  match cndLoc s j d b at_ n aligned false with
  | .error e => .exc e
  | .ok l =>
    if let some b := s.zeroingAt j l then .stall s (.zeroing b s.clk.cyc10)
    else if s.badIn j.cnd l n then .exc { exData with dreg := some d, addr := some (l.uta, 0, false) }
    else
      let r := s.readSoft { j.cnd with bad := s.unsettled j.ptn } l n
      onC r.1 c fun k => f k r.2

/-- A conductor's write of bytes. -/
def cndWrite (s : State) (j : Job) (d : Fin 16) (b : TDesc) (at_ : Nat) (bs : List Byte) (aligned : Bool) : Res :=
  match cndLoc s j d b at_ bs.length aligned true with
  | .error e => .exc e
  | .ok l =>
    if let some b := s.zeroingAt j l then .stall s (.zeroing b s.clk.cyc10)
    else if s.badEdge j.cnd l bs.length then .exc { exData with dreg := some d, addr := some (l.uta, 0, false) }
    else
      match l with
      | .mem u base => .done (s.putMem j.ptn u base bs none)
      | _ => .done s

/-- The register that IMM12[11:7] of LDX and STX names. -/
def xReg (o : I12) : Fin 32 := ⟨o.imm.toNat / 128 % 32, Nat.mod_lt _ (by decide)⟩

/-- LDX: rd = 8 bytes at OFFSET + s[IMM12[11:7]] of the tensor in d[RA]; IMM12[6:0] zero. -/
def execLdx (c : Fin 32) (o : I12) (s : State) (m : List MemEv := []) : Out :=
  issue (.ldx c o m) c o.p 4 (if s.canIssue c && s.cl[c].rp o.p then s.meet m else s) fun s j =>
    match dReg o.ra with
    | none => .exc exIllegal
    | some d =>
      if fld o.imm 0 7 ≠ 0 then .exc exIllegal
      else
        let k := s.cl[c]
        let at_ := (k.rs (xReg o)).toNat
        cndRead s c j d k.d[d] at_ 8 ((tOff k.d[d] + at_) % 8 == 0) fun k bs => k.ws o.rd (BitVec.ofNat 64 (ofLe bs))

/-- STX: rd is stored there. -/
def execStx (c : Fin 32) (o : I12) (s : State) : Out :=
  issue (.stx c o) c o.p 4 s fun s j =>
    match dReg o.ra with
    | none => .exc exIllegal
    | some d =>
      if fld o.imm 0 7 ≠ 0 then .exc exIllegal
      else
        let k := s.cl[c]
        let at_ := (k.rs (xReg o)).toNat
        cndWrite s j d k.d[d] at_ (leBytes 8 (k.rs o.rd).toNat) ((tOff k.d[d] + at_) % 8 == 0)

/-- VLD: v[RD] = 256 bytes at OFFSET + s[RB] of the tensor in d[RA]; s[RB] a multiple of 64. -/
def execVld (c : Fin 32) (o : R3) (s : State) (m : List MemEv := []) : Out :=
  issue (.vld c o m) c o.p 4 (if s.canIssue c && s.cl[c].rp o.p then s.meet m else s) fun s j =>
    match dReg o.ra with
    | none => .exc exIllegal
    | some d =>
      let k := s.cl[c]
      let at_ := (k.rs o.rb).toNat
      cndRead s c j d k.d[d] at_ 256 (at_ % 64 == 0) fun k bs => k.wv o.rd (BitVec.ofNat 2048 (ofLe bs))

/-- VST: v[RD] is stored there. -/
def execVst (c : Fin 32) (o : R3) (s : State) : Out :=
  issue (.vst c o) c o.p 4 s fun s j =>
    match dReg o.ra with
    | none => .exc exIllegal
    | some d =>
      let k := s.cl[c]
      let at_ := (k.rs o.rb).toNat
      cndWrite s j d k.d[d] at_ (leBytes 256 k.v[o.rd].toNat) (at_ % 64 == 0)

/-! ## Descriptors -/

/-- The scalar-store address of DLD and DST: s[RA] + 32 × the field, a multiple of 32 below 32 KiB. -/
def dmemAddr (k : Cluster) (o : DMem) : Option Nat :=
  let a := (k.rs o.ra + BitVec.ofNat 64 (32 * o.off.toNat)).toNat
  if a % 32 = 0 ∧ a + 32 ≤ 32768 then some a else none

/-- DLD: d[RD] = 32 bytes of the scalar data store. -/
def execDld (c : Fin 32) (o : DMem) (s : State) : Out :=
  issue (.dld c o) c o.p 4 s fun s _ =>
    match dReg o.rd with
    | none => .exc exIllegal
    | some d =>
      match dmemAddr s.cl[c] o with
      | some a => onC s c fun k => k.wd d (BitVec.ofNat 256 (rdLe k.sds a 32))
      | none => .exc exSds

/-- DST: d[RD] is stored into 32 bytes of the scalar data store. -/
def execDst (c : Fin 32) (o : DMem) (s : State) : Out :=
  issue (.dst c o) c o.p 4 s fun s _ =>
    match dReg o.rd with
    | none => .exc exIllegal
    | some d =>
      match dmemAddr s.cl[c] o with
      | some a => onC s c fun k => { k with sds := wrLe k.sds a 32 k.d[d].toNat }
      | none => .exc exSds

/-- DSETW: 64-bit word W of d[RD] = s[[14:10]]; RA must be zero. -/
def execDsetw (c : Fin 32) (o : DReg) (s : State) : Out :=
  issue (.dsetw c o) c o.p 4 s fun s _ =>
    match dReg o.rd with
    | some d => if o.ra ≠ 0 then .exc exIllegal else onC s c fun k => k.wd d (setFld k.d[d] (64 * o.w.val) 64 (k.rs o.rs).toNat)
    | none => .exc exIllegal

/-- DGETW: s[RD] = 64-bit word W of d[RA]; [14:10] must be zero. -/
def execDgetw (c : Fin 32) (o : DReg) (s : State) : Out :=
  issue (.dgetw c o) c o.p 4 s fun s _ =>
    match dReg o.ra with
    | some d => if o.rs ≠ 0 then .exc exIllegal else onC s c fun k => k.ws o.rd (BitVec.ofNat 64 (fld k.d[d] (64 * o.w.val) 64))
    | none => .exc exIllegal

/-- DADDO: OFFSET of d[RD] += s[[14:10]], modulo 2^48; RA and W must be zero. -/
def execDaddo (c : Fin 32) (o : DReg) (s : State) : Out :=
  issue (.daddo c o) c o.p 4 s fun s _ =>
    match dReg o.rd with
    | some d =>
      if o.ra ≠ 0 ∨ o.w ≠ 0 then .exc exIllegal
      else onC s c fun k => k.wd d (setFld k.d[d] 0 48 (tOff k.d[d] + (k.rs o.rs).toNat))
    | none => .exc exIllegal

/-- DMOV: d[RD] = d[RA]; [14:10] and W must be zero. -/
def execDmov (c : Fin 32) (o : DReg) (s : State) : Out :=
  issue (.dmov c o) c o.p 4 s fun s _ =>
    match dReg o.rd, dReg o.ra with
    | some d, some a => if o.rs ≠ 0 ∨ o.w ≠ 0 then .exc exIllegal else onC s c fun k => k.wd d k.d[a]
    | _, _ => .exc exIllegal

/-! ## Tallies -/

/-- A configuration set grants the block of a tally (05 R120; 01 R12: blocks of 1,024). A job's set is the one it is bound to (08 R208). -/
def tallyOk (b : CfgSet) (t : Nat) : Bool := (csTallies b).testBit (t / 1024)

/-- A tally word naming a local tally of the job's partition, or none (05 R119, R120; log 15). -/
def localTally (s : State) (j : Job) (w : W64) : Option Nat :=
  if w.toNat < 2 ^ 34 ∧ tallyOk (s.jobSet j) (fld w 0 17) then some (fld w 0 17) else none

/-- WAIT: stall until (tally − s[RB]) is at least 0, signed; RD must be zero. -/
def execWait (c : Fin 32) (o : R3) (s : State) : Out :=
  issue (.wait c o) c o.p 4 s fun s j =>
    let k := s.cl[c]
    if o.rd ≠ 0 then .exc exIllegal
    else match localTally s j (k.rs o.ra) with
      | none => .exc exTally
      | some t =>
        let v := (k.rs o.rb).truncate 32
        if tallyReached (s.tallyGet t) v then .done s else .stall s (.wait t v s.clk.gt)

/-- The CND_WAIT_LIMIT of a conductor's WAIT has passed (05 R122): WAIT_TIMEOUT, at the WAIT's PC. -/
def execWaitTimeout (c : Fin 32) (s : State) : Out :=
  let k := s.cl[c]
  match k.stall, k.job.bind s.job? with
  | .wait t v since, some j =>
    let lim := (s.P j.ptn).waitLimit.toNat
    if s.running && lim != 0 && !tallyReached (s.tallyGet t) v && !bit s.dbg.halt c.val
        && decide (since.toNat + 1000 * lim < s.clk.gt.toNat) then
      .next (s.except j.id j.ptn c.val c k.pc (BitVec.ofNat 32 (rdLe k.istore k.pc.toNat 4)) 0 exWait)
    else .next s
  | _, _ => .next s

/-- A remote tally message leaves (17 R404); on a device that is not joined the job fails with UNREACHABLE (log 16). -/
def remoteTally (i : Instr) (s : State) (c : Fin 32) (j : Job) (word : W64) (signal : Bool) (v : W32) : Res :=
  let dst := fld word 17 17
  if s.ringReady then
    let xid := s.ringl.nextXid
    let t : TallyOut := { xid := xid, dst := BitVec.ofNat 17 dst, job := j.id, c := c, pc := s.cl[c].pc, w1 := ((encodeWord i).getD (0, 0)).1 }
    let s := { s with ringl := { s.ringl with nextXid := xid + 1, tallyOut := t :: s.ringl.tallyOut.filter (·.xid != xid) } }
    .done (s.sendMsg (some j.id) dst j.ptn.val j.ptn.val 5 xid.toNat 0 0
      (BitVec.ofNat 1888 (fld word 0 17 + signal.toNat * 2 ^ 24 + v.toNat * 2 ^ 32)))
  else .kill { recOf 2 5 6 unitRing with detail := xferDetail s.ringl.nextXid.toNat dst true }

/-- SIGNAL and TADD: change a local tally, or send the change; RD must be zero (05 R119; 17 R404). -/
def tallyOp (i : Instr) (c : Fin 32) (o : R3) (s : State) (signal : Bool) : Out :=
  issue i c o.p 4 s fun s j =>
    let k := s.cl[c]
    let w := k.rs o.ra
    let v : W32 := (k.rs o.rb).truncate 32
    if o.rd ≠ 0 then .exc exIllegal
    else if bit w 34 then
      if 2 ^ 35 ≤ w.toNat then .exc exTally else remoteTally i s c j w signal v
    else match localTally s j w with
      | none => .exc exTally
      | some t => if signal then .done (s.tallyPut t v).settle else .done (s.tallyAdd t v)

/-- SIGNAL: tally = low 32 bits of s[RB]. -/
def execSignal (c : Fin 32) (o : R3) (s : State) : Out := tallyOp (.signal c o) c o s true

/-- TADD: tally = tally + low 32 bits of s[RB]. -/
def execTadd (c : Fin 32) (o : R3) (s : State) : Out := tallyOp (.tadd c o) c o s false

/-- TREAD: s[RD] = tally, zero-extended; RB must be zero. -/
def execTread (c : Fin 32) (o : R3) (s : State) : Out :=
  issue (.tread c o) c o.p 4 s fun s j =>
    if o.rb ≠ 0 then .exc exIllegal
    else match localTally s j (s.cl[c].rs o.ra) with
      | none => .exc exTally
      | some t => onC s c fun k => k.ws o.rd ((s.tallyGet t).zeroExtend 64)

/-! ## Control -/

/-- NOP: none; RD and IMM10 must be zero. -/
def execNop (c : Fin 32) (o : CtlF) (s : State) : Out :=
  issue (.nop c o) c o.p 4 s fun s _ => if o.rd ≠ 0 ∨ o.imm ≠ 0 then .exc exIllegal else .done s

/-- END: this conductor's part of the job ends once its operations have completed; rank 0's operands make the final record (05
R136). -/
def execEndc (c : Fin 32) (o : EndF) (s : State) : Out :=
  issue (.endc c o) c o.p 4 s fun s j =>
    let k := s.cl[c]
    let s := s.trace c k.pc.toNat 0xFFFF
    let s := if k.rank = 0 then
        s.modJob j.id fun j => { j with
          trunc := o.t, resultLen := (k.rs o.rd).truncate 32
          result := BitVec.ofNat 128 ((k.rs o.ra).toNat + (k.rs o.rb).toNat * 2 ^ 64) }
      else s
    .stall s .endDrain

/-- DRAIN: stall until every operation this conductor issued has completed. -/
def execDrain (c : Fin 32) (o : CtlF) (s : State) : Out :=
  issue (.drain c o) c o.p 4 s fun s _ =>
    if o.rd ≠ 0 ∨ o.imm ≠ 0 then .exc exIllegal
    else if (s.pendingOf c).isEmpty then .done s else .stall s .drain

/-- TIME: s[RD] = global time in nanoseconds. -/
def execTime (c : Fin 32) (o : CtlF) (s : State) : Out :=
  issue (.time c o) c o.p 4 s fun s _ =>
    if o.imm ≠ 0 then .exc exIllegal else onC s c fun k => k.ws o.rd s.clk.gt

/-- The CSRs (05 Table 5.18). -/
def csr (s : State) (c : Fin 32) (j : Job) (n : Nat) : Option W64 :=
  match n with
  | 0x000 => some (BitVec.ofNat 64 c.val)
  | 0x001 => some (BitVec.ofNat 64 j.ptn.val)
  | 0x002 => some (BitVec.ofNat 64 s.cl[c].rank)
  | 0x003 => some (BitVec.ofNat 64 j.k)
  | 0x004 => some (BitVec.ofNat 64 (dTag j.desc))
  | 0x005 => some (BitVec.ofNat 64 ((s.clk.cyc10 - s.cl[c].startCyc) / 10))
  | 0x006 => some (BitVec.ofNat 64 j.cfg.toNat)
  | 0x010 => some (BitVec.ofNat 64 s.devId)
  | _ => none

/-- CSRR: s[RD] = CSR[IMM10]; an absent number is ILLEGAL_INSN. -/
def execCsrr (c : Fin 32) (o : CtlF) (s : State) : Out :=
  issue (.csrr c o) c o.p 4 s fun s j =>
    match csr s c j o.imm.toNat with
    | some v => onC s c fun k => k.ws o.rd v
    | none => .exc exIllegal

/-- TRAP: raise TRAP; the code stands in the recorded word. RD must be zero. -/
def execTrap (c : Fin 32) (o : CtlF) (s : State) : Out :=
  issue (.trap c o) c o.p 4 s fun s _ => if o.rd ≠ 0 then .exc exIllegal else .exc exTrap

end Sys2Proof.Machine
end

