-- ==== Sys2Proof/Machine/Moves.lean ====
section
/-! DEFINITION. Loads, write-backs and moves of tensors: the all-or-nothing decision of PIN and MIG (07 R174, R175, R178-R180,
R193), the start of a move that waited, and what completes one (07 R176-R178, R189, R197). -/

namespace Sys2Proof.Machine

/-! ## Where a move leaves a tensor -/

def destTier (l : Claim) : Nat := match l with | e :: _ => e.1.2.1.toNat | [] => 0

/-- The tier after a move, from tier `cur`. -/
def mvTier (cur : Nat) (go : Option Mv) (dest : Claim) : Nat :=
  match go with
  | none => cur
  | some .load => destTier dest
  | some (.writeback _) => 2
  | some .flush => cur
  | some (.move b) => b.toNat

/-- The tier in which the moves under way and waiting leave a tensor (07 R175, R193). -/
def Tensor.endTier (t : Tensor) : Nat := t.next.foldl (fun c n => mvTier c n.go n.dest) (mvTier t.tier.toNat t.moving t.dest)

/-- The die after the moves of a tensor: a load ends on its frames' die, a move stays on the die. -/
def State.endDie (s : State) (t : Tensor) : Nat :=
  let of (d : Nat) (go : Option Mv) (dest : Claim) : Nat :=
    match go with | some .load => (match dest with | e :: _ => s.dieOf e.1.2 | [] => d) | _ => d
  t.next.foldl (fun d n => of d n.go n.dest) (of t.die.val t.moving t.dest)

/-! ## Starting moves -/

/-- What a set needs on one die and tier: (die, isT1), with the tensors and their frames. -/
structure Need where
  die : Nat
  t1 : Bool
  who : List (Nat × Nat)

/-- Group tensors by the die and tier they need frames in. -/
def groupNeeds : List ((Nat × Bool) × Nat × Nat) → List Need
  | [] => []
  | ((d, b), w) :: rest =>
    let g := groupNeeds rest
    if g.any fun n => n.die == d && n.t1 == b then g.map fun n => if n.die = d ∧ n.t1 = b then { n with who := w :: n.who } else n
    else { die := d, t1 := b, who := [w] } :: g

def Need.total (n : Need) : Nat := (n.who.map (·.2)).sum

/-- Frames claimed for one tensor. -/
structure Share where
  base : Nat
  dest : Claim

/-- Share out claimed frames among tensors in order. -/
def shareOut : List (Nat × Nat) → Claim → List Share
  | [], _ => []
  | (b, n) :: rest, l =>
    let r := takeFrames l n
    { base := b, dest := r.1 } :: shareOut rest r.2

/-- The share of a tensor. -/
def shareOf (l : List Share) (base : Nat) : Claim := match l.find? (·.base == base) with | some x => x.dest | none => []

/-- Claim every need of a set, or none (07 R178); the evicted write-backs start. -/
def State.claimSet (s : State) (j : Job) (needs : List Need) (keep : List Nat) : Option (State × List Share) :=
  if needs.all fun n => n.total ≤ s.have_ j.ptn n.die n.t1 (some j.id) keep then
    let r := needs.foldl (fun (acc : State × List Share) n =>
      let g := acc.1.claim j.ptn n.die n.t1 (some j.id) keep n.total
      (g.st, acc.2 ++ shareOut n.who g.got)) (s, [])
    some (r.1, r.2)
  else none

/-- The write-backs that a claim has made start to move, once what waits for their frames is in place. -/
def State.runFrom (s : State) (first : Nat) : State := s.each ((s.xfers.filter fun x => first ≤ x.id).map (·.id)) fun s id => s.runX id

/-- PIN of a set of tensors (07 R174, R193), decided all or none. -/
def State.pinSet (s : State) (j : Job) (die : Nat) (l : List Tensor) : Option State :=
  let needs := groupNeeds ((l.filter fun t => t.endTier == 2 && t.place != 2).map fun t =>
    ((s.homeDie t die, t.place == 1), t.base, t.size))
  let first := s.nextXfer
  (s.claimSet j needs (l.map (·.base))).map fun (s, shares) =>
    let s := s.each l fun s t =>
      let dest := shareOf shares t.base
      let needs := t.endTier == 2 && t.place != 2
      if t.moving = none ∧ t.next = [] then
        let s := s.modTensor j.ptn t.base fun t => { t with pins := t.pins + 1 }
        if needs then s.startLoad j.ptn t.base dest (some j.id) else s
      else if t.moving = some .load ∧ t.next = [] then s.modTensor j.ptn t.base fun t => { t with pins := t.pins + 1 }
      else s.modTensor j.ptn t.base fun t =>
        { t with next := t.next ++ [{ go := if needs then some .load else none, cause := some j.id, dest := dest, pinJob := some j.id }] }
    (s.modJob j.id fun j => { j with pins := j.pins ++ l.map (·.base) }).runFrom first

/-- MIG of a set of unpinned tensors to a tier (07 R175), decided all or none. -/
def State.migSet (s : State) (j : Job) (die tier : Nat) (l : List Tensor) : Option State :=
  let todo := l.filter fun t => t.endTier != tier
  if tier = 2 then
    if todo.any fun t => !t.backed then none
    else some (s.each todo fun s t =>
      if t.moving = none ∧ t.next = [] then (if t.dirty then s.goWb j.ptn t (.writeback false) (some j.id) else s.dropCopy j.ptn t)
      else s.modTensor j.ptn t.base fun t =>
        { t with next := t.next ++ [{ go := some (.writeback false), cause := some j.id, dest := [], pinJob := none }] })
  else
    let needs := groupNeeds (todo.map fun t => ((if t.endTier = 2 then s.homeDie t die else s.endDie t, tier == 1), t.base, t.size))
    let first := s.nextXfer
    (s.claimSet j needs (l.map (·.base))).map fun (s, shares) =>
      State.runFrom (first := first) <| s.each todo fun s t =>
        let dest := shareOf shares t.base
        let go : Mv := if t.endTier = 2 then .load else .move (tier == 1)
        if t.moving = none ∧ t.next = [] then
          match go with
          | .load => s.startLoad j.ptn t.base dest (some j.id)
          | _ => s.modTensor j.ptn t.base fun t => { t with moving := some go, cause := some j.id, dest := dest }
        else s.modTensor j.ptn t.base fun t =>
          { t with next := t.next ++ [{ go := some go, cause := some j.id, dest := dest, pinJob := none }] }

/-! ## Ends of moves -/

/-- A job's data transfer failed at the host: the job ends as under 03 R81 for an argument block (log 18). -/
def State.readFailed (s : State) (jobs : List Nat) (iova unit : Nat) : State :=
  s.each jobs fun s id => if (s.liveJob id).isSome then s.failJob id (jobData 5 iova unit) else s

/-- A job that a failed write-back ends: one that is admitted or running. A deferred one leaves its queue in the four ways of 04 R96 alone
(log 71). -/
def State.stillRuns (s : State) (id : Nat) : Bool := (s.liveJob id).any fun j => j.ph != .deferred

/-- The load of a tensor whose bytes have all been asked for, and whose frames are all free to fill (07 R178). -/
def State.loading (s : State) (p : Fin 16) (base : Nat) : Option (Tensor × Xfer) :=
  match (s.P p).tensor base, s.xfers.find? fun x => x.ptn == p && x.chan == 0 && x.base == base with
  | some t, some x => if s.running && t.moving == some .load && x.st == .issued && t.dest.free then some (t, x) else none
  | _, _ => none

/-- A load has arrived whole: the tensor is resident and clean unless DIRTY stood at 1, and pins of ended jobs fall (07 R174, R178, R195). -/
def Tensor.arrive (t : Tensor) (die : Fin 4) (now : W64) : Tensor :=
  { t with moving := none, cause := none, tier := BitVec.ofNat 2 (destTier t.dest), die := die, homed := t.homed.or (some die)
           frames := t.dest.frames, dest := [], pins := t.pins - t.drop, drop := 0
           lastUnpin := if 0 < t.drop ∧ t.pins ≤ t.drop then now else t.lastUnpin }

/-- The end of a load, or of its failed read. -/
def State.loadEnd (s : State) (p : Fin 16) (base : Nat) (d : HostRead) (t : Tensor) (x : Xfer) : Out :=
  match d with
  | .failed =>
    let jobs := ((s.P p).loaders base ++ x.job.toList).dedup
    .next ((((s.delX x.id).readFailed jobs x.iova (0x3C + t.die.val)).abortLoad p base).pumpAll)
  | .data bs =>
    if bs.length ≠ t.size * 4096 then .refused .illFormed
    else
      let die := dieFin (match t.dest with | e :: _ => s.dieOf e.1.2 | [] => t.die.val)
      let s := (s.delX x.id).modP p fun q =>
        let q := q.wipe base t.size
        { q with mem := wrBytes q.mem base bs }
      .next ((s.modTensor p base fun t => t.arrive die s.clk.gt).moveEnded p base)

/-- MGE_LOAD_DONE: the whole tensor has arrived from its backing, or the host failed a read (07 R174, R177, R189). -/
def execMgeLoadDone (p : Fin 16) (base : Nat) (d : HostRead) (s : State) (m : List MemEv := []) : Out :=
  if (s.loading p base).isNone then .next s
  else
    let s := s.meet m
    match s.loading p base with
    | some (t, x) => s.loadEnd p base d t x
    | none => .next s

/-- An uncorrectable unit met by a write-back: S2, JOB_DATA cause 4, naming the job that caused it, or for a FLUSH none (07 R197). -/
def wbBadRec (t : Tensor) (p : Fin 16) (off : Nat) : Rec :=
  { jobData 4 (t.base / 4096 % 2 ^ 36 + off % 2 ^ 40 * 2 ^ 40) (0x3C + t.die.val) with ptn := some p }

/-- The write-back of a tensor whose bytes have all left. -/
def State.writing (s : State) (p : Fin 16) (base : Nat) : Option (Tensor × Xfer) :=
  match (s.P p).tensor base, s.xfers.find? fun x => x.ptn == p && x.chan == 1 && x.base == base with
  | some t, some x => if s.running && x.st == .issued then some (t, x) else none
  | _, _ => none

/-- The end of a write-back. -/
def State.writeEnd (s : State) (p : Fin 16) (base : Nat) (t : Tensor) (x : Xfer) : State :=
  let s := (s.delX x.id).bump p .wb 1
  let s := match t.moving with
    | some .flush => s.modTensor p base fun t => { t with dirty := false, moving := none, cause := none }
    | some (.writeback _) => (s.dropCopy p t).modTensor p base fun t => { t with dirty := false }
    | _ => s
  let s := match x.bad1 with
    | none => s
    | some u => match t.moving, t.cause with
      | some .flush, _ => s.report { wbBadRec t p (u * 64 - base) with sev := 2 } none 0
      | _, some id => if s.stillRuns id then s.failJob id (wbBadRec t p (u * 64 - base)) else s
      | _, none => s
  s.moveEnded p base

/-- WRITEBACK_DONE: the whole tensor has been written to its backing (07 R172, R175, R176, R178). -/
def execWritebackDone (p : Fin 16) (base : Nat) (s : State) (m : List MemEv := []) : Out :=
  if (s.writing p base).isNone then .next s
  else
    let s := s.meet m
    .next (match s.writing p base with
      | some (t, x) => s.writeEnd p base t x
      | none => s)

/-- A tensor under a move between T0 and T1 whose destination frames are all free to fill: its target. -/
def State.shifting (s : State) (p : Fin 16) (base : Nat) : Option Bool :=
  match (s.P p).tensor base with
  | some t => match t.moving with | some (.move b) => if s.running && t.dest.free then some b else none | _ => none
  | none => none

/-- MOVE_DONE: a move between T0 and T1 is whole; its source frames are free, DIRTY and bad units are kept (07 R176, R177, R197). -/
def execMoveDone (p : Fin 16) (base : Nat) (s : State) (m : List MemEv := []) : Out :=
  if (s.shifting p base).isNone then .next s
  else
    let s := s.meet m
    .next (match s.shifting p base with
      | some b => (s.modTensor p base fun t =>
          { t with moving := none, cause := none, tier := BitVec.ofNat 2 b.toNat, frames := t.dest.frames, dest := [] }).moveEnded p base
      | none => s)

end Sys2Proof.Machine
end

