-- ==== Sys2Proof/Machine/Engine.lean ====
section
/-! DEFINITION. The issue of engine and ring operations (05 R114, R126-R128, Tables 5.12 and 5.13) and of tensor instructions (05
R123-R125, Tables 5.10 and 5.11; 07 R174-R180, R192, R193). -/

namespace Sys2Proof.Machine

/-! ## Queues -/

/-- Put an operation in its conductor's queue, or stall while the queue is full (05 R128). -/
def enqueueOrStall (s : State) (o : Op) : Res :=
  if (s.queued o.c o.k).length < 16 then .done { s with ops := s.ops ++ [o], nextOp := s.nextOp + 1 }
  else .stall { s with nextOp := s.nextOp + 1 } (.queue o s.clk.cyc10)

/-- Which of dA, dB, dC and dD an operation uses (05 Table 5.13; 11 R269; 12 R285; 13 R309). -/
structure Uses where
  a : Bool
  b : Bool
  c : Bool
  d : Bool

/-- An engine-issue form with no reserved value (05 R114, R127; log 17). A reserved value of s[SP] is met when the operation starts (05
R127). -/
def engFormOk (o : EngF) (u : Uses) (acc : Bool) : Bool :=
  (u.a || o.dA == 0) && (u.b || o.dB == 0) && (u.c || o.dC == 0) && (u.d || !o.den)
    && (o.den || o.dD == 0) && (!o.notally || o.tally == 0) && (acc || !o.accum)

/-- The operation an engine-issue instruction makes: a copy of its descriptors and of s[SP] (05 R128). -/
def mkOp (i : Instr) (s : State) (c : Fin 32) (j : Job) (o : EngF) (k : QKind) (mn : EngOp) : Op :=
  let r := s.cl[c]
  let w := (encodeWord i).getD (0, 0)
  { id := s.nextOp, k := k, mn := mn, c := c, job := j.id, ptn := j.ptn, cfg := j.cfg, pc := r.pc, w1 := w.1, w2 := w.2
    dA := r.d[o.dA], dB := r.d[o.dB], dC := r.d[o.dC], dD := r.d[o.dD], rA := o.dA, rB := o.dB, rC := o.dC, rD := o.dD
    den := o.den, accum := o.accum, notally := o.notally, sp := r.rs o.sp, tally := o.tally.toNat, run := none
    startCyc := 0, sliceCyc := 0, issued := s.clk.cyc10, stale := [], home := none, cuts := [], hid := 0, doom := none, cbs := [] }

/-- Issue an engine operation: the form is checked, then its tally (05 R120), then it is queued. -/
def engIssue (i : Instr) (c : Fin 32) (o : EngF) (s : State) (k : QKind) (mn : EngOp) (u : Uses) (acc : Bool) : Out :=
  issue i c o.p 8 s fun s j =>
    if !engFormOk o u acc then .exc exIllegal
    else if !o.notally && !tallyOk (s.jobSet j) o.tally.toNat then .exc exTally
    else enqueueOrStall s (mkOp i s c j o k mn)

def useABC : Uses := { a := true, b := true, c := true, d := false }

/-- XMUL. -/
def execXmul (c : Fin 32) (o : EngF) (s : State) : Out := engIssue (.xmul c o) c o s .mxa .xmul useABC true

/-- MVMUL. -/
def execMvmul (c : Fin 32) (o : EngF) (s : State) : Out := engIssue (.mvmul c o) c o s .mvp .mvmul useABC true

/-- TOPK. -/
def execTopk (c : Fin 32) (o : EngF) (s : State) : Out :=
  engIssue (.topk c o) c o s .ssu .topk { useABC with b := false } false

/-- LSCAN. -/
def execLscan (c : Fin 32) (o : EngF) (s : State) : Out :=
  engIssue (.lscan c o) c o s .lse .lscan { useABC with d := true } false

/-- GATH. -/
def execGath (c : Fin 32) (o : EngF) (s : State) : Out := engIssue (.gath c o) c o s .gse .gath useABC false

/-- SCAT. -/
def execScat (c : Fin 32) (o : EngF) (s : State) : Out := engIssue (.scat c o) c o s .gse .scat useABC false

/-- SAMP. -/
def execSamp (c : Fin 32) (o : EngF) (s : State) : Out :=
  engIssue (.samp c o) c o s .smu .samp { useABC with d := true } false

/-- MCONV. -/
def execMconv (c : Fin 32) (o : EngF) (s : State) : Out :=
  engIssue (.mconv c o) c o s .mge .mconv { useABC with b := false } false

/-- TTOK. -/
def execTtok (c : Fin 32) (o : EngF) (s : State) : Out := engIssue (.ttok c o) c o s .txu .ttok useABC false

/-- TDTK. -/
def execTdtk (c : Fin 32) (o : EngF) (s : State) : Out :=
  engIssue (.tdtk c o) c o s .txu .tdtk { useABC with c := false } false

/-- HRD. -/
def execHrd (c : Fin 32) (o : EngF) (s : State) : Out :=
  engIssue (.hrd c o) c o s .hdma .hrd { useABC with a := false, b := false } false

/-- HWR. -/
def execHwr (c : Fin 32) (o : EngF) (s : State) : Out :=
  engIssue (.hwr c o) c o s .hdma .hwr { useABC with b := false, c := false } false

/-! ## Ring operations (05 R126) -/

/-- The formats and operators of RREDUCE (17 R403). -/
def reduceOk (b : TDesc) (rop : Nat) : Bool := (tFmt b == fAcc24 || tFmt b == fU32) && rop ≤ 2

/-- Issue a ring operation: its form, its tally in s[RD], and, for RREDUCE, its format. -/
def ringIssue (i : Instr) (c : Fin 32) (o : Rng) (s : State) (mn : EngOp) (ropMax : Nat) : Out :=
  issue i c o.p 4 s fun s j =>
    let k := s.cl[c]
    match dReg o.ra with
    | none => .exc exIllegal
    | some d =>
      if (o.vc != 1 && o.vc != 2) || ropMax < o.rop.val then .exc exIllegal
      else match localTally s j (k.rs o.rd) with
        | none => .exc exTally
        | some t =>
          if mn = .rreduce && !reduceOk k.d[d] o.rop.val then .exc (exDesc d k.d[d])
          else
            enqueueOrStall s
              { id := s.nextOp, k := if o.vc = 1 then .vc1 else .vc2, mn := mn, c := c, job := j.id, ptn := j.ptn, cfg := j.cfg
                pc := k.pc, w1 := ((encodeWord i).getD (0, 0)).1, w2 := 0, dA := k.d[d], dB := 0, dC := 0, dD := 0
                rA := d, rB := 0, rC := 0, rD := 0, den := false, accum := false, notally := false, sp := k.rs o.rb
                tally := t, run := none, startCyc := 0, sliceCyc := 0, issued := s.clk.cyc10, stale := [], home := none, cuts := [], hid := 0
                doom := none, cbs := [] }

/-- RSEND. -/
def execRsend (c : Fin 32) (o : Rng) (s : State) : Out := ringIssue (.rsend c o) c o s .rsend 0

/-- RRECV. -/
def execRrecv (c : Fin 32) (o : Rng) (s : State) : Out := ringIssue (.rrecv c o) c o s .rrecv 0

/-- RREDUCE. -/
def execRreduce (c : Fin 32) (o : Rng) (s : State) : Out := ringIssue (.rreduce c o) c o s .rreduce 2

/-! ## Tensor instructions (05 R123) -/

/-- Status codes (05 Table 5.11). -/
def tsOk : Nat := 0
def tsNoRoom : Nat := 1
def tsNotTensor : Nat := 2
def tsPinLimit : Nat := 3
def tsPinned : Nat := 4
def tsNotPinned : Nat := 5

/-- The addresses of a set: s[RA] to s[RA + COUNT − 1]. -/
def tenAddrs (k : Cluster) (o : Ten) : List Nat := (List.range (o.cnt.val + 1)).map fun i => (k.s.toList.getD (o.ra.val + i) 0).toNat

/-- Registers s[RA] and up as read: s0 reads as zero. -/
def tenBases (q : Ptn) (k : Cluster) (o : Ten) : Option (List Nat) :=
  let l := (tenAddrs { k with s := k.s.set 0 0 } o).map fun a => (q.tensorAt a).map (·.base)
  if l.any (·.isNone) then none else some (l.filterMap id).dedup

/-- A tensor instruction: the form, the tally, the decision, and the wait for the tally. -/
def tenOp (i : Instr) (c : Fin 32) (o : Ten) (s : State) (tierMax : Nat) (unpin : Bool)
    (decide_ : State → Job → List Tensor → Nat × State) : Out :=
  issue i c o.p 4 s fun s j =>
    let k := s.cl[c]
    if tierMax < o.tier.val ∨ 31 < o.ra.val + o.cnt.val ∨ (o.nt ∧ o.rb ≠ 0) then .exc exIllegal
    else
      let t := if o.nt then some none else (localTally s j (k.rs o.rb)).map some
      match t with
      | none => .exc exTally
      | some t =>
        let q := s.P j.ptn
        let r : Nat × State := match tenBases q k o with
          | none => (tsNotTensor, s)
          | some l =>
            let r := decide_ s j (l.filterMap q.tensor)
            if r.1 = tsOk then
              let w : TWait := { job := j.id, bases := l, ops := if unpin then (s.ops.filter (·.job == j.id)).map (·.id) else []
                                 unpin := unpin, tally := t }
              (tsOk, ((r.2.modP j.ptn fun q => { q with waits := q.waits ++ [w] }).settleWaits j.ptn))
            else r
        onC r.2 c fun k => k.ws o.rd (BitVec.ofNat 64 r.1)

/-- PIN: reserve residency for the whole set, all or none; pins that wait for a move count against the limit (05 Table 5.11). -/
def execPin (c : Fin 32) (o : Ten) (s : State) : Out :=
  tenOp (.pin c o) c o s 0 false fun s j l =>
    if l.any fun t => 65535 ≤ t.pins + (t.next.filter (·.pinJob.isSome)).length then (tsPinLimit, s)
    else match s.pinSet j (dieOfCluster c) l with
      | some t => (tsOk, t)
      | none => (tsNoRoom, s.bump j.ptn .noRoom 1)

/-- Pins of a tensor that are not already being released (05 R123). -/
def Ptn.pinsLeft (q : Ptn) (t : Tensor) : Nat := t.pins - (q.waits.filter fun w => w.unpin && w.bases.contains t.base).length

/-- UNPIN: release one pin on each tensor of the set, once the job's earlier operations have completed (05 R124). -/
def execUnpin (c : Fin 32) (o : Ten) (s : State) : Out :=
  tenOp (.unpin c o) c o s 0 true fun s j l =>
    if l.any fun t => (s.P j.ptn).pinsLeft t == 0 then (tsNotPinned, s) else (tsOk, s)

/-- MIG: move each tensor of the set to tier TIER. -/
def execMig (c : Fin 32) (o : Ten) (s : State) : Out :=
  tenOp (.mig c o) c o s 2 false fun s j l =>
    if l.any fun t => 0 < t.pins || t.next.any (·.pinJob.isSome) then (tsPinned, s)
    else match s.migSet j (dieOfCluster c) o.tier.val l with
      | some t => (tsOk, t)
      | none => (tsNoRoom, s.bump j.ptn .noRoom 1)

end Sys2Proof.Machine
end

