-- ==== Sys2Proof/Machine/Ring.lean ====
section
/-! DEFINITION. The ring layer (17): RSEND, RRECV and RREDUCE (R398-R403), remote tallies (R404), route maps (R394, R411), the
orderly leave (R405), and the messages and timers of each. -/

namespace Sys2Proof.Machine

/-! ## The peer word (17 Table 17.4) -/

def peerDev (w : W64) : Nat := fld w 0 17
def peerPrev (w : W64) : Nat := fld w 17 17
def peerTag (w : W64) : Nat := fld w 34 14
def peerPtn (w : W64) : Fin 16 := ⟨fld w 48 4, Nat.mod_lt _ (by decide)⟩
def peerRank (w : W64) : Nat := fld w 52 6
def peerLast (w : W64) : Nat := fld w 58 6

/-- The device an operation receives from. -/
def recvFrom (o : Op) : Nat := if o.mn = .rreduce then peerPrev o.sp else peerDev o.sp

/-- The operator of an RREDUCE, from its instruction word (05 R126). -/
def opRop (o : Op) : Nat := fld o.w1 4 3

/-- Entries and 236-byte units of a transfer (17 R399). -/
def xEntries (len : Nat) : Nat := divUp len 4096
def xUnits (len : Nat) : Nat := divUp len 236

/-- The units that carry bytes of entry `k`. -/
def unitsOf (len k : Nat) : List Nat :=
  let lo := 4096 * k / 236
  let hi := divUp (min len (4096 * (k + 1))) 236
  (List.range (hi - lo)).map (lo + ·)

/-- The entries that unit `u` carries bytes of. -/
def entriesOfUnit (len u : Nat) : List Nat :=
  let lo := 236 * u / 4096
  let hi := divUp (min len (236 * (u + 1))) 4096
  (List.range (hi - lo)).map (lo + ·)

/-! ## State access -/

def State.modTx (s : State) (xid : W16) (f : TxX → TxX) : State :=
  { s with ringl := { s.ringl with tx := s.ringl.tx.map fun (t : TxX) => if t.xid = xid then f t else t } }

def isRx (src : BitVec 17) (xid : W16) (r : RxX) : Bool := r.src == src && r.xid == xid

def State.modRx (s : State) (src : BitVec 17) (xid : W16) (f : RxX → RxX) : State :=
  { s with ringl := { s.ringl with rx := s.ringl.rx.map fun (r : RxX) => if isRx src xid r then f r else r } }

def State.tx? (s : State) (xid : W16) : Option TxX := s.ringl.tx.find? fun t => t.xid == xid
def State.rx? (s : State) (src : BitVec 17) (xid : W16) : Option RxX := s.ringl.rx.find? (isRx src xid)

/-! ## Sending -/

/-- The job of an operation. -/
def State.jobOfOp (s : State) (op : Nat) : Option Nat := (s.op? op).map (·.job)

/-- Send the REQ of a transfer. -/
def State.sendReq (s : State) (t : TxX) : State :=
  s.sendMsg (s.jobOfOp t.op) t.dst.toNat t.ptn.val t.dptn.val 0 t.xid.toNat 0 0
    (BitVec.ofNat 1888 (t.len % 2 ^ 64 + t.tag.toNat * 2 ^ 64 + (t.vc % 4 + t.rop % 8 * 4) * 2 ^ 80 + t.fmt % 256 * 2 ^ 88 + t.rank % 64 * 2 ^ 96))

/-- GRANT or XACK of a range of entries. -/
def State.sendRange (s : State) (op : Nat) (r : RxX) (first n : Nat) : State :=
  s.sendMsg (s.jobOfOp r.op) r.src.toNat r.ptn.val r.sptn.val op r.xid.toNat 0 0 (BitVec.ofNat 1888 (first % 2 ^ 32 + n % 2 ^ 16 * 2 ^ 32))

/-- The receiving transfer of an RREDUCE's pass. -/
def State.passRx (s : State) (op : Nat) (p2 : Bool) : Option RxX := s.ringl.rx.find? fun r => r.op == op && r.pass2 == p2

/-- An entry of a transfer is ready to be sent: the source holds its final bytes (17 R403). -/
def State.entryReady (s : State) (o : Op) (t : TxX) (k : Nat) : Bool :=
  if o.mn ≠ .rreduce then true
  else if !t.pass2 then
    peerRank o.sp == 0 || (match s.passRx o.id false with | some r => r.comb.contains k || r.drained.contains k | none => false)
  else match s.passRx o.id (peerRank o.sp != peerLast o.sp) with
    | some r => r.drained.contains k
    | none => false

/-- Bytes of a unit as they are sent: from the tensor, free where other writes have left them undefined (06 R162), or, at the inner ranks of
pass 1, from the running result. -/
def State.unitBytes (s : State) (o : Op) (t : TxX) (u : Nat) : State × List Byte :=
  let n := min 236 (t.len - 236 * u)
  if o.mn = .rreduce ∧ !t.pass2 ∧ peerRank o.sp ≠ 0 then
    match s.passRx o.id false with
    | some r => (s, rdBytes r.buf (236 * u) n)
    | none => (s, List.replicate n 0)
  else
    let w := s.asker o uRing
    match s.locate w o.rA o.dA (236 * u) n true false with
    | .ok l => s.readSoft w l n
    | .error _ => (s, List.replicate n 0)

/-- An entry has been granted. -/
def TxX.granted (t : TxX) (k : Nat) : Bool := t.grants.any fun g => g.1 ≤ k && k < g.1 + g.2

/-- Send every unit that lies within granted, ready entries and has not been sent (17 R399). -/
def State.pumpTx (s : State) (xid : W16) : State :=
  match s.tx? xid with
  | none => s
  | some t =>
    match s.op? t.op with
    | none => s
    | some o =>
      let todo := (List.range (xUnits t.len)).filter fun u =>
        !t.sent.contains u && (entriesOfUnit t.len u).all fun k => t.granted k && s.entryReady o t k
      let s := s.each todo fun s u =>
        let r := s.unitBytes o t u
        r.1.sendMsg (some o.job) t.dst.toNat t.ptn.val t.dptn.val 2 t.xid.toNat u t.vc (BitVec.ofNat 1888 (ofLe r.2))
      s.modTx xid fun t => { t with sent := t.sent ++ todo }

/-- Send what the transfers of an operation can send. -/
def State.pumpOpTx (s : State) (op : Nat) : State :=
  s.each ((s.ringl.tx.filter fun t => t.op == op).map (·.xid)) State.pumpTx

/-! ## Failure (17 R402) -/

def State.dropTx (s : State) (xid : W16) : State := { s with ringl := { s.ringl with tx := s.ringl.tx.filter fun t => t.xid != xid } }

def State.dropRx (s : State) (src : BitVec 17) (xid : W16) : State :=
  { s with ringl := { s.ringl with rx := s.ringl.rx.filter fun r => !isRx src xid r } }

/-- A transfer sent by this device fails; `tell` sends REFUSE to the partner. -/
def State.failTx (s : State) (t : TxX) (reason : Nat) (tell : Bool) : State :=
  let s := if tell then s.sendRefuse t.dst.toNat t.ptn.val t.dptn.val t.xid.toNat reason else s
  let s := (s.dropTx t.xid).bump t.ptn .ringLost 1
  match s.op? t.op with
  | some o => s.opFail o (.xfer reason t.xid.toNat t.dst.toNat true)
  | none => s

/-- A transfer received by this device fails: its granted entries return to the reservation. -/
def State.failRx (s : State) (r : RxX) (reason : Nat) (tell : Bool) : State :=
  let s := if tell then s.sendRefuse r.src.toNat r.ptn.val r.sptn.val r.xid.toNat reason else s
  let s := (s.dropRx r.src r.xid).bump r.ptn .ringLost 1
  match s.op? r.op with
  | some o => s.opFail o (.xfer reason r.xid.toNat r.src.toNat false)
  | none => s

/-! ## Completion -/

/-- Every transfer an operation makes has completed (17 R399, R403). -/
def State.ringOpDone (s : State) (o : Op) : Bool :=
  let tx := s.ringl.tx.any fun t => t.op == o.id
  let rxs := (s.ringl.rx.filter fun r => r.op == o.id && r.done).length
  let last := peerLast o.sp
  let rank := peerRank o.sp
  match o.mn with
  | .rsend => !tx
  | .rrecv => rxs == 1
  | _ => !tx && rxs == (if rank = 0 then 0 else 1) + (if rank = last then 0 else 1)

/-- Complete an operation whose transfers are all done. -/
def State.tryRingDone (s : State) (op : Nat) : State :=
  match s.op? op with
  | some o => if o.run.isSome && s.ringOpDone o then s.opDone o else s
  | none => s

/-! ## RREDUCE arithmetic (17 R403) -/

/-- Two ACC24 blocks of 32 accumulators combine under an operator. -/
def combAcc (rop : Nat) (x y : List Acc) : List Acc :=
  let fx := match x with | a :: _ => a.f | [] => -128
  let fy := match y with | a :: _ => a.f | [] => -128
  let f := max fx fy
  let al (l : List Acc) (g : Int) : List Int := l.map fun a => rne a.a (f - g).toNat
  let sat := x.any (·.sat) || y.any (·.sat)
  let r := ((al x fx).zip (al y fy)).map fun p => match rop with | 0 => p.1 + p.2 | 1 => max p.1 p.2 | _ => min p.1 p.2
  if r.all inAcc then r.map fun a => { a := a, f := f, sat := sat }
  else if 127 < f + 1 then r.map fun a =>
    { a := if inAcc a then a else if a < 0 then accMin else accMax, f := 127, sat := true }
  else r.map fun a => { a := rne a 1, f := f + 1, sat := sat }

/-- Two U32 elements combine. -/
def combU32 (rop x y : Nat) : Nat := match rop with | 0 => (x + y) % 2 ^ 32 | 1 => max x y | _ => min x y

/-- Two chunks combine; the index of an ACC24 block with a reserved value is the error. -/
def combChunk (fmt rop : Nat) (x y : List Byte) : Except Nat (List Byte) :=
  if fmt = fU32 then
    .ok ((List.range (y.length / 4)).flatMap fun i => leBytes 4 (combU32 rop (sliceLe x (4 * i) 4) (sliceLe y (4 * i) 4)))
  else
    (List.range (y.length / 128)).foldl (fun acc i => match acc with
      | .error e => .error e
      | .ok l => match readAcc ((x.drop (128 * i)).take 128), readAcc ((y.drop (128 * i)).take 128) with
        | .ok a, .ok b => .ok (l ++ storeAcc (combAcc rop a b))
        | _, _ => .error i) (.ok [])

/-! ## Receiving -/

/-- Drain an entry: its bytes are in place, it is zeroed and freed, and XACK is sent (17 R399). -/
def State.drain (s : State) (r : RxX) (k : Nat) : State :=
  (s.modRx r.src r.xid fun r => { r with drained := k :: r.drained, comb := r.comb.filter (· != k), buf := sclear r.buf (4096 * k) 4096 }).sendRange 3 r k 1

/-- A complete entry is written, or combined with this member's own chunk (17 R399, R403). -/
def State.takeEntry (s : State) (o : Op) (r : RxX) (k : Nat) : State × Option EngErr :=
  let n := min 4096 (r.len - 4096 * k)
  let w := s.asker o uRing
  let got := rdBytes r.buf (4096 * k) n
  let here := s.rangeAt o o.dA (4096 * k) n
  if o.mn = .rreduce ∧ !r.pass2 then
    match s.locate w o.rA o.dA (4096 * k) n true true with
    | .error e => (s, some (.exc e))
    | .ok l =>
      if s.badIn w l n then (s, some (.exc { exData with dreg := some o.rA, addr := some (l.uta, 0, false) }))
      else match combChunk (tFmt o.dA) (opRop o) got (s.readLoc w l n) with
        | .error i => (s, some (.exc (exStruct (l.uta + 128 * i))))
        | .ok bs =>
          if peerRank o.sp = peerLast o.sp then ((s.putAt o w o.rA o.dA (4096 * k) bs here).drain r k, none)
          else
            let x := s.blur l.uta (here.any fun d => w.bad.any (meets d)) [] bs
            (x.1.modRx r.src r.xid fun r => { r with comb := k :: r.comb, buf := wrBytes r.buf (4096 * k) x.2 }, none)
  else ((s.putAt o w o.rA o.dA (4096 * k) got []).drain r k, none)

/-- Take every entry that is complete. -/
def State.takeEntries (s : State) (o : Op) (src : BitVec 17) (xid : W16) : List Nat → State × Option EngErr
  | [] => (s, none)
  | k :: rest =>
    match s.rx? src xid with
    | none => (s, none)
    | some r =>
      if k < r.next ∧ !r.drained.contains k ∧ !r.comb.contains k ∧ (unitsOf r.len k).all r.units.contains then
        match s.takeEntry o r k with
        | (t, some e) => (t, some e)
        | (t, none) => t.takeEntries o src xid rest
      else s.takeEntries o src xid rest

/-- A receiving transfer whose every entry has drained is complete. -/
def State.tryRxDone (s : State) (src : BitVec 17) (xid : W16) : State :=
  match s.rx? src xid with
  | some r =>
    if !r.done && r.drained.length == xEntries r.len then
      ((s.modRx src xid fun r => { r with done := true, buf := [], units := [], comb := [] }).bump r.ptn .ringXfer 1).tryRingDone r.op
    else s
  | none => s

/-- DATA arrives (17 R399, R401). -/
def State.dataMsg (s : State) (src : BitVec 17) (xid : W16) (u : Nat) (pay : BitVec 1888) : State :=
  match s.rx? src xid with
  | none => s
  | some r =>
    let ents := entriesOfUnit r.len u
    if r.done ∨ u ∈ r.units ∨ (ents != [] && ents.all r.drained.contains) then
      let s := s.bump r.ptn .ringDup 1
      s.each (ents.filter r.drained.contains) fun s k => s.sendRange 3 r k 1
    else if ents = [] ∨ !(ents.all fun k => k < r.next) then s
    else
      match s.op? r.op with
      | none => s
      | some o =>
        let n := min 236 (r.len - 236 * u)
        let s := s.modRx src xid fun r =>
          { r with units := u :: r.units, progress := s.clk.gt, buf := wrBytes r.buf (236 * u) (leBytes n (pay.toNat % 256 ^ n)) }
        match s.takeEntries o src xid ents with
        | (t, some e) => t.opFail o e
        | (t, none) => ((t.tryRxDone src xid).pumpOpTx o.id).pumpAll

/-! ## Matching (17 R399, R400, R403) -/

/-- The receiving transfers an operation has still to match, in the order their REQs come: pass 1, then pass 2. -/
def State.wants (s : State) (o : Op) : List Bool :=
  let have_ (p2 : Bool) : Bool := (s.passRx o.id p2).isSome
  match o.mn with
  | .rrecv => if have_ false then [] else [false]
  | .rreduce =>
    (if peerRank o.sp = 0 ∨ have_ false then [] else [false]) ++ (if peerRank o.sp = peerLast o.sp ∨ have_ true then [] else [true])
  | _ => []

/-- A started operation that a REQ matches. -/
def State.matches_ (s : State) (o : Op) (q : ReqM) : Bool :=
  o.run.isSome && o.ptn == q.dptn && recvFrom o == q.src.toNat && peerPtn o.sp == q.sptn && peerTag o.sp == q.tag.toNat && !(s.wants o).isEmpty

/-- Why a matched REQ is refused: FORMAT or SIZE. -/
def reqBad (o : Op) (q : ReqM) : Option Nat :=
  let fmtBad := o.mn == .rreduce && !(q.fmt == tFmt o.dA && q.rop == opRop o
    && q.rank == (peerRank o.sp + peerLast o.sp) % (peerLast o.sp + 1))
  if fmtBad then some 2 else if q.len ≠ tBytes o.dA then some 1 else none

/-- A REQ and a posted operation are joined, or the REQ is refused and the operation's transfer fails. -/
def State.joinReq (s : State) (o : Op) (q : ReqM) : State :=
  match reqBad o q with
  | some reason =>
    let s := (s.sendRefuse q.src.toNat o.ptn.val q.sptn.val q.xid.toNat reason).bump o.ptn .ringLost 1
    s.opFail o (.xfer reason q.xid.toNat q.src.toNat false)
  | none =>
    let r : RxX := { src := q.src, sptn := q.sptn, xid := q.xid, op := o.id, ptn := o.ptn, len := q.len, next := 0, units := []
                     comb := [], drained := [], buf := [], pass2 := (s.wants o).headD false, done := false, progress := s.clk.gt }
    let s := { s with ringl := { s.ringl with rx := r :: s.ringl.rx.filter fun x => !isRx q.src q.xid x } }
    -- a transfer with no bytes has nothing to grant
    s.tryRxDone q.src q.xid

/-- Match waiting REQs with a started operation. -/
def State.matchWaiting (s : State) (o : Op) : Nat → State
  | 0 => s
  | fuel + 1 =>
    match (if (s.op? o.id).isSome then s.ringl.reqs.find? (s.matches_ o) else none) with
    | some q => ({ s with ringl := { s.ringl with reqs := s.ringl.reqs.erase q } }.joinReq o q).matchWaiting o fuel
    | none => s

/-- The partition takes part in transfers (17 Table 17.5 reason 3). -/
def State.ptnLive (s : State) (p : Fin 16) : Bool := (s.P p).activeValid && !(s.P p).fenced && !(s.P p).fencing

/-- REQ arrives: matched, queued, or refused (17 R399, R405, R410, R412). -/
def State.reqMsg (s : State) (q : ReqM) : State :=
  let dup := (s.rx? q.src q.xid).any (fun r => !r.done) || s.ringl.reqs.any fun r => r.src == q.src && r.xid == q.xid
  if dup then s
  else
    let refuse (reason : Nat) : State := s.sendRefuse q.src.toNat q.dptn.val q.sptn.val q.xid.toNat reason
    if s.ringl.st = .leaving then refuse 7
    else if !s.ptnLive q.dptn then refuse 3
    else match s.ops.find? fun o => s.matches_ o q with
      | some o => s.joinReq o q
      | none =>
        if (s.ringl.reqs.filter fun r => r.dptn == q.dptn).length < 256 then
          { s with ringl := { s.ringl with reqs := s.ringl.reqs ++ [q] } }
        else refuse 9

/-! ## The start of a ring operation -/

/-- The checks of a ring operation (17 R398, R400; 05 R126, R130). -/
def ringStart (s : State) (o : Op) : Except Exc (List (List Byte)) := do
  let recv := o.mn != EngOp.rsend
  let red := o.mn == EngOp.rreduce
  checks [descCheck o.rA o.dA, need (tBytes o.dA ≤ 2 ^ 34) (exDesc o.rA o.dA),
    need (red || peerPrev o.sp == 0) exReserved, need (!red || peerRank o.sp ≤ peerLast o.sp) exReserved,
    need (!recv || (red && peerLast o.sp == 0) || (match s.job? o.job with | some j => j.resBuf != 0 | none => false)) exReserved,
    errOf (s.operand (o.who uRing) o.rA o.dA (!recv || red) recv),
    if recv && !red then none else s.goodCheck (o.who uRing) o.rA o.dA]
  return [[], [], []]

/-- A new transfer of an operation, and its REQ. -/
def State.openTx (s : State) (o : Op) (pass2 : Bool) : State :=
  let t : TxX := { xid := s.ringl.nextXid, op := o.id, ptn := o.ptn, dst := BitVec.ofNat 17 (peerDev o.sp), dptn := peerPtn o.sp
                   tag := BitVec.ofNat 14 (peerTag o.sp), len := tBytes o.dA, vc := if o.k = .vc2 then 2 else 1, fmt := tFmt o.dA
                   rop := if o.mn = .rreduce then opRop o else 0, rank := if o.mn = .rreduce then peerRank o.sp else 0
                   answered := false, busy := false, grants := [], sent := [], acked := [], pass2 := pass2, progress := s.clk.gt }
  { s with ringl := { s.ringl with nextXid := s.ringl.nextXid + 1, tx := s.ringl.tx ++ [t] } }.sendReq t

/-- A ring operation starts: it sends its REQs and matches those that wait. -/
def ringGo (s : State) (o : Op) : State :=
  let rank := peerRank o.sp
  let last := peerLast o.sp
  if o.mn = .rreduce ∧ last = 0 then s.opDone o
  else if !s.ringReady then (s.bump o.ptn .ringLost 1).opFail o (.xfer 6 0 (peerDev o.sp) (o.mn != EngOp.rrecv))
  else
    match o.mn with
    | .rsend => s.openTx o false
    | .rrecv => s.matchWaiting o 1
    | _ =>
      let s := if rank < last then s.openTx o false else s
      let s := if rank = last ∨ rank + 1 < last then s.openTx o true else s
      s.matchWaiting o 2

/-! ## Messages of the sender's side -/

/-- GRANT arrives: DATA goes out within the entries granted. -/
def State.grantMsg (s : State) (src : BitVec 17) (xid : W16) (first n : Nat) : State :=
  match s.tx? xid with
  | some t =>
    if t.dst = src then
      (s.modTx xid fun t => { t with grants := t.grants ++ [(first, n)], answered := true, busy := false, progress := s.clk.gt }).pumpTx xid
    else s
  | none => s

/-- XACK arrives: entries are retired; the last completes the transfer. An inner rank's running result goes with it (17 R403). -/
def State.xackMsg (s : State) (src : BitVec 17) (xid : W16) (first n : Nat) : State :=
  match s.tx? xid with
  | some t =>
    if t.dst ≠ src then s
    else
      let new := ((List.range n).map (first + ·)).filter fun k => k < xEntries t.len && !t.acked.contains k
      let s := s.modTx xid fun t => { t with acked := t.acked ++ new, answered := true, progress := s.clk.gt }
      let s := match s.op? t.op with
        | some o =>
          if o.mn = EngOp.rreduce ∧ !t.pass2 ∧ peerRank o.sp ≠ 0 then
            (match s.passRx o.id false with
             | some r => (s.each (new.filter r.comb.contains) fun s k => s.drain r k).tryRxDone r.src r.xid
             | none => s)
          else s
        | none => s
      match s.tx? xid with
      | some t =>
        if t.acked.length = xEntries t.len then ((s.dropTx xid).bump t.ptn .ringXfer 1).tryRingDone t.op else s
      | none => s
  | none => s

/-- The issuer of a TALLY that a device refused stops with TALLY_RANGE (17 R404). -/
def State.tallyRefused (s : State) (src : BitVec 17) (xid : W16) : Option State :=
  (s.ringl.tallyOut.find? fun t => t.xid == xid && t.dst == src).map fun t =>
    let s := { s with ringl := { s.ringl with tallyOut := s.ringl.tallyOut.filter fun x => x.xid != xid } }
    match s.liveJob t.job with
    | some j => s.except j.id j.ptn t.c.val t.c t.pc t.w1 0 exTally
    | none => s

/-- REFUSE of a transfer arrives (17 R402): BUSY waits to be repeated, any other reason fails it. -/
def State.xferRefused (s : State) (src : BitVec 17) (dptn : Fin 16) (xid : W16) (reason : Nat) : State :=
  match s.ringl.tx.find? fun t => t.xid == xid && t.dst == src && t.ptn == dptn with
  | some t => if reason = 9 then s.modTx xid fun t => { t with busy := true, answered := true } else s.failTx t reason false
  | none =>
    match s.ringl.rx.find? fun r => isRx src xid r && r.ptn == dptn && !r.done with
    | some r => if reason = 9 then s else s.failRx r reason false
    | none => s

/-- REFUSE arrives: reason 8 answers a TALLY where one is out (17 R402, R404). -/
def State.refuseMsg (s : State) (src : BitVec 17) (dptn : Fin 16) (xid : W16) (reason : Nat) : State :=
  match (if reason = 8 then s.tallyRefused src xid else none) with
  | some t => t
  | none => s.xferRefused src dptn xid reason

/-- A remote TALLY arrives: checked, and applied exactly once (17 R404). -/
def State.tallyMsg (s : State) (src : BitVec 17) (sptn dptn : Fin 16) (xid : W16) (t : Nat) (signal : Bool) (v : W32) : State :=
  if s.ringl.tallySeen.contains (src, xid) then s.bump dptn .ringDup 1
  else
    let s := { s with ringl := { s.ringl with
      tallySeen := (src, xid) :: (s.ringl.tallySeen.filter fun (e : BitVec 17 × W16) => e.1 == src).take 32767
        ++ s.ringl.tallySeen.filter fun (e : BitVec 17 × W16) => e.1 != src } }
    if (s.owns dptn csTallies).testBit (t / 1024) then (if signal then (s.tallyPut t v).settle else s.tallyAdd t v)
    else s.sendRefuse src.toNat dptn.val sptn.val xid.toNat 8

/-! ## Route maps (17 R394, R401, R411) -/

/-- The route map of a pair. -/
def State.setMap (s : State) (k : Fin 2) (f : RMap → RMap) : State :=
  { s with ringl := { s.ringl with map := s.ringl.map.set k (f s.ringl.map[k]) } }

/-- The position where the device of a port's peer stands. -/
def State.peerAt (s : State) (k : Fin 2) (p : Fin 4) : Nat :=
  if s.upperPair k then s.dlk.port[p].peer.toNat / 256 else s.dlk.port[p].peerPos

/-- The other end of the link behind a device: the nearest device heard of in that direction, this one where the device is its peer, or, with none
known, the next slot (17 R394; log 81). -/
def State.farEnd (s : State) (k : Fin 2) (b : Nat) (east : Bool) : Nat :=
  let n := s.ringLen k
  let own := s.ringPos k
  let step (i : Nat) : Nat := if east then (b + 1 + i) % n else (b + 2 * n - 1 - i) % n
  let l := (List.range (n - 1)).map step
  let upTo := l.takeWhile (· != own)
  match upTo.find? fun p => (s.rmap k).heard.contains p with
  | some p => p
  | none =>
    let mine := if east then westOf k else eastOf k
    if l.contains own && s.dlk.port[mine].peerValid && s.peerAt k mine == b then own else step 0

/-- The link East or West of a device is marked on a map, and the device is heard of. -/
def State.markLink (s : State) (k : Fin 2) (b : Nat) (east up : Bool) : State :=
  let f := s.farEnd k b east
  let n := s.ringLen k
  s.setMap k fun m => { (if east then m.mark n b f up else m.mark n f b up) with heard := insPos b m.heard }

/-- A device ID lies within the ring role, and its position in a pair's ring (17 R413). -/
def State.ringPosOf (s : State) (k : Fin 2) (dev : Nat) : Option Nat :=
  if s.upperPair k then (if dev / 256 < s.upperSize then some (dev / 256) else none)
  else if dev / 256 = s.devId / 256 ∧ dev % 256 < s.segSize then some (dev % 256) else none

/-- Resend what a route change may have lost: every granted unit that XACK has not covered, and unanswered REQs (17 R401). -/
def State.resend (s : State) (old : State) : State :=
  s.each (s.ringl.tx.filter fun t => s.route t.dst.toNat t.xid.toNat t.vc != old.route t.dst.toNat t.xid.toNat t.vc) fun s t =>
    let s := if t.answered then s else s.sendReq t
    (s.modTx t.xid fun t => { t with sent := t.sent.filter fun u => (entriesOfUnit t.len u).all t.acked.contains }).pumpTx t.xid

/-- Pass a TOPO or STATE message on round the ring, away from the port it came by. -/
def State.passOn (s : State) (port : Fin 4) (op vc : Nat) (pay : BitVec 1888) (src : Nat) : State :=
  s.sendHop (s.ctlPort (pairOf port) (!isEast port)) op vc src pay

/-- A neighbour has answered, or there is none on that side (17 R405). -/
def State.answered (s : State) (k : Fin 2) : Bool :=
  (s.dlk.sw[k].ackE || !s.dlk.port[eastOf k].linked) && (s.dlk.sw[k].ackW || !s.dlk.port[westOf k].linked)

/-- A port has nothing to forward or to be acknowledged (17 R405 step 3). -/
def Port.drained (p : Port) : Bool := p.outq.isEmpty && p.urgent.isNone && p.retry.isEmpty && vsum p.rxHeld == 0

/-- A leaving pair with nothing left to forward returns the credits it holds, and removes its drive once both neighbours have answered (17 R405 steps
3 to 5). -/
def State.tryLeave (s : State) (k : Fin 2) : State :=
  let w := s.dlk.sw[k]
  let idle := s.dlk.port[eastOf k].drained && s.dlk.port[westOf k].drained
  if !w.leaving then s
  else
    let give (s : State) (p : Fin 4) : State :=
      (s.modPort p fun p => { p with credit := Vector.replicate 8 0, ctrlDue := p.ctrlDue + 1 }).pumpPort p
    let s := if idle && !w.returned then give (give (s.modSw k fun w => { w with returned := true }) (eastOf k)) (westOf k) else s
    if s.dlk.sw[k].returned && s.answered k then s.dropDrive k (if s.pwr.st = .shuttingDown then 3 else 5) else s

def State.tryLeaves (s : State) : State := (s.tryLeave 0).tryLeave 1

/-- A message that names a device outside the ring role, or a reserved kind (17 R413). -/
def State.ringBad (s : State) : State := { s with ringl := { s.ringl with badCnt := satAdd s.ringl.badCnt 1 } }

/-- The map that a message about ports 0 and 1, or 2 and 3, of a device concerns, where this device keeps one (17 R394, R396). -/
def State.mapFor (s : State) (r : Fin 2) (hi : Bool) : Option (Fin 2) :=
  if s.upperPair r then (if hi then some 1 else none) else if !hi then some 0 else if s.planePair then some 1 else none

/-- The ports of a pair whose peer is a device. -/
def State.portsTo (s : State) (k : Fin 2) (dev : Nat) : List (Fin 4) :=
  [eastOf k, westOf k].filter fun p => s.dlk.port[p].peerValid && s.dlk.port[p].peer.toNat == dev

/-- What a TOPO message does to a map: a link changes state, a device joins, or one leaves, which its neighbours answer (17 R394, R405). -/
def State.topoOn (s : State) (k : Fin 2) (kind dev pos lport : Nat) : State :=
  match kind with
  | 1 => s.markLink k pos (lport % 2 == 0) true
  | 2 => s.markLink k pos (lport % 2 == 0) false
  | 3 => (s.markLink k pos true true).markLink k pos false true
  | _ =>
    let s := s.setMap k fun m => { m with heard := delPos pos m.heard, leaving := insPos pos m.leaving }
    s.each (s.portsTo k dev) fun s p =>
      (s.modPort p fun p => { p with peerLeft := true }).sendHop (s.ctlPort k (isEast p)) 6 0 s.devId (topoPay 5 s.devId p.val)

/-- A neighbour answers a leave by the port that faces this device (17 R405). -/
def State.leaveDone (s : State) (r : Fin 2) (lport : Nat) : State :=
  let k : Fin 2 := if s.upperPair r ∨ 2 ≤ lport then 1 else 0
  if s.dlk.sw[k].leaving then
    (s.modSw k fun w => if lport % 2 = 1 then { w with ackE := true } else { w with ackW := true }).tryLeave k
  else s

/-- TOPO arrives on a port (17 R394, R405, R411, R413). -/
def State.topoMsg (s : State) (port : Fin 4) (kind dev lport : Nat) : State :=
  let r := pairOf port
  if dev = s.devId ∨ !s.pairUp r then s
  else match s.ringPosOf r dev with
    | none => s.ringBad
    | some pos =>
      if kind = 5 then s.leaveDone r lport
      else if kind = 0 ∨ 5 < kind then s.ringBad
      else
        let t := match s.mapFor r (decide (2 ≤ lport)) with | some k => s.topoOn k kind dev pos lport | none => s
        (t.passOn port 6 0 (topoPay kind dev lport) dev).resend s

/-- The state of a port in STATE: it has a link. -/
def linkBit (ports p : Nat) : Bool := let v := bits ports (3 * p) 3; v == 3 || v == 4

/-- STATE arrives on a port: it overrides any older view of its sender's ports (17 R411). A pair with no link is not in its ring. -/
def State.stateMsg (s : State) (port : Fin 4) (src : Nat) (ports : Nat) : State :=
  let r := pairOf port
  if src = s.devId ∨ !s.pairUp r then s
  else match s.ringPosOf r src with
    | none => s.ringBad
    | some pos =>
      let view (t : State) (hi : Bool) : State :=
        let e := linkBit ports (2 * hi.toNat)
        let w := linkBit ports (2 * hi.toNat + 1)
        match t.mapFor r hi with
        | none => t
        | some k =>
          if !e && !w then t.setMap k fun m => { m with heard := delPos pos m.heard }
          else (t.markLink k pos true e).markLink k pos false w
      let gw := !s.upperPair r && src == s.gatewayId
      let t := view s false
      let t := if gw then { t with ringl := { t.ringl with gwOut := !linkBit ports 2 && !linkBit ports 3 } } else view t true
      (t.passOn port 8 3 (BitVec.ofNat 1888 ports) src).resend s

/-! ## Leaving (17 R405) -/

/-- The orderly leave of a pair starts. Pair 0 takes the device off its segment, so its own open transfers fail with LEAVING. -/
def State.startLeave (s : State) (k : Fin 2) : State :=
  if s.dlk.sw[k].joined && !s.dlk.sw[k].leaving then
    let s := s.modSw k fun w => { w with leaving := true, returned := false, ackE := false, ackW := false }
    let s := if k = 0 then
        let s := { s with ringl := { s.ringl with st := .leaving } }
        let s := s.each s.ringl.tx fun s t => if (s.tx? t.xid).isSome then s.failTx t 7 true else s
        s.each (s.ringl.rx.filter fun r => !r.done) fun s r => if (s.rx? r.src r.xid).isSome then s.failRx r 7 true else s
      else s
    s.sendTopo k 4 (eastOf k) (westOf k)
  else s

/-! ## The messages and timers as commands -/

/-- REQ. -/
def execReq (h : MsgHdr) (len : W64) (tag : BitVec 14) (vc : BitVec 2) (rop : BitVec 3) (fmt : Byte) (rank : BitVec 6) (s : State) : Out :=
  .next (if s.onRing then
    s.reqMsg { src := h.src, sptn := h.sptn, dptn := h.dptn, xid := h.xid, len := len.toNat, tag := tag, vc := vc.toNat, rop := rop.toNat
               fmt := fmt.toNat, rank := rank.toNat }
  else s)

/-- REQ_RETRY: a REQ refused BUSY is sent again. -/
def execReqRetry (xid : W16) (s : State) : Out :=
  .next (match s.tx? xid with
    | some t => if s.onRing && t.busy then (s.modTx xid fun t => { t with busy := false, answered := false }).sendReq t else s
    | none => s)

/-- Entries of a job's buffer-pool reservation that are not granted (17 R399). -/
def State.freeEntries (s : State) (job : Nat) : Nat :=
  let own := s.ringl.rx.filter fun r => !r.done && (s.op? r.op).any fun o => o.job == job
  let used := (own.map fun r => r.next - r.drained.length).sum
  match s.job? job with | some j => j.resBuf - used | none => 0

/-- GRANT_ISSUE: n entries, the smallest of those the transfer lacks, the reservation's free ones, and 1,024 less those outstanding
(17 R399 step 3); with n zero the grant waits. -/
def execGrantIssue (src : BitVec 17) (xid : W16) (s : State) : Out :=
  .next (match s.rx? src xid with
    | none => s
    | some r =>
      match s.op? r.op with
      | none => s
      | some o =>
        let n := min (xEntries r.len - r.next) (min (s.freeEntries o.job) (1024 - (r.next - r.drained.length)))
        if r.done || n == 0 || !s.onRing then s
        else (s.modRx src xid fun r => { r with next := r.next + n }).sendRange 1 r r.next n)

/-- GRANT. -/
def execGrant (h : MsgHdr) (first : W32) (n : W16) (s : State) : Out :=
  .next (if s.onRing then s.grantMsg h.src h.xid first.toNat n.toNat else s)

/-- DATA. -/
def execData (h : MsgHdr) (off : BitVec 28) (payload : BitVec 1888) (s : State) : Out :=
  .next (if s.onRing then s.dataMsg h.src h.xid off.toNat payload else s)

/-- XACK. -/
def execXack (h : MsgHdr) (first : W32) (n : W16) (s : State) : Out :=
  .next (if s.onRing then (s.xackMsg h.src h.xid first.toNat n.toNat).pumpAll else s)

/-- REFUSE. -/
def execRefuse (h : MsgHdr) (reason : Byte) (s : State) : Out :=
  .next (if s.onRing then s.refuseMsg h.src h.dptn h.xid reason.toNat else s)

/-- TALLY. -/
def execTally (h : MsgHdr) (t : BitVec 17) (signal : Bool) (val : W32) (s : State) : Out :=
  .next (if s.onRing then s.tallyMsg h.src h.sptn h.dptn h.xid t.toNat signal val else s)

/-- TOPO. -/
def execTopo (port : Fin 4) (kind : Byte) (dev : BitVec 17) (lport : Byte) (s : State) : Out :=
  .next (if s.running then s.topoMsg port kind.toNat dev.toNat lport.toNat else s)

/-- STATE. -/
def execState (port : Fin 4) (src : BitVec 17) (ports : BitVec 12) (s : State) : Out :=
  .next (if s.running then s.stateMsg port src.toNat ports.toNat else s)

/-- The code of a port state (16 Table 16.2). -/
def portCode : PortSt → Nat
  | .down => 0 | .loopback => 1 | .train => 2 | .up => 3 | .retrain => 4

/-- The four port states as STATE carries them. -/
def State.portStates (s : State) : Nat :=
  portCode s.dlk.port[0].st + portCode s.dlk.port[1].st * 8 + portCode s.dlk.port[2].st * 64 + portCode s.dlk.port[3].st * 512

/-- STATE_BROADCAST: the port states go both ways round every ring that the device has joined. -/
def execStateBroadcast (s : State) : Out :=
  let pay := BitVec.ofNat 1888 s.portStates
  let both (s : State) (r : Fin 2) : State := (s.sendHop (s.ctlPort r true) 8 3 s.devId pay).sendHop (s.ctlPort r false) 8 3 s.devId pay
  .next (if s.running then (let t := both s 0; if t.upperPair 1 then both t 1 else t) else s)

/-- XFER_TIMEOUT: no GRANT, XACK or DATA for XFER_TO fails a transfer with TIMEOUT, or UNREACHABLE (17 R402). -/
def execXferTimeout (xid : W16) (sender : Bool) (partner : BitVec 17) (s : State) : Out :=
  let late (t : W64) : Bool := t.toNat + s.xferTo * 1000000 ≤ s.clk.gt.toNat
  let reason := if s.reachable partner.toNat then 5 else 6
  .next (if !s.running then s
    else if sender then
      match s.tx? xid with
      | some t => if t.dst = partner ∧ late t.progress then s.failTx t reason true else s
      | none => s
    else
      match s.rx? partner xid with
      | some r => if !r.done ∧ late r.progress then s.failRx r reason true else s
      | none => s)

/-- A ledger mismatch: an S4 error that names the class (17 R406, R413). -/
def State.mismatch (s : State) (cls : Nat) : State :=
  let s := { s with ldg := { s.ldg with mismatch := true, cls := BitVec.ofNat 3 cls } }
  s.report { recOf 4 0x0A 4 unitLedger with detail := cls } none 0

/-- HOP_AUDIT: the grant count goes to the peer in a CTRL flit, and the peer's free credits with the credit-bearing flits in flight are held against
the credits outstanding; two failures in succession are a mismatch (17 R406). -/
def execHopAudit (port : Fin 4) (peerFree inFlight : Nat) (s : State) : Out :=
  .next (if s.dlk.port[port].st ≠ .up ∨ !s.running then s
    else
      let s := (s.modPort port fun p => { p with ctrlDue := p.ctrlDue + 1 }).pumpPort port
      let p := s.dlk.port[port]
      if peerFree + inFlight = vsum p.granted + vsum p.inFlits then s.modPort port fun p => { p with auditFail := 0 }
      else if p.auditFail = 0 then s.modPort port fun p => { p with auditFail := 1 }
      else s.mismatch 0)

/-- The reclaimed credits return to free, and a new peer receives them (17 R407). -/
def Port.reclaimed (p : Port) (joined : Bool) : Port :=
  if p.linked && joined then { p with owed := vplus p.owed p.reclaim, reclaim := vzero }
  else { p with issued := p.issued - vsum p.reclaim, reclaim := vzero }

/-- CREDIT_RECLAIM: the credits a lost peer held return to free (17 R407). -/
def execCreditReclaim (port : Fin 4) (s : State) : Out :=
  let n := vsum s.dlk.port[port].reclaim
  let s := { s with ldg := { s.ldg with reclaimCnt := satAdd s.ldg.reclaimCnt n } }
  .next ((s.modPort port fun p => p.reclaimed (s.pairUp (pairOf port))).pumpPort port)

/-- LEAVE_TIMEOUT: a leave not complete after 1 ms removes the drive anyway (17 R405). -/
def execLeaveTimeout (pair : Fin 2) (s : State) : Out :=
  .next (if s.dlk.sw[pair].leaving then
    if s.pwr.st = .shuttingDown then { s.dropDrive pair 3 with pwr := { (s.dropDrive pair 3).pwr with leaveTimeout := true } }
    else s.dropDrive pair 5
  else s)

end Sys2Proof.Machine
end

