-- ==== Sys2Proof/Machine/EngineStart.lean ====
section
/-! DEFINITION. When a queued operation starts (05 R129, R130; 04 R94, R95; 06 R165; 21 R492), and the channel functions of KVCMP,
which take effect when they start (12 R286). -/

namespace Sys2Proof.Machine

/-! ## Service order (04 R94) -/

/-- Job a is served before job b at an engine kind. -/
def State.servedBefore (s : State) (k : QKind) (a b : Job) : Bool := s.serves (resEngine k) a.turn b.turn

/-! ## Units -/

/-- A unit serves no operation. A TDTK whose records wait for their stream ring holds its channel, not its unit (03 R69, 09 R240). -/
def State.unitFree (s : State) (k : QKind) (u : Nat) : Bool :=
  !s.ops.any fun o => o.k == k && o.run == some u && !(o.mn == .tdtk && s.dtkQueued o)

/-- The next operation of a conductor's queue to go on a unit: a suspended one whose unit is free, else the first that has not started (05
R129). -/
def State.headOf (s : State) (c : Fin 32) (k : QKind) : Option Op :=
  s.ops.find? fun o => o.c == c && o.k == k && o.run.isNone && (match o.home with | some u => s.unitFree k u | none => true)

/-- The logical units an operation can run on, lowest first (05 R129; 09 R222; 10 R257; 11 R274; 13 R309). How many MCONVs a die's migration
engine runs at once is not stated (01 R11, 05 Table 5.13): each conductor of the die has a place of its own (DESIGN CHOICE, log 64). -/
def unitsFor (o : Op) : List Nat :=
  let d := dieOfCluster o.c
  match o.k with
  | .mxa | .mvp | .ssu => [o.c.val]
  | .lse => (List.range 4).map (4 * d + ·)
  | .gse => (List.range 2).map (2 * d + ·)
  | .smu => [d]
  | .txu => [if o.mn = .tdtk then bits o.sp.toNat 16 2 else bits o.sp.toNat 0 2]
  | .mge | .hdma => [o.c.val]
  | .vc1 | .vc2 => [0]

/-- The unit an operation would go on now: the lowest free one, or, for one suspended, its own (10 R257, 12 R305). Ring operations share the
ring layer without limit. -/
def State.unitOf (s : State) (o : Op) : Option Nat :=
  match o.k with
  | .vc1 | .vc2 => some 0
  | _ => (match o.home with | some u => [u] | none => unitsFor o).find? (s.unitFree o.k)

def rotOf : QKind → Option RotKind
  | .mxa => some .mxa | .mvp => some .mvp | .ssu => some .ssu | .lse => some .lse | .gse => some .gse | _ => none

/-- Units of a rotating kind on a die (21 R491). -/
def rotN : RotKind → Nat
  | .lse => 4 | .gse => 2 | _ => 8

def RotOff.get (r : RotOff) : RotKind → Nat
  | .mxa => r.mxa.toNat | .mvp => r.mvp.toNat | .ssu => r.ssu.toNat | .lse => r.lse.toNat | .gse => r.gse.toNat

/-- The physical unit that serves a logical one (21 R491). -/
def State.physUnit (s : State) (k : RotKind) (u : Nat) : Nat :=
  let n := rotN k
  u / n * n + (u % n + (s.thm.off[u / n]?.map (·.get k)).getD 0) % n

/-- A rotation holds starts of this kind on the operation's die (21 R492). -/
def State.isHeld (s : State) (o : Op) : Bool :=
  match rotOf o.k with
  | some r => s.thm.holds.any fun h => h.die.val == dieOfCluster o.c && h.k == r
  | none => false

/-- A C0 operation ready to start ends a hold as a skip (21 R492). -/
def State.skipHold (s : State) (o : Op) : State :=
  match rotOf o.k with
  | some r =>
    if s.isHeld o && !o.started then
      { s with thm := { s.thm with holds := s.thm.holds.filter fun h => !(h.die.val == dieOfCluster o.c && h.k == r)
                                   skip := satAdd s.thm.skip 1 } }
    else s
  | none => s

/-- The unit is this partition's now; a zeroing before its operation is counted where the owner changes (06 R165). -/
def State.own (s : State) (o : Op) (u : Nat) : State :=
  match rotOf o.k with
  | none => s
  | some r =>
    let pu := s.physUnit r u
    let old := s.owners.find? fun w => w.k == o.k && w.unit == pu
    let changed := (o.k == .mxa || o.k == .mvp) && old.any fun w => w.ptn != o.ptn
    let s := if changed then s.bump o.ptn .engZero 1 else s
    { s with owners := { k := o.k, unit := pu, ptn := o.ptn } :: s.owners.filter fun (w : Owner) => !(w.k == o.k && w.unit == pu) }

/-! ## Starting -/

/-- The checks an operation passes when it starts, with its codebook snapshots. -/
def startCheck (s : State) (o : Op) : Except Exc (List (List Byte)) :=
  match o.mn with
  | .xmul | .mvmul => matStart s o
  | .topk => topkStart s o
  | .lscan => lscanStart s o
  | .gath | .scat => gatStart s o
  | .kvcmp => kvStart s o
  | .samp => sampStart s o
  | .mconv => mconvStart s o
  | .ttok => ttokStart s o
  | .tdtk => tdtkStart s o
  | .hrd => hrdStart s o
  | .hwr => hwrStart s o
  | .rsend | .rrecv | .rreduce => ringStart s o

/-- A KVCMP other than COMPACT takes effect when it starts (12 R286). -/
def kvGo (s : State) (o : Op) : State :=
  match kvWord o.sp.toNat with
  | some k =>
    if k.func = 3 then s
    else match kvAct o s with
      | (t, some e) => t.opFail o e
      | (t, none) => (((t.bump o.ptn .kvcmpCnt 1).charge o).opDone o)
  | none => s

/-- What an operation does at once when it has started. -/
def startGo (s : State) (o : Op) : State :=
  match o.mn with
  | .mconv => mconvGo s o
  | .hrd => hrdGo s o
  | .hwr => hwrGo s o
  | .kvcmp => kvGo s o
  | .rsend | .rrecv | .rreduce => ringGo s o
  | _ => s

/-- Put an operation on a unit: a new one is checked first, and fails its job where a check does (05 R130, R137); a suspended one goes
on. -/
def State.putOn (s : State) (o : Op) (u : Nat) : State :=
  if o.started then (s.own o u).modOp o.id fun o => { o with run := some u, sliceCyc := s.clk.cyc10 }
  else
    let o1 := { o with run := some u, home := some u, startCyc := s.clk.cyc10, sliceCyc := s.clk.cyc10 }
    match startCheck s o1 with
    | .error e => s.opFail o1 (.exc e)
    | .ok cbs =>
      let o2 := { o1 with cbs := cbs }
      startGo ((s.own o2 u).modOp o.id fun _ => o2) o2

/-- A TDTK waits while another that its conductor issued on the channel before it is incomplete, whichever text unit that one names (09
R238). -/
def State.dtkBlocked (s : State) (o : Op) : Bool :=
  o.mn == .tdtk && (match dtkWord o.sp.toNat with
    | some w => (s.others o).any fun x => x.mn == .tdtk && x.c == o.c && (match dtkWord x.sp.toNat with | some y => y.chan == w.chan | none => false)
    | none => false)

/-- An operation can go on a unit now: one is free, and, for one that has still to start, no rotation holds it back and its channel is not
held. -/
def State.canStart (s : State) (o : Op) : Bool :=
  let c0 := match s.job? o.job with | some j => dClass j.desc == 0 | none => false
  (s.unitOf o).isSome && (o.started || ((!s.isHeld o || c0) && !s.kvBlocked o && !s.dtkBlocked o))

/-- The operations that wait for the same units at the head of their queues. -/
def State.rivals (s : State) (o : Op) : List Op :=
  ((List.finRange 32).filterMap fun c => s.headOf c o.k).filter fun x => unitsFor x == unitsFor o && s.canStart x

/-- An operation has the turn under 04 R94. -/
def State.hasTurn (s : State) (o : Op) : Bool :=
  !shared o.k || (match s.job? o.job with
    | none => false
    | some j => (s.rivals o).all fun x => match s.job? x.job with | some i => x.id == o.id || !s.servedBefore o.k i j | none => true)

/-- The operation of a conductor's queue of a kind that can go on a unit now and has the turn. -/
def State.nextOf (s : State) (c : Fin 32) (k : QKind) : Option Op := (s.headOf c k).filter fun o => s.running && s.canStart o && s.hasTurn o

/-- Start the head of a conductor's queue of a kind, if it can start and has the turn. -/
def State.startHead (s : State) (c : Fin 32) (k : QKind) : State :=
  match s.nextOf c k with
  | none => s
  | some o =>
    let s := s.skipHold o
    match s.unitOf o with
    | some u => ((s.putOn o u).settle).pumpAll
    | none => s

/-- ENGINE_OP_START: the next operation of a conductor's queue starts on a free engine, in issue order. What its accesses meet comes
first. -/
def execEngineOpStart (c : Fin 32) (k : QKind) (s : State) (m : List MemEv := []) : Out :=
  .next (if (s.nextOf c k).isSome then (s.meet m).startHead c k else s)

/-- An operation leaves its unit to another for a while. A GSE's buffer is emptied then; how far the operation had come is not stated (11
R271). -/
def State.suspend (s : State) (o : Op) : State :=
  let r := if o.k = .gse then s.pickBelow (tDim o.dB 0 + 1) else (s, 0)
  (r.1.charge o).modOp o.id fun x => { x with run := none, cuts := if o.k = .gse then x.cuts ++ [r.2] else x.cuts }

/-- The operation on a shared engine's unit yields to the one that has the turn (04 R94, R95); without one it goes on. -/
def State.sliceEnd (s : State) (k : QKind) (unit : Nat) (o : Op) : State :=
  let t := s.modOp o.id fun x => { x with run := none }
  let cands := ((List.finRange 32).filterMap fun c => t.headOf c k).filter fun x => t.unitOf x == some unit && t.canStart x
  match firstBy (fun a b => match s.job? a.job, s.job? b.job with | some i, some j => s.servedBefore k i j | _, _ => false) cands with
  | some x => if x.id = o.id then s else (((s.suspend o).skipHold x).putOn x unit).settle.pumpAll
  | none => s

/-- ENGINE_SLICE_EXPIRY: a slice of a shared engine ends (04 R95). -/
def execEngineSliceExpiry (k : QKind) (unit : Nat) (s : State) : Out :=
  .next (if !shared k || !s.running then s
    else match s.ops.find? fun o => o.k == k && o.run == some unit && !s.workDone o with
      | none => s
      | some o => s.sliceEnd k unit o)

/-! ## KVCMP (12 R285, R286) -/

/-- Issue the KVCMP whose channel word names function `f`: it joins its queue, and, with nothing ahead of it, a function other than
COMPACT starts and takes effect. A word of another function is another command; a reserved function is issued and fails when it
starts. -/
def kvIssue (i : Instr) (c : Fin 32) (o : EngF) (s : State) (f : Nat) : Out :=
  let w := fld (s.cl[c].rs o.sp) 12 3
  if s.cl[c].rp o.p && w != f && w ≤ 5 then .next s
  else
    match engIssue i c o s .gse .kvcmp { a := true, b := true, c := false, d := false } false with
    | .next t => .next (if f = 3 ∨ t.nextOp = s.nextOp then t else t.startHead c .gse)
    | x => x

/-- KVCMP OPEN: a generation channel opens with a mode and an optional adapter. -/
def execKvcmpOpen (c : Fin 32) (o : EngF) (s : State) : Out := kvIssue (.kvcmpOpen c o) c o s 0

/-- KVCMP RESERVE: a channel's page list grows, all or none. -/
def execKvcmpReserve (c : Fin 32) (o : EngF) (s : State) : Out := kvIssue (.kvcmpReserve c o) c o s 1

/-- KVCMP SETLEN: LEN is set, with pages released under TRIM. -/
def execKvcmpSetlen (c : Fin 32) (o : EngF) (s : State) : Out := kvIssue (.kvcmpSetlen c o) c o s 2

/-- KVCMP COMPACT: issued; it holds its channel once started and completes at COMPACT_DONE. -/
def execKvcmpCompact (c : Fin 32) (o : EngF) (s : State) : Out := kvIssue (.kvcmpCompact c o) c o s 3

/-- KVCMP STATE: the header and the page list are written. -/
def execKvcmpState (c : Fin 32) (o : EngF) (s : State) : Out := kvIssue (.kvcmpState c o) c o s 4

/-- KVCMP CLOSE: the pages return to the pool and the channel is closed. -/
def execKvcmpClose (c : Fin 32) (o : EngF) (s : State) : Out := kvIssue (.kvcmpClose c o) c o s 5

end Sys2Proof.Machine
end

