-- ==== Sys2Proof/Machine/Done.lean ====
section
/-! DEFINITION. The completions of engine operations: their work, what their accesses meet, and the tally add or the failure that ends
them (05 R121, R137; 06 R164). -/

namespace Sys2Proof.Machine

/-- An operation of mnemonic `mn` that is on its unit, with its work still to do, and stalls on no block being zeroed (07 R191). -/
def State.atWork (s : State) (id : Nat) (mn : EngOp) : Option Op :=
  (s.op? id).filter fun o => o.mn == mn && o.run.isSome && s.running && !s.workDone o && !((s.opTensors o).any (s.P o.ptn).zeroing)

/-- The work of an operation ends: it leaves its unit, and its tally is added unless what it made is still to be written (05 R121, 09
R235); or its job fails. -/
def State.opEnd (s : State) (o : Op) (e : Option EngErr) : State :=
  match e with
  | some e => s.opFail o e
  | none =>
    let s := s.charge o
    if s.workDone o then s.pumpAll else (s.opDone o).pumpAll

/-- Complete an operation of mnemonic `mn`: the errors its accesses met come first, and a parity error fails its job with part of its
work done (06 R164). -/
def engDone (s : State) (id : Nat) (mn : EngOp) (parity : Bool) (m : List MemEv) : Out :=
  if (s.atWork id mn).isNone then .next s
  else
    let s := s.meet m
    match s.atWork id mn with
    | none => .next s
    | some o =>
      if parity then .next ((s.cutOp o).opFail o (.exc exData))
      else
        let r := opWork o s none
        .next (r.1.opEnd o r.2)

/-- XMUL_DONE. -/
def execXmulDone (op : Nat) (parity : Bool) (s : State) (m : List MemEv := []) : Out := engDone s op .xmul parity m

/-- MVMUL_DONE. -/
def execMvmulDone (op : Nat) (parity : Bool) (s : State) (m : List MemEv := []) : Out := engDone s op .mvmul parity m

/-- TOPK_DONE. -/
def execTopkDone (op : Nat) (parity : Bool) (s : State) (m : List MemEv := []) : Out := engDone s op .topk parity m

/-- LSCAN_DONE. -/
def execLscanDone (op : Nat) (parity : Bool) (s : State) (m : List MemEv := []) : Out := engDone s op .lscan parity m

/-- GATH_DONE. -/
def execGathDone (op : Nat) (parity : Bool) (s : State) (m : List MemEv := []) : Out := engDone s op .gath parity m

/-- SCAT_DONE. -/
def execScatDone (op : Nat) (parity : Bool) (s : State) (m : List MemEv := []) : Out := engDone s op .scat parity m

/-- COMPACT_DONE. -/
def execCompactDone (op : Nat) (parity : Bool) (s : State) (m : List MemEv := []) : Out := engDone s op .kvcmp parity m

/-- SAMP_DONE. -/
def execSampDone (op : Nat) (parity : Bool) (s : State) (m : List MemEv := []) : Out := engDone s op .samp parity m

/-- TTOK_DONE. -/
def execTtokDone (op : Nat) (parity : Bool) (s : State) (m : List MemEv := []) : Out := engDone s op .ttok parity m

/-- TDTK_DONE: the records are formed; the operation completes when the last has been written (09 R235, R240). -/
def execTdtkDone (op : Nat) (parity : Bool) (s : State) (m : List MemEv := []) : Out := engDone s op .tdtk parity m

/-! ## MCONV -/

/-- The blocks of a conversion into a tensor in place in T2, up to one that cannot be written: their bytes, and why it ended. -/
def mconvT2 (o : Op) (cw : Ccw) (book : CbSet) (src : State → Who → Nat → Nat → Except EngErr (List Byte)) (s : State) :
    State × List Byte × Option EngErr :=
  let w := s.asker o uMge
  (mconvBlks o cw).foldl (fun x i =>
    if x.2.2.isSome then x
    else match mconvBlk x.1 o cw book (src x.1 w) i with
      | .error e => (x.1, x.2.1, some e)
      | .ok c =>
        let n := blkElems cw.target
        let bad := (x.1.rangeAt o o.dA (srcLen cw (i * n)) (srcLen cw n)).any fun r => w.bad.any (meets r)
        let r := x.1.blur 0 bad [] c.bytes
        (r.1.cvtCount o c, x.2.1 ++ r.2, none)) (s, [], none)

/-- The output of a conversion into T2 goes out; one cut short by an error fails its job once what comes before is written (02 R53). -/
def State.sendT2 (s : State) (o : Op) (iova : Nat) (bs : List Byte) (e : Option EngErr) : State :=
  let s := s.modOp o.id fun x => { x with doom := e }
  let s := if bs.isEmpty then s
    else s.startX { blankX o.ptn o.cfg 2 iova bs.length true with job := some o.job, op := some o.id, data := bs }
  s.failDoomed.pumpAll

/-- A conversion, with its source and its codebook set at hand. -/
def State.mconvEnd (s : State) (o : Op) (cw : Ccw) (book : CbSet) (src : State → Who → Nat → Nat → Except EngErr (List Byte)) : State :=
  match t2Of (s.operand (o.who uMge) o.rC o.dC false true) with
  | some i => let r := mconvT2 o cw book src s; r.1.sendT2 o i r.2.1 r.2.2
  | none => let r := mconvRun o cw book src s none; r.1.opEnd o r.2

/-- A read from host memory has the length its request fixes. -/
def hostLen (r : HostRead) (n : Nat) : Bool := match r with | .data bs => bs.length == n | .failed => true

/-- The bytes of a codebook set in place in T2 must hold no reserved value (02 R37). -/
def bookBad (b : CbSet) : Bool := match b with | some b => sliceLe b 112 16 != 0 | none => false

/-- A conversion whose reads from host memory have come back (02 R53; 07 R177; log 18). -/
def State.mconvGot (s : State) (o : Op) (cw : Ccw) (src cb : HostRead) : State :=
  let from_ := t2Of (s.operand (o.who uMge) o.rA o.dA true false)
  let cbAt := s.cbT2 o
  let s := s.dropXfers o.id
  match from_, src, cbAt, cb with
  | some i, .failed, _, _ => s.opFail o (.data 5 i)
  | _, _, some i, .failed => s.opFail o (.data 5 i)
  | f, a, c, b =>
    let book : CbSet := match c, b with | some _, .data bs => some bs | _, _ => o.cb 2
    if c.isSome && bookBad book then s.opFail o (.exc { cause := 0x04, dreg := some o.rC, addr := some (tCbOff o.dC, tCbSeg o.dC, true) })
    else
      match f, a with
      | some _, .data bs => s.mconvEnd o cw book fun _ _ off n => .ok ((bs.drop off).take n)
      | _, _ => s.mconvEnd o cw book (State.mconvSrc o)

/-- MCONV_DONE: the source is converted and written block by block in ascending order (02 R53); the tally follows the last byte. `src` and
`cb` bring what lies in place in T2. -/
def execMconvDone (op : Nat) (parity : Bool) (src cb : HostRead) (s : State) (m : List MemEv := []) : Out :=
  match s.atWork op .mconv with
  | none => .next s
  | some o =>
    if !s.opIssued op then .next s
    else if ((t2Of (s.operand (o.who uMge) o.rA o.dA true false)).isSome && !hostLen src (tBytes o.dA)) || ((s.cbT2 o).isSome && !hostLen cb 128) then
      .refused .illFormed
    else
      let s := s.meet m
      match s.atWork op .mconv, ccwOf o.sp.toNat with
      | some o, some cw => .next (if parity then (s.cutOp o).opFail o (.exc exData) else s.mconvGot o cw src cb)
      | _, _ => .next s

/-! ## HRD and HWR -/

/-- HRD_DONE: the whole source has arrived from host memory, or a read failed there (05 R127; log 18). -/
def execHrdDone (op : Nat) (d : HostRead) (s : State) (m : List MemEv := []) : Out :=
  match s.atWork op .hrd with
  | none => .next s
  | some o =>
    if !s.opIssued op then .next s
    else if !hostLen d (tBytes o.dC) then .refused .illFormed
    else
      let s := s.meet m
      match s.atWork op .hrd, d with
      | none, _ => .next s
      | some o, .failed => .next ((s.dropXfers op).opFail o (.data 5 o.sp.toNat))
      | some o, .data bs =>
        let s := s.dropXfers op
        let r := s.store o (s.asker o 8) o.rC o.dC 0 bs []
        .next (r.1.opEnd o r.2)

/-- HWR_DONE: the whole source has been sent to host memory. -/
def execHwrDone (op : Nat) (s : State) (m : List MemEv := []) : Out :=
  match s.atWork op .hwr with
  | none => .next s
  | some _ =>
    if !s.opIssued op then .next s
    else
      let s := s.meet m
      match s.atWork op .hwr with
      | none => .next s
      | some o => .next ((s.dropXfers op).opEnd o none)

/-! ## Constraint sets -/

/-- CS_LOAD_DONE: the set has been checked, and is loaded if the result is OK (13 R318). -/
def execCsLoadDone (p : Fin 16) (s : State) (m : List MemEv := []) : Out :=
  let busy (s : State) : Bool := (s.P p).csBusy && (s.P p).csOp == 1 && s.running
  if !busy s then .next s
  else
    let s := s.meet m
    if !busy s then .next s
    else
      let r := csCheck s p (s.P p).csSet.toNat
      .next (s.modP p fun q =>
        { q with csBusy := false, csResult := BitVec.ofNat 3 r.1, csA := BitVec.ofNat 13 r.2.1, csB := BitVec.ofNat 13 r.2.2
                 csLoaded := if r.1 = 0 then setBit q.csLoaded q.csSet.toNat true else q.csLoaded })

end Sys2Proof.Machine
end

