-- ==== Sys2Proof/Machine/Translation.lean ====
section
/-! DEFINITION. Page walks (07 R184, R185, R522), the end of DMA faults (07 R74, R187-R189, Table 7.7), and IOTLB invalidation (07
R186). -/

namespace Sys2Proof.Machine

/-! ## What fails with a transfer -/

/-- The batch transfers of a job ring, oldest first; `base` counts the descriptors that have arrived, and `op` marks the part of a batch
past the wrap. -/
def State.batch (s : State) (p : Fin 16) (r : Fin 8) : List Xfer := s.xfers.filter fun x => x.ptn == p && x.chan == 5 && x.ring == RingRef.jr r

/-- Write the head mirror (03 R65). -/
def State.mirror (s : State) (p : Fin 16) (r : Fin 8) : State :=
  let j := (s.P p).jr[r]
  s.startX { blankX p (s.P p).swap.active 7 (fld j.mirror 3 45 * 8) 8 true with
    ring := .jr r, data := leBytes 2 j.head.toNat ++ [0, 0] ++ leBytes 4 j.fetched.toNat }

/-- A job ring halts: fetching stops and an S2 record names the ring and the address (03 R81; 18 Table 18.5 KIND 0x07 CAUSE 2). -/
def State.haltRing (s : State) (p : Fin 16) (r : Fin 8) (io : Fin 2) (addr : Nat) : State :=
  (s.modP p fun q => q.modJr r fun j => { j with halt := true }).report
    { recOf 2 7 2 (unitIo io) with ptn := some p, detail := addr % 2 ^ 64 + r.val * 2 ^ 64 } none 0

/-- A descriptor read fails: the batch ends, the slots of its descriptors that have not arrived return, those that have are mirrored, and
the ring halts (03 R64, R65, R81). -/
def State.failBatch (s : State) (p : Fin 16) (r : Fin 8) (io : Fin 2) (addr : Nat) : State :=
  let gone := s.batch p r
  let back := (gone.map fun x => 2 * (x.len / 128 - x.base)).sum
  let some_ := gone.any (fun x => 0 < x.base) || !gone.any (fun x => x.op.isNone)
  let s := { s with xfers := s.xfers.filter fun (x : Xfer) => !(x.ptn == p && x.chan == 5 && x.ring == RingRef.jr r) }
  -- cancels held for descriptors that now never arrive name no job
  let lost (c : Fin 8 × Nat × W32) : Bool :=
    c.1 == r && !((s.P p).undec.any fun u => u.ring == r && u.slot == c.2.1 && u.fseq == c.2.2)
  let s := s.bump p .hlDbDrop ((s.P p).cancels.filter lost).length
  let s := s.modP p fun q => { q with cancels := q.cancels.filter fun c => !lost c }
  let s := s.modP p fun q => q.modCr r fun c => { c with resv := c.resv - back }.tryClear
  ((if some_ then s.mirror p r else s)).haltRing p r io addr

/-- The ring kind and index of 18 Table 18.5 KIND 0x07. -/
def ringByte : RingRef → Nat
  | .jr r => r.val | .cr r => 16 + r.val | .sr r => 32 + r.val | .er => 48 | .ger => 0

/-- A record write that fails on the device's side breaks its ring: the record and those behind it are lost (03 R523; 18 R432). -/
def State.breakRing (s : State) (x : Xfer) : State :=
  let s := s.delX x.id
  match x.ring with
  | .cr r =>
    let lost := (s.P x.ptn).cr[r].outq
    (s.modP x.ptn fun q => q.modCr r fun c => { c with wfail := true, outq := [], resv := 0 }.tryClear).each lost State.crDone
  | .sr r =>
    let lost := (s.P x.ptn).sr[r].outq
    let s := s.modP x.ptn fun q => q.modSr r fun c => { c with wfail := true, outq := [], stall := false }.tryClear
    s.each (lost.filterMap (·.op)).dedup fun s id => match s.op? id with | some o => s.opDone o | none => s
  | .er =>
    (s.modEr (some x.ptn) fun r => { r with wfail := true }).dropQueue (some x.ptn) false
  | _ => s

/-- The unit that reports the failure of a transfer: the migration engine for a tensor move, the engine of an operation, else the
host link. -/
def State.xUnit (s : State) (x : Xfer) : Nat :=
  let t := (s.P x.ptn).tensor x.base
  if x.chan = 0 ∨ x.chan = 1 then 0x3C + (match t with | some t => (match t.dest with | e :: _ => s.dieOf e.1.2 | [] => t.die.val) | none => 0)
  else match x.op.bind s.op? with
    | some o => s.opUnit o
    | none => unitIo (s.dmaIo x.ptn x.cfg)

/-- Jobs that end with one JOB_DATA record each. -/
def State.failJobs (s : State) (l : List Nat) (r : Rec) (code : Nat) : State :=
  s.each l fun s id => if (s.liveJob id).isSome then s.report r (some id) code else s

/-- The consequences of 07 Table 7.7, with a JOB_DATA cause and detail and the final status of the jobs that end. -/
def State.failX (s : State) (x : Xfer) (cause detail code : Nat) : State :=
  let r := jobData cause detail (s.xUnit x)
  let addr := x.iova + x.done
  match x.chan with
  | 0 =>
    let l := ((s.P x.ptn).loaders x.base ++ x.job.toList).dedup
    -- R189: no tally of a PIN or MIG that fails is added
    ((s.delX x.id).failJobs l r code).abortLoad x.ptn x.base
  | 1 =>
    let l := match (s.P x.ptn).tensor x.base with
      | some t => if t.moving = some .flush then [] else x.job.toList.filter s.stillRuns
      | none => []
    ((s.delX x.id).failJobs l r code).abortWb x.ptn x.base
  | 5 => match x.ring with
    | .jr k => s.failBatch x.ptn k (s.dmaIo x.ptn x.cfg) (x.iova + x.done / 128 * 128)
    | _ => s
  | 7 => match x.ring with
    | .jr k => (s.delX x.id).haltRing x.ptn k (s.dmaIo x.ptn x.cfg) x.iova
    | _ => s
  | 8 | 9 | 10 =>
    -- S3, FENCE_CAUSE 4 (08 R211)
    let io := s.dmaIo x.ptn x.cfg
    let i := (s.breakRing x).issue { recOf 3 7 4 (unitIo io) with ptn := some x.ptn, detail := addr % 2 ^ 64 + ringByte x.ring * 2 ^ 64 }
    (State.contain i (some x.ptn) none 0 4).pumpAll
  | _ => s.failJobs x.job.toList r code

/-! ## Page walks -/

/-- What a walk found: a leaf's first page, its pages, its base and its rights; a fault's reason; or too few entries. -/
inductive Walk where
  | leaf (page pages pa : Nat) (r w : Bool)
  | fault (reason : Nat)
  | short
  deriving DecidableEq, Repr

def pteV (e : W64) : Bool := bit e 0
def pteLeaf (e : W64) : Bool := bit e 3
def pteC64 (e : W64) : Bool := bit e 4
def pteAddr (e : W64) : Nat := fld e 12 52 * 4096

/-- The index of a page at a level: IOVA[47:39], [38:30], [29:21] and [20:12] at levels 3 to 0. -/
def pteIndex (page level : Nat) : Nat := page / 512 ^ level % 512

/-- The walk of 07 R184 from the table at an address down, over the entries it reads: each is read at its index in its table. Level-0 members
of a 64 KiB group give the group's one entry (07 R185). -/
def walk (page : Nat) : Nat → Nat → List (W64 × W64) → Walk
  | _, _, [] => .short
  | level, table, (a, e) :: rest =>
    if a.toNat ≠ (table + 8 * pteIndex page level) % 2 ^ 64 then .short
    else if !pteV e then .fault rsnNotPresent
    else match level with
    | 0 =>
      if fld e 5 7 != 0 || !pteLeaf e then .fault rsnReserved
      else if pteC64 e then .leaf (page / 16 * 16) 16 ((pteAddr e + 2 ^ 64 - page % 16 * 4096) % 2 ^ 64) (bit e 1) (bit e 2)
      else .leaf page 1 (pteAddr e) (bit e 1) (bit e 2)
    | n + 1 =>
      if fld e 5 7 != 0 || pteC64 e then .fault rsnReserved
      else if pteLeaf e then
        if n = 0 ∧ fld e 12 9 = 0 then .leaf (page / 512 * 512) 512 (pteAddr e) (bit e 1) (bit e 2)
        else .fault rsnReserved
      else walk page n (pteAddr e) rest

/-- The transfers that wait for a walk of a page: translated by that set, at that page, on a link that is up. -/
def State.waiters (s : State) (p : Fin 16) (cfg : Bool) (page : Nat) : List Xfer :=
  s.xfers.filter fun x => x.ptn == p && x.cfg == cfg && x.st == .walking && x.done < x.len && (x.iova + x.done) / 4096 == page

/-- PAGE_WALK_DONE: the walk of a missed page from the set's root ends (07 R183). Its leaf fills the IOTLB and the transfers that wait on it go on
or fault; a walk that meets a fault holds them; a failed entry read is handled as under 03 R81 (07 R187, R189, R522). -/
def execPageWalkDone (p : Fin 16) (cfg : Bool) (page : BitVec 36) (w : WalkRead) (s : State) : Out :=
  let l := s.waiters p cfg page.toNat
  let io := s.dmaIo p cfg
  if l.isEmpty || !s.io[io].link then .next s
  else
    match w with
    | .failed => .next (s.each l fun s x => if (s.x? x.id).isSome then s.failX x 5 (x.iova + x.done) stError else s).failDoomed
    | .entries es =>
      match walk page.toNat 3 (csRoot ((s.P p).cset cfg)) es with
      | .short => .refused .illFormed
      | .fault reason => .next ((s.each l fun s x => s.raiseFault x reason).pumpAll)
      | .leaf first n pa r wr =>
        let s := s.modIo io fun d =>
          { d with tlb := tlbFill d.tlb { ptn := p, cfg := cfg, page := first, pages := n, pa := pa, r := r, w := wr } }
        .next ((s.each l fun s x => if (if x.write then wr else r) then s.runX x.id else s.raiseFault x rsnPermission).pumpAll.failDoomed)

/-! ## The end of a fault -/

/-- The transfer that a recorded fault holds. -/
def State.heldX (s : State) (p : Fin 16) (fid : W16) : Option Xfer :=
  s.xfers.find? fun x => x.ptn == p && (match x.st with | .held f _ => f == fid | _ => false)

/-- A recorded fault fails: counted, with the consequences of Table 7.7; the oldest fault without a record then receives its own (07
R188, R189). -/
def State.failFault (s : State) (p : Fin 16) (x : Xfer) (fid : W16) : State :=
  (((s.bump p .fltFail 1).failX x 6 fid.toNat stFault).promoteFault p).pumpAll

/-- FAULT_HOLD_EXPIRY: a fault whose record was issued 1 s ago fails (07 R189). -/
def execFaultHoldExpiry (p : Fin 16) (fid : W16) (s : State) : Out :=
  match s.heldX p fid with
  | some x => match x.st with
    | .held f t => if t.toNat + 1000000000 ≤ s.clk.gt.toNat then .next (s.failFault p x f) else .next s
    | _ => .next s
  | none => .next s

/-- A retry discards the cached translation of the faulting page and walks again (07 R188). -/
def State.retryX (s : State) (x : Xfer) : State :=
  let page := (x.iova + x.done) / 4096
  let s := s.modIo (s.dmaIo x.ptn x.cfg) fun d =>
    { d with tlb := d.tlb.filter fun e => !(e.ptn == x.ptn && e.cfg == x.cfg && e.page ≤ page && page < e.page + e.pages) }
  (s.modX x.id fun y => { y with st := .walking }).runX x.id

/-- A doorbell write that is discarded and counted (03 R58, R74, R76). -/
def State.dbDrop (s : State) (p : Fin 16) : State := s.bump p .hlDbDrop 1

/-- A partition doorbell: through the VF bound to the partition it acts; through the unbound VF it is discarded, and counted while the
partition has an active set (03 R58, R61, R79). -/
def State.doorbell (s : State) (fn : Fn) (f : State → Fin 16 → State) : State :=
  match fn with
  | .pf _ => s
  | .vf io n =>
    if !(s.fnAlive fn && s.up) then s
    else match s.ioOf n with
      | none => s
      | some b => if b = io then f s n else s.dbDrop n

/-- FAULT_RESUME_DB (03 R74). -/
def execFaultResumeDb (fn : Fn) (val : W32) (s : State) : Out :=
  .next (s.doorbell fn fun s p =>
    let fid := BitVec.ofNat 16 (fld val 0 16)
    match s.heldX p fid with
    | none => s.dbDrop p
    | some x => if bit val 16 then s.failFault p x fid else ((s.retryX x).promoteFault p).pumpAll.failDoomed)

/-! ## IOTLB invalidation -/

/-- Start an invalidation of the entries that `hit` picks (07 R186): they go at once, and BUSY holds until every read issued under one of
them has returned. -/
def State.invStart (s : State) (p : Fin 16) (hit : Tlb → Bool) : State :=
  if (s.P p).invBusy then s.modP p fun q => { q with invDropped := true }
  else
    let mine (e : Tlb) : Bool := e.ptn == p && hit e
    let gone := s.io.toList.flatMap fun d => d.tlb.filter mine
    let used (x : Xfer) : Bool := x.ptn == p && !x.write && 0 < x.done &&
      gone.any fun e => e.cfg == x.cfg && x.iova / 4096 < e.page + e.pages && e.page * 4096 < x.iova + x.done
    let wait := (s.xfers.filter used).map (·.id)
    let s := { s with io := s.io.map fun (d : IoDie) => { d with tlb := d.tlb.filter fun e => !mine e } }
    s.modP p fun q => { q with invBusy := true, invWait := wait }

/-- IOTLB_INV_CMD.RANGE: IOTLB_INV_LEN pages from IOTLB_INV_ADDR; length 0 names none. An entry goes if it maps any named page. -/
def execIotlbInvRange (fn : Fn) (p : Fin 16) (s : State) : Out :=
  .next (if s.reach fn p then
    let lo := fld (s.P p).invAddr 12 36
    let n := (s.P p).invLen.toNat
    s.invStart p fun e => n != 0 && e.page < lo + n && lo < e.page + e.pages
  else s)

/-- IOTLB_INV_CMD.ALL: every entry of the partition. -/
def execIotlbInvAll (fn : Fn) (p : Fin 16) (s : State) : Out :=
  .next (if s.reach fn p then s.invStart p fun _ => true else s)

/-- IOTLB_INV_DONE: BUSY clears once every affected read has returned. -/
def execIotlbInvDone (p : Fin 16) (s : State) : Out :=
  .next (if (s.P p).invBusy && ((s.P p).invWait.all fun id => (s.x? id).all fun x => x.st != .issued) then s.modP p fun q => { q with invBusy := false, invWait := [] } else s)

end Sys2Proof.Machine
end

