-- ==== Sys2Proof/Machine/Partition.lean ====
section
/-! DEFINITION. Partitions (08): the set windows, SWAP with its checks and its boundary, the program image (05 R138, R139), fence,
unfence and partition reset, and the end of zeroing (07 R190, R191). -/

namespace Sys2Proof.Machine

/-! ## Set windows -/

/-- A swap is in progress (08 R214). -/
def Swap.busy (w : Swap) : Bool := match w.st with | .validating | .waitFence | .waitResource | .pending => true | _ => false

/-- Only IO0's physical function writes the grant section (08 R201). -/
def grantWriter : Fn → Bool | .pf io => io == 0 | .vf _ _ => false

/-- The S0 note of an access refused under 03 R60: HOST_LINK cause 1, in the function's error ring. -/
def State.accessNote (s : State) (fn : Fn) (addr : Nat) : State :=
  let r := { recOf 0 7 1 (unitIo (fnIo fn)) with detail := addr % 2 ^ 64 }
  let r := match fn with
    | .vf _ n => { r with ptn := some n, toPtn := true }
    | .pf _ => r
  (s.issue r).st.pumpAll

/-- A naturally aligned access of 4 or 8 bytes (03 R60). -/
def aligned (off bytes : Nat) : Bool := (bytes == 4 || bytes == 8) && off % bytes == 0

/-- A write to a byte range of a set window: the active set ignores it, the grant section takes it from IO0's PF alone, and a set
that a swap in progress or a bound job uses refuses it with WR_DROP (08 R201, R202). -/
def State.cfgWrite (s : State) (fn : Fn) (p : Fin 16) (cfg : Bool) (off bytes : Nat) (v : Nat) : State :=
  let q := s.P p
  if q.activeValid && q.swap.active == cfg then s
  else if off < 128 && !grantWriter fn then s
  else if q.swap.busy || !(s.bound p cfg).isEmpty then s.modP p fun q => { q with swap := { q.swap with wrDrop := true } }
  else s.modP p fun q =>
    let w (b : CfgSet) : CfgSet := setFld b (8 * off) (8 * bytes) v
    if cfg then { q with cfgB := w q.cfgB } else { q with cfgA := w q.cfgA }

/-! ## Fence, unfence, reset -/

/-- The FENCE record of a host fence or a partition reset (18 Table 18.5 KIND 0x09). -/
def fenceRec (p : Fin 16) (cause : Nat) : Rec := { recOf 3 9 cause unitAdm with ptn := some p, own := true }

/-- A host fence (08 R211). A fence while one is in force changes nothing (log 10). -/
def State.hostFence (s : State) (p : Fin 16) : State :=
  if (s.P p).fencing || (s.P p).fenced then s
  else
    let i := s.issue (fenceRec p 1)
    (i.st.fencePtn p 1 i.pseq.toNat).pumpAll

def execFence (fn : Fn) (p : Fin 16) (s : State) : Out := .next (if s.reach fn p then s.hostFence p else s)

/-- An S3 record of the ring waits for a free slot (18 R428). -/
def ErrRing.s3Waits (r : ErrRing) (free : Nat) : List WaitRec → Bool
  | [] => false
  | w :: t => (3 ≤ w.sev && free < w.recs.length) || ErrRing.s3Waits r (free - w.recs.length) t

def State.erPending (s : State) (e : ErRef) : Bool := (s.er e).s3Waits (s.erFree e) (s.er e).waitq

/-- A partition's global S3 copy waits for a free slot. -/
def State.gerPendingOf (s : State) (p : Fin 16) : Bool :=
  s.erPending none && s.err.ger.waitq.any fun w => 3 ≤ w.sev && w.recs.any fun b => fld b 64 5 == p.val + 16

/-- UNFENCE (08 R212, 18 R433); a swap in WAIT_FENCE is then validated in full (08 R215). -/
def State.unfence (s : State) (p : Fin 16) : State :=
  let q := s.P p
  if q.fencing || (q.fenced && (s.erPending (some p) || s.gerPendingOf p)) then s.modP p fun q => { q with unfenceDrop := true }
  else if q.fenced then
    (s.modP p fun q => { q with
      fenced := false
      swap := if q.swap.st = .waitFence then { q.swap with st := .validating, began := true } else q.swap }).pump p
  else s

def execUnfence (fn : Fn) (p : Fin 16) (s : State) : Out := .next (if s.reach fn p then s.unfence p else s)

/-- A swap in progress ends CANCELLED, its claims returned (08 R215, R219). -/
def Ptn.cancelSwap (q : Ptn) : Ptn :=
  if q.swap.busy then { q with swap := { q.swap with st := .refused, reason := 8, badOff := 0, holder := 0, claims := false, began := false } } else q

/-- A partition reset begins with a fence; one already zeroing becomes the reset's (08 R211, R212). -/
def State.resetPtn (s : State) (p : Fin 16) : State :=
  let i := s.issue (fenceRec p 5)
  let s := i.st.modP p Ptn.cancelSwap
  if (s.P p).fencing then (s.modP p fun q => { q with resetting := true }).pumpAll
  else ((s.dropHeldEr p).fenceBody p 5 i.pseq.toNat true true).pumpAll

def execPartitionReset (fn : Fn) (p : Fin 16) (s : State) : Out := .next (if s.reach fn p then s.resetPtn p else s)

/-! ## SWAP: the checks of Table 8.4 -/

/-- The bits of a byte of a configuration set that Table 8.2 does not reserve. -/
def cfgUsed (i : Nat) : Nat :=
  if i = 0 then 0x01 else if i = 2 then 0x3F else if i = 3 then 0x0F
  else if i < 8 then 0xFF
  else if i < 16 then (if i % 2 = 0 then 0xFF else 0x1F)
  else if i < 20 then (if i = 17 then 0x0F else if i = 19 then 0x1F else 0xFF)
  else if i < 25 then 0
  else if i = 25 then 0xF0
  else if i < 76 then 0xFF
  else if i < 128 then 0
  else if i < 134 then 0xFF
  else if i < 136 then 0
  else if i < 144 then 0xFF
  else if i < 152 then (if i % 2 = 0 then 0xFF else 0x07)
  else if i = 152 then 0x7F
  else if i < 156 then 0
  else if i < 158 then 0xFF
  else if i = 158 then 0x01
  else if i < 160 then 0
  else if i < 192 then (if i % 8 < 6 then 0xFF else 0)
  else if i < 256 then 0
  else match i % 16 with
    | 0 => 0x0F | 1 => 0xF0 | 6 | 7 | 14 | 15 => 0 | 9 => 0xF7 | _ => 0xFF

/-- The range rules of check 1, at the first byte of their fields (08 Table 8.4; 04 Table 4.1; 07 R171). -/
def cfgInRange (b : CfgSet) (i : Nat) : Bool :=
  match i with
  | 1 => csWeight b != 0
  | 2 => csC0 b ≤ popCount 32 (csClusters b)
  | 4 => csClusters b != 0
  | 8 => csSlots b 0 ≤ 4096 | 10 => csSlots b 1 ≤ 4096 | 12 => csSlots b 2 ≤ 4096 | 14 => csSlots b 3 ≤ 4096
  | 18 => csChanCount b ≤ 4096 && csChanBase b + csChanCount b ≤ 4096
  | 128 => csImage b % 64 == 0
  | 136 => 64 ≤ csImageLen b && csImageLen b ≤ 1048576
  | 140 => csWuCeil b != 0
  | 144 => csDeferMax b 0 ≤ 1024 | 146 => csDeferMax b 1 ≤ 1024 | 148 => csDeferMax b 2 ≤ 1024 | 150 => csDeferMax b 3 ≤ 1024
  | 156 => 64 ≤ csTdCap b && csTdCap b ≤ 65536
  | _ => true

/-- A refusal: REASON, BAD_OFFSET and HOLDER. -/
structure Refuse where
  reason : Nat
  off : Nat
  holder : Nat
  deriving DecidableEq, Repr

/-- Check 1, RESERVED: the lowest offending byte. -/
def check1 (b : CfgSet) : Option Refuse :=
  ((List.range 512).find? fun i => bits (fld b (8 * i) 8) 0 8 &&& (255 - cfgUsed i) != 0 || !cfgInRange b i).map fun i => ⟨1, i, 0⟩

/-- Check 2, VARIANT (01 R20, R31). -/
def check2 (f : Fuses) (b : CfgSet) : Option Refuse :=
  let n := f.nGran
  if !f.i2 && bit b 0 then some ⟨2, 0, 0⟩
  else if !f.i2 && csTxu b / 4 != 0 then some ⟨2, 3, 0⟩
  else if csT1 b / 2 ^ n != 0 then some ⟨2, 48, 0⟩
  else if n ≤ csTdGranule b then some ⟨2, 152, 0⟩
  else none

/-- Check 3, SEGMENT (07 R181). -/
def check3 (b : CfgSet) : Option Refuse :=
  ((List.range 16).find? fun i =>
    let e := csSeg b i
    segV e && (segLimit e == 0 || 2 ^ 48 < segBase e + segLimit e)).map fun i => ⟨3, 256 + 16 * i + 8, 0⟩

/-- Check 4, DIRECTORY (07 R171). -/
def Ptn.check4 (q : Ptn) (b : CfgSet) : Option Refuse :=
  if !(csT1 b).testBit (csTdGranule b) then some ⟨4, 152, 0⟩
  else if q.activeValid && !q.dir.isEmpty && csTdGranule q.act != csTdGranule b then some ⟨4, 152, 0⟩
  else if q.activeValid && !q.dir.isEmpty && csTdCap q.act != csTdCap b then some ⟨4, 156, 0⟩
  else none

/-- What a partition's active set grants or its swap in progress claims, by a mask. -/
def Ptn.taken (q : Ptn) (f : CfgSet → Nat) : Nat := f q.act ||| (if q.swap.claims then f (q.cset (!q.swap.active)) else 0)

/-- The partition, other than p, that holds a resource of a mask. -/
def State.holder (s : State) (p : Fin 16) (f : CfgSet → Nat) (b : CfgSet) : Option (Fin 16) :=
  (List.finRange 16).find? fun q => q != p && (s.P q).taken f &&& f b != 0

def slotSum (b : CfgSet) : Nat := ((List.range 4).map (csSlots b)).sum

/-- Slots over the device that active sets and claims other than p's take (08 R207). -/
def State.slotsTaken (s : State) (p : Fin 16) : Nat :=
  (((List.finRange 16).filter (· != p)).map fun q =>
    let x := s.P q
    slotSum x.act + (if x.swap.claims then ((List.range 4).map fun c => csSlots (x.cset (!x.swap.active)) c - csSlots x.act c).sum else 0)).sum

/-- Check 6, CONFLICT (08 R216). -/
def State.check6 (s : State) (p : Fin 16) (b : CfgSet) : Option Refuse :=
  match s.holder p csClusters b with
  | some q => some ⟨6, 4, q⟩
  | none =>
    if 4096 < slotSum b + s.slotsTaken p then some ⟨6, 8, 0⟩
    else match s.holder p chanMask b, s.holder p csTallies b, s.holder p csT1 b, s.holder p csT0 b with
      | some q, _, _, _ => some ⟨6, 16, q⟩
      | none, some q, _, _ => some ⟨6, 32, q⟩
      | none, none, some q, _ => some ⟨6, 48, q⟩
      | none, none, none, some q => some ⟨6, 64, q⟩
      | none, none, none, none => none

/-- Check 7, IN_USE. -/
def State.check7 (s : State) (p : Fin 16) (b : CfgSet) : Option Refuse :=
  let a := (s.P p).act
  let busy (t1 : Bool) (m : Nat) : Bool := (ones 128 m).any fun g => dirFrames a (t1, g) < s.usedIn p (t1, g)
  if busy true (maskDiff (csT1 a) (csT1 b)) then some ⟨7, 48, 0⟩
  else if busy false (maskDiff (csT0 a) (csT0 b)) then some ⟨7, 64, 0⟩
  else none

/-! ## The program image (05 R138, R139) -/

structure Sect where
  ty : Nat
  off : Nat
  size : Nat
  load : Nat

def readSect (b : List Byte) (o : Nat) : Sect :=
  { ty := sliceLe b o 1, off := sliceLe b (o + 4) 4, size := sliceLe b (o + 8) 4, load := sliceLe b (o + 12) 4 }

/-- A section entry is legal: reserved bytes zero, its contents in the image, a store it fits. -/
def sectOk (b : List Byte) (o len : Nat) : Bool :=
  let x := readSect b o
  sliceLe b (o + 1) 3 == 0 && 1 ≤ x.ty && x.ty ≤ 3 && x.off % 16 == 0 && x.size % 4 == 0 && x.off + x.size ≤ len
    && (x.ty == 3 || x.load + x.size ≤ (if x.ty = 1 then 65536 else 32768))

/-- No two sections overlap (05 R139): read as the load addresses of two sections of one store. The spec does not say which of a section's
ranges it means (DESIGN CHOICE, log 74). -/
def noOverlap : List Sect → Bool
  | [] => true
  | x :: t => (x.ty == 3 || t.all fun y => y.ty != x.ty || x.load + x.size ≤ y.load || y.load + y.size ≤ x.load) && noOverlap t

def sectTotal (l : List Sect) (ty : Nat) : Nat := ((l.filter (·.ty == ty)).map (·.size)).sum

/-- An entry point is legal for a set with so many clusters. -/
def entryOk (b : List Byte) (o clusters : Nat) : Bool :=
  let k := sliceLe b (o + 4) 1
  sliceLe b o 4 % 4 == 0 && 1 ≤ k && k ≤ 32 && k ≤ clusters && sliceLe b (o + 5) 3 == 0 && sliceLe b (o + 24) 8 == 0

def readEntry (b : List Byte) (o : Nat) : Entry :=
  { pc := sliceLe b o 4, k := sliceLe b (o + 4) 1, t0 := sliceLe b (o + 8) 4, t1 := sliceLe b (o + 12) 4
    kv := sliceLe b (o + 16) 4, buf := sliceLe b (o + 20) 4 }

/-- The header of 05 Table 5.20, but for its CRC: an image of a KIND and of at most n bytes. -/
def flxFieldsOk (b : List Byte) (n kind : Nat) : Bool :=
  let len := sliceLe b 8 4
  let ns := sliceLe b 6 2
  let ne := sliceLe b 12 2
  sliceLe b 0 4 == 0x31584C46 && sliceLe b 4 2 == 1 && 1 ≤ ns && ns ≤ 32 && 1 ≤ ne && ne ≤ 64 && sliceLe b 14 1 == kind
    && sliceLe b 15 1 == 0 && sliceLe b 16 4 % 16 == 0 && sliceLe b 20 4 % 16 == 0 && sliceLe b 24 4 % 16 == 0 && sliceLe b 48 16 == 0
    && 64 ≤ len && len ≤ n && sliceLe b 16 4 + 16 * ns ≤ len && sliceLe b 20 4 + 32 * ne ≤ len

/-- The CRC of bytes 32 to IMAGE_LEN − 1 matches. -/
def flxCrcOk (b : List Byte) : Bool := crc32 ((b.take (sliceLe b 8 4)).drop 32) == sliceLe b 28 4

def flxHeaderOk (b : List Byte) (n kind : Nat) : Bool := flxFieldsOk b n kind && flxCrcOk b

/-- The image of a SWAP, if it passes R139. -/
def parseImage (b : List Byte) (clusters : Nat) : Option Image :=
  let len := sliceLe b 8 4
  let so := (List.range (sliceLe b 6 2)).map fun i => sliceLe b 16 4 + 16 * i
  let eo := (List.range (sliceLe b 12 2)).map fun i => sliceLe b 20 4 + 32 * i
  if !flxHeaderOk b b.length 0 then none
  else
    let l := so.map (readSect b)
    if so.all (fun o => sectOk b o len) && noOverlap l && sectTotal l 1 ≤ 65536 && sectTotal l 2 ≤ 32768
        && eo.all (fun o => entryOk b o clusters) then
      let put (ty : Nat) : Cells := (l.filter (·.ty == ty)).foldl (fun m x => wrBytes m x.load ((b.drop x.off).take x.size)) []
      some { valid := true, bad := false, text := put 1, sdata := put 2
             textEnd := ((l.filter (·.ty == 1)).map fun x => x.load + x.size).foldl max 0
             entries := eo.map (readEntry b) }
    else none

/-! ## SWAP -/

/-- A SWAP is written (08 R205, R214); its place in the order of arrival is noted (08 R216). -/
def State.swapCmd (s : State) (p : Fin 16) : State :=
  let last := (s.ptn.toList.map fun q => q.swap.arr).foldl max 0
  s.modP p fun q =>
    if q.swap.busy then { q with swap := { q.swap with collapsed := true } }
    else
      let held := q.fencing || q.fenced
      { q with swap := { q.swap with
        st := if held then .waitFence else .validating, reason := 0, badOff := 0, holder := 0, claims := false, began := !held, arr := last + 1 } }

def execSwap (fn : Fn) (p : Fin 16) (s : State) : Out := .next (if s.reach fn p then s.swapCmd p else s)

def execSwapCancel (fn : Fn) (p : Fin 16) (s : State) : Out := .next (if s.reach fn p then s.modP p Ptn.cancelSwap else s)

def Ptn.refuseSwap (q : Ptn) (r : Refuse) : Ptn :=
  { q with swap := { q.swap with st := .refused, reason := BitVec.ofNat 4 r.reason, badOff := BitVec.ofNat 9 r.off
                                 holder := BitVec.ofNat 4 r.holder, claims := false, began := false } }

/-- Another swap that arrived earlier is still being validated: check 6 of this one comes after its own (08 R216). -/
def State.swapBehind (s : State) (p : Fin 16) : Bool :=
  (List.finRange 16).any fun q => (s.P q).swap.st == .validating && (s.P q).swap.arr < (s.P p).swap.arr

/-- SWAP_VALIDATION_DONE: the image has been read and the checks of Table 8.4 end, in order (08 R206, R207, R210, R216). -/
def execSwapValidationDone (p : Fin 16) (img : HostRead) (s : State) : Out :=
  let q := s.P p
  let cfg := !q.swap.active
  let b := q.cset cfg
  if q.swap.st ≠ .validating then .next s
  else
    match (check1 b).or ((check2 s.fuses b).or ((check3 b).or (q.check4 b))) with
    | some r => .next (s.modP p fun q => q.refuseSwap r)
    | none =>
      match img with
      | .failed => .next (s.modP p fun q => q.refuseSwap ⟨5, 128, 0⟩)
      | .data bs =>
        if bs.length ≠ csImageLen b then .refused .illFormed
        else
          match parseImage bs (popCount 32 (csClusters b)) with
          | none => .next (s.modP p fun q => q.refuseSwap ⟨5, 128, 0⟩)
          | some im =>
            if s.swapBehind p then .next s
            else
            let s := s.modP p fun q => q.setImg cfg im
            match (s.check6 p b).or (s.check7 p b) with
            | some r => .next (s.modP p fun q => q.refuseSwap r)
            | none =>
              let s := s.modP p fun q => { q with swap := { q.swap with claims := true, st := .waitResource } }
              .next (if s.swapReady p then s.modP p fun q => { q with swap := { q.swap with st := .pending } } else s)

/-- SWAP_TAKE_EFFECT: the incoming set becomes active at the admission boundary (08 R208, R209). Ring-structure accesses, and tensor
moves no job owns, not yet translated go on under the new set's root (07 R183). -/
def execSwapTakeEffect (p : Fin 16) (s : State) : Out :=
  let q := s.P p
  if q.swap.st ≠ .pending then .next s
  else
    let old := q.swap.active
    let had := q.activeValid
    let s := (s.modP p fun q => { q with
      activeValid := true
      swap := { q.swap with st := .done, active := !old, claims := false, began := false, releasing := had, asked := !had } }).bump p .swapCnt 1
    let s := { s with xfers := s.xfers.map fun (x : Xfer) => if x.ptn = p ∧ x.job = none ∧ x.st ≠ XSt.issued then { x with cfg := !old } else x }
    .next (((s.unbound p old).recheck).kick)

/-! ## The end of zeroing -/

/-- Tallies of the blocks of a mask, and the registers and stores of clusters of a mask, read zero (07 R190; 06 R165). -/
def State.zeroOwned (s : State) (z : Zero) : State :=
  { s with
    tallies := s.tallies.filter fun (e : Nat × W32) => !(bit z.tally (e.1 / 1024))
    cl := Vector.ofFn fun c =>
      let k := s.cl[c]
      if bit z.cl c.val then { Cluster.reset with job := k.job, rank := k.rank, stall := k.stall, ended := k.ended, startCyc := k.startCyc
                                                  owner := k.owner, trace := k.trace, traceTotal := k.traceTotal, traceCyc := k.traceCyc }
      else k }

/-- Every register of the PTN block but the two windows returns to its Reset value, with the active set unchanged (08 R212; 18 R437). -/
def State.resetPtnRegs (s : State) (p : Fin 16) : State :=
  let s := s.dropQueue (some p) false
  let s := { s with xfers := s.xfers.filter (·.ptn != p), jobs := s.jobs.filter (·.ptn != p) }
  s.modP p fun q =>
    { Ptn.reset with
      cfgA := q.cfgA, cfgB := q.cfgB, imgA := q.imgA, imgB := q.imgB, activeValid := q.activeValid, zero := q.zero
      swap := { Swap.reset with active := q.swap.active, releasing := q.swap.releasing, asked := q.swap.asked } }

/-- The frames of an unbacked tensor are zeroed: its CREATE ends, and the accesses that stalled go on, their time counted (07 R172, R191). Of
an operation, it is the time since it started. -/
def State.createEnd (s : State) (p : Fin 16) : State :=
  match (s.P p).tdWait with
  | some w =>
    if w.op ≠ 1 then s
    else
      let s := s.each (s.ops.filter fun o => o.ptn == p && o.run.isSome && (s.opTensors o).contains w.base) fun s o =>
        s.bumpK p .zeroStall ((s.clk.cyc10 - o.startCyc) / 10)
      (s.tdEnd p tdOk).settle
  | none => s

/-- ZEROING_COMPLETE: the oldest zeroing request of a partition ends; what waited for it goes on (07 R190, R191; 08 R209-R212). -/
def execZeroingComplete (p : Fin 16) (s : State) : Out :=
  match (s.P p).zero with
  | [] => .next s
  | z :: rest =>
    let s := (s.modP p fun q => { q with zero := rest }).zeroOwned z
    let s := match z.why with
      | .create => s.createEnd p
      | .release =>
        s.modP p fun q => { q with swap := { q.swap with releasing := !q.swap.asked || rest.any fun (e : Zero) => e.why == ZWhy.release } }
      | _ =>
        let s := { s with xfers := s.xfers.filter fun (x : Xfer) => !(x.ptn == p && x.chan == 1) }.modP p fun q =>
          { q with dir := [], mem := [], bad := []
                   swap := { q.swap with releasing := q.swap.releasing && rest.any fun (e : Zero) => e.why == ZWhy.release } }
        if (s.P p).resetting then s.resetPtnRegs p
        else s.modP p fun q => { q with fencing := false, fenced := true }
    .next (s.recheck.kick)

end Sys2Proof.Machine
end

