-- ==== Sys2Proof/Machine/HostLink.lean ====
section
/-! DEFINITION. The host link (03): consumer and tail doorbells, enabling and disabling rings, link loss and return, PERST1#,
function-level reset, and configuration-space writes. -/

namespace Sys2Proof.Machine

/-! ## Doorbells (03 Table 3.3) -/

/-- Slots of a job ring (03 R62). -/
def JRing.slots (j : JRing) : Nat := ringSize j.size

/-- JR_TAIL_DB[r]: the last value to arrive counts (03 R75); while EN is 0 it is discarded and counted (03 R76). An index at or above the ring's
size, of which the spec says nothing, is taken modulo the size (DESIGN CHOICE, log 65). -/
def execJrTailDb (fn : Fn) (r : Fin 8) (val : W32) (s : State) : Out :=
  .next (s.doorbell fn fun s p =>
    let j := (s.P p).jr[r]
    if j.en then s.modP p fun q => q.modJr r fun j => { j with tail := BitVec.ofNat 12 (fld val 0 12 % j.slots) } else s.dbDrop p)

/-- CR_HEAD_DB[r]: the slots behind it are free (03 R66). While EN is 0 it is ignored (log 26). An index at or above the ring's size is taken
modulo the size (DESIGN CHOICE, log 65). -/
def execCrHeadDb (fn : Fn) (r : Fin 8) (val : W32) (s : State) : Out :=
  .next (s.doorbell fn fun s p =>
    s.modP p fun q => q.modCr r fun c => if c.en then { c with head := BitVec.ofNat 12 (fld val 0 12 % ringSize c.size) } else c)

/-- SR_HEAD_DB[r]: slots free, and paused channels go on (03 R68, R69). An index at or above the ring's size is taken modulo the size (DESIGN
CHOICE, log 65). -/
def execSrHeadDb (fn : Fn) (r : Fin 16) (val : W32) (s : State) : Out :=
  .next (s.doorbell fn fun s p =>
    (s.modP p fun q => q.modSr r fun c => if c.en then { c with head := BitVec.ofNat 12 (fld val 0 12 % ringSize c.size) } else c).pump p)

/-- ER_HEAD_DB: slots free, and waiting records are written (18 R419, R428). -/
def execErHeadDb (fn : Fn) (val : W32) (s : State) : Out :=
  .next (s.doorbell fn fun s p => (s.modEr (some p) fun r => { r with head := BitVec.ofNat 10 (fld val 0 8) }).pump p)

/-- GER_HEAD_DB, through IO0's PF alone (03 Table 3.3). -/
def execGerHeadDb (fn : Fn) (val : W32) (s : State) : Out :=
  .next (if s.owner fn then (s.modEr none fun r => { r with head := BitVec.ofNat 10 (fld val 0 10) }).pumpAll else s)

/-! ## Ring control (03 R77, R78, R523; 18 R419, R435) -/

/-- A SIZE written while EN is 0; 0b111 is reserved and leaves it (log 26). -/
def newSize (old new : BitVec 3) : BitVec 3 := if new = 7 then old else new

/-- EN goes from 0 to 1: head, tail and FETCHED start at 0, HALT clears (03 R77, R81). -/
def JRing.enable (j : JRing) : JRing :=
  if j.en then j else { j with en := true, halt := false, head := 0, tail := 0, fetched := 0 }

/-- EN goes from 0 to 1: the indices start at 0, the next PHASE is 1, WFAIL clears (03 R77, R523); on a ring whose clear waits, the clear
is withdrawn (log 26). -/
def PRing.enable (c : PRing) : PRing :=
  if c.en then { c with clearing := false }
  else { c with en := true, tail := 0, head := 0, phase := true, wfail := false, stall := false, clearing := false, resv := 0, outq := [] }

def ErrRing.enable (r : ErrRing) : ErrRing :=
  if r.en then r else { r with en := true, tail := 0, head := 0, phase := true, wfail := false }

/-- A cleared EN of a job ring stops fetching after the batch in progress (03 R78). -/
def JRing.disable (j : JRing) : JRing := { j with en := false }

/-- A cleared EN takes effect once nothing is left to write (03 R78). -/
def PRing.disable (c : PRing) : PRing := if c.en then { c with clearing := true }.tryClear else c

/-- Clearing an error ring's EN takes effect at once: its unwritten records become records for a disabled ring, and a fault that held one
is released (18 R435). -/
def State.erDisable (s : State) (e : ErRef) : State :=
  if (s.er e).en then
    let s := (s.modEr e fun r => { r with en := false }).dropQueue e true
    match e with
    | some p => { s with xfers := s.xfers.filter fun (x : Xfer) => !(x.ptn == p && x.chan == 10) }.promoteFault p
    | none => s
  else s

/-- The SIZE part of a control write, while EN reads 0. -/
def State.sizeRing (s : State) (p : Fin 16) (ring : RingRef) (z : BitVec 3) : State :=
  match ring with
  | .jr r => s.modP p fun q => q.modJr r fun j => if j.en then j else { j with size := newSize j.size z }
  | .cr r => s.modP p fun q => q.modCr r fun c => if c.en then c else { c with size := newSize c.size z }
  | .sr r => s.modP p fun q => q.modSr r fun c => if c.en then c else { c with size := newSize c.size z }
  | _ => s

/-- EN is written 1. A batch of an earlier enabling no longer moves the new head. -/
def State.enableRing (s : State) (p : Fin 16) (ring : RingRef) : State :=
  match ring with
  | .jr r =>
    let fresh := !(s.P p).jr[r].en
    let s := s.modP p fun q => q.modJr r JRing.enable
    if fresh then { s with xfers := s.xfers.map fun (x : Xfer) => if x.ptn = p ∧ x.chan = 5 ∧ x.ring = .jr r then { x with live := false } else x }
    else s
  | .cr r => s.modP p fun q => q.modCr r PRing.enable
  | .sr r => s.modP p fun q => q.modSr r PRing.enable
  | .er => s.modEr (some p) ErrRing.enable
  | .ger => s.modEr none ErrRing.enable

/-- EN is written 0. -/
def State.disableRing (s : State) (p : Fin 16) (ring : RingRef) : State :=
  match ring with
  | .jr r => s.modP p fun q => q.modJr r JRing.disable
  | .cr r => s.modP p fun q => q.modCr r PRing.disable
  | .sr r => s.modP p fun q => q.modSr r PRing.disable
  | .er => s.erDisable (some p)
  | .ger => s.erDisable none

/-- The function reaches the control register of a ring. -/
def State.reachRing (s : State) (fn : Fn) (p : Fin 16) (ring : RingRef) : Bool :=
  match ring with | .ger => s.owner fn | _ => s.reach fn p

def execRingEnable (fn : Fn) (p : Fin 16) (ring : RingRef) (size : BitVec 3) (s : State) : Out :=
  .next (if s.reachRing fn p ring then ((s.sizeRing p ring size).enableRing p ring).pumpAll else s)

def execRingDisable (fn : Fn) (p : Fin 16) (ring : RingRef) (s : State) : Out :=
  .next (if s.reachRing fn p ring then (s.disableRing p ring).pumpAll else s)

def execErrorRingDisable (fn : Fn) (p : Option (Fin 16)) (s : State) : Out :=
  .next (if s.reachRing fn (p.getD 0) (if p.isSome then .er else .ger) then (s.erDisable p).pumpAll else s)

/-! ## Links -/

/-- One function's PCIe state at its reset values (log 67). -/
def IoDie.clearFn (d : IoDie) (i : Fin 17) : IoDie :=
  { d with bme := d.bme.set i false, relaxed := d.relaxed.set i true, mps := d.mps.set i 0, mrrs := d.mrrs.set i 2, d3 := d.d3.set i false }

/-- SR-IOV is off, and the PCIe state of every VF is gone. -/
def IoDie.clearVfs (d : IoDie) : IoDie := (List.finRange 16).foldl (fun d i => d.clearFn i.succ) { d with sriov := false }

/-- The function's PCIe state returns to reset; of a PF, with SR-IOV and so the state of its VFs (03 R80, R83). -/
def IoDie.resetFn (d : IoDie) (fn : Fn) : IoDie :=
  match fn with
  | .pf _ => d.clearVfs.clearFn 0
  | .vf _ _ => d.clearFn (fnIx fn)

/-- The function exists on a linked I/O die. -/
def State.fnHere (s : State) (fn : Fn) : Bool :=
  let d := s.io[fnIo fn]
  d.link && !d.inReset && (s.fuses.i2 || fnIo fn == 0) &&
    (match fn with | .pf io => s.up || (s.pwr.recovMode && io == 0) | .vf _ _ => s.up && d.sriov)

/-- FUNCTION_LEVEL_RESET (03 R80). -/
def execFunctionLevelReset (fn : Fn) (s : State) : Out :=
  if !s.fnHere fn then .next s
  else
    let s := s.modIo (fnIo fn) fun d => d.resetFn fn
    match fn with
    | .vf io n => .next (if s.ioOf n = some io then s.resetPtn n else s)
    | .pf io => .next (if io = 0 then (s.modEr none fun r => { r with head := 0 }).pumpAll else s)

/-- An I/O die's link leaves L0. -/
def State.linkDown (s : State) (io : Fin 2) : State :=
  s.modIo io fun d => if d.link then { d with link := false, width := 0, rate := 0, downAt := some s.clk.gt } else d

def execHostLinkDown (io : Fin 2) (s : State) : Out := .next (s.linkDown io)

/-- The global ring stops: GER_CTRL.HALT, with what waited going to the log (18 R436). -/
def State.gerStop (s : State) : State :=
  if s.err.ger.en && !s.err.ger.wfail then
    (s.modEr none fun r => { r with wfail := true }).dropQueue none true
  else s

/-- LINK_LOSS_TIMEOUT: a link out of L0 for 100 ms fences every partition bound to that die (03 R82; 18 R436). -/
def execLinkLossTimeout (io : Fin 2) (s : State) : Out :=
  match s.io[io].downAt with
  | none => .next s
  | some t =>
    if s.io[io].link || s.clk.gt.toNat < t.toNat + 100000000 then .next s
    else
      let s := s.modIo io fun d => { d with downAt := none }
      let s := if io = 0 then s.gerStop else s
      .next ((s.each (List.finRange 16) fun s p =>
        if s.ioOf p = some io then
          let i := s.issue { recOf 3 7 3 (unitIo io) with ptn := some p }
          State.contain i (some p) none 0 3
        else s).pumpAll)

/-- The widths and rates in which a link enters L0: x8 and x16, 2.5 to 64.0 GT/s (03 Table 3.1, Table 3.12). -/
def linkForm (width : BitVec 2) (rate : BitVec 3) : Bool := (width == 1 || width == 2) && rate.toNat ≤ 5

/-- HOST_LINK_UP: the link enters or returns to L0; every access that waited goes on (03 R82). The LTSSM does not enter L0 at another width or
rate (03 R56). -/
def execHostLinkUp (io : Fin 2) (width : BitVec 2) (rate : BitVec 3) (s : State) : Out :=
  if !linkForm width rate || s.io[io].inReset || (io == 1 && !s.fuses.i2) || !s.pwr.rails then .next s
  else .next ((s.modIo io fun d => { d with link := true, width := width, rate := rate, downAt := none }).kick.failDoomed)

/-- PERST1_ASSERT: only IO1's PCIe controller is reset; its link leaves L0 (03 R82; 20 R466). -/
def execPerst1Assert (s : State) : Out :=
  let s := { s with pwr := { s.pwr with perst1 := true } }
  .next (if s.fuses.i2 then (s.linkDown 1).modIo 1 fun d => { d.resetFn (.pf 1) with inReset := true } else s)

/-- PERST1_DEASSERT: IO1's PCIe controller leaves reset once the main rails are up, and its link can train again (20 R466). -/
def execPerst1Deassert (s : State) : Out :=
  let s := { s with pwr := { s.pwr with perst1 := false } }
  .next (if s.fuses.i2 && s.pwr.rails then s.modIo 1 fun d => { d with inReset := false } else s)

/-- PCIE_CONFIG_WRITE (03 R56, R83; 18 R436). SR-IOV Enable is the PF's; clearing it ends the VFs with their PCIe state. A size that 03 Table
3.1 does not support is not taken. -/
def execPcieConfigWrite (fn : Fn) (w : CfgWrite) (s : State) : Out :=
  if !s.fnHere fn then .next s
  else
    let i := fnIx fn
    let f (d : IoDie) : IoDie :=
      match w, fn with
      | .sriovEnable on, .pf _ => if on then { d with sriov := true } else d.clearVfs
      | .sriovEnable _, .vf _ _ => d
      | .busMaster on, _ => { d with bme := d.bme.set i on }
      | .devControl b mps mrrs, _ =>
        { d with relaxed := d.relaxed.set i b, mps := if mps.toNat ≤ 2 then d.mps.set i mps else d.mps
                 mrrs := if mrrs.toNat ≤ 5 then d.mrrs.set i mrrs else d.mrrs }
      | .power b, _ => { d with d3 := d.d3.set i b }
    .next (s.modIo (fnIo fn) f)

/-- A configuration-space field of a function (03 Table 3.1), at the place it has in its register. The SR-IOV fields are the PF's. -/
def IoDie.cfgField (d : IoDie) (fn : Fn) (f : CfgField) : Nat :=
  let i := fnIx fn
  let pf := i == 0
  match f with
  | .vendorId => 0x1FD4
  | .deviceId => if pf then 0x0416 else 0x0417
  | .interruptPin => 0
  | .totalVfs | .initialVfs => if pf then 16 else 0
  | .firstVfOffset | .vfStride => if pf then 1 else 0
  | .vfDeviceId => if pf then 0x0417 else 0
  | .supportedPageSizes => if pf then 1 else 0
  | .sriovEnable => (pf && d.sriov).toNat
  | .mpsSupported => 2
  | .devControl => d.relaxed[i].toNat * 2 ^ 4 + d.mps[i].toNat * 2 ^ 5 + d.mrrs[i].toNat * 2 ^ 12
  | .busMaster => d.bme[i].toNat * 2 ^ 2
  | .power => if d.d3[i] then 3 else 0
  | .linkStatus => d.rate.toNat + 1 + (if d.width = 1 then 8 else 16) * 2 ^ 4

end Sys2Proof.Machine
end

