-- ==== Sys2Proof/Machine/Admission.lean ====
section
/-! DEFINITION. Fetching and admission (03 R64, R65, R81; 04): the decision of Table 4.2 with its notice, job start (05 R132), promotion,
deadlines, cancellation and final completion. -/

namespace Sys2Proof.Machine

/-! ## Fetching -/

/-- Slots of a completion ring neither occupied nor reserved (03 R64, R66). -/
def PRing.spare (c : PRing) : Nat := c.free - c.resv

/-- Descriptors waiting in a job ring. -/
def JRing.waiting (j : JRing) : Nat := (j.tail.toNat + j.slots - j.head.toNat) % j.slots

/-- Descriptors waiting in a job ring that no batch in flight has fetched. -/
def State.unfetched (s : State) (p : Fin 16) (r : Fin 8) : Nat :=
  (s.P p).jr[r].waiting - (((s.batch p r).filter (·.live)).map fun x => x.len / 128 - x.base).sum

/-- The device fetches from the ring (03 R64; 07 R198; 20 R475). A completion ring whose clear waits takes no new reservation (log 26). -/
def State.fetching (s : State) (p : Fin 16) (r : Fin 8) : Bool :=
  let q := s.P p
  s.running && s.pwr.st == .on && q.activeValid && q.jr[r].en && !q.jr[r].halt && q.cr[r].en && !q.cr[r].clearing

/-- The part of a batch that starts at a slot. -/
def batchX (p : Fin 16) (cfg : Bool) (r : Fin 8) (j : JRing) (slot n : Nat) (second : Bool) : Xfer :=
  { blankX p cfg 5 (fld j.base 12 36 * 4096 + 128 * slot) (128 * n) false with
    ring := .jr r, slot := slot, op := if second then some 1 else none }

/-- FETCH_BATCH: up to 16 descriptors, ending at the tail, for as many as two completion slots each can be reserved (03 R64). -/
def execFetchBatch (p : Fin 16) (r : Fin 8) (s : State) : Out :=
  let j := (s.P p).jr[r]
  let c := (s.P p).cr[r]
  let n := min 16 (min j.waiting (c.spare / 2))
  if !s.fetching p r || n = 0 || !(s.batch p r).isEmpty || !s.io[s.dmaIo p (s.P p).swap.active].link then .next s
  else
    let s := s.modP p fun q => q.modCr r fun c => if c.wfail then c else { c with resv := c.resv + 2 * n }
    let cfg := (s.P p).swap.active
    let n1 := min n (j.slots - j.head.toNat)
    let s := s.newX (batchX p cfg r j j.head.toNat n1 false)
    let s := if n1 < n then s.newX (batchX p cfg r j 0 (n - n1) true) else s
    .next ((s.each ((s.batch p r).map (·.id)) fun s id => s.runX id).pumpAll)

/-! ## The decision (04 R90-R93) -/

/-- The first offending field of a descriptor: its byte and the DETAIL of 04 Table 4.2 step 2 (03 Table 3.4). Two codes could fit two of the
fields: an ENTRY of 64 to 255 is reported as ENTRY (0x03), and a nonzero ARG_IOVA[63:48] as a reserved field (0x01), whatever ARG_LEN is (DESIGN
CHOICE, log 68). -/
def malformed (q : Ptn) (d : BitVec 1024) : Option (Nat × Nat) :=
  let entries := if q.activeValid then (q.img q.swap.active).entries.length else 0
  if fld d 64 8 ≠ 1 then some (8, 2)
  else if fld d 74 6 ≠ 0 then some (9, 1)
  else if 64 ≤ dEntry d ∨ entries ≤ dEntry d then some (10, 3)
  else if fld d 93 3 ≠ 0 then some (11, 1)
  else if dStreamEn d ∧ !(q.sr.toList.map (·.en)).getD (dStream d) false then some (11, 6)
  else if dWork d = 0 then some (12, 5)
  else if dArgLen d ≠ 0 ∧ dArgIova d % 64 ≠ 0 then some (24, 4)
  else if fld d 240 16 ≠ 0 then some (30, 1)
  else if dArgLen d % 64 ≠ 0 ∨ 65536 < dArgLen d then some (32, 4)
  else ((List.range 28).find? fun i => fld d (8 * (36 + i)) 8 != 0).map fun i => (36 + i, 1)

/-- Jobs of a partition and class, in a phase. -/
def State.jobsIn (s : State) (p : Fin 16) (c : Nat) (ph : Job → Bool) : List Job :=
  s.jobs.filter fun j => j.ptn == p && dClass j.desc == c && ph j

def Job.waits (j : Job) : Bool := j.ph == .deferred
def Job.live (j : Job) : Bool := j.ph == .admitted || j.ph == .running

def State.slotsUsed (s : State) (p : Fin 16) (c : Nat) : Nat := (s.jobsIn p c (·.slotHeld)).length

def State.deferDepth (s : State) (p : Fin 16) (c : Nat) : Nat := (s.jobsIn p c Job.waits).length

/-- Outstanding WU of a partition (04 Table 4.1). An ended job counts until its final record is written, a cancelled deferred one too (DESIGN
CHOICE, log 66). -/
def State.wuOut (s : State) (p : Fin 16) : Nat := ((s.jobs.filter (·.ptn == p)).map fun j => dWork j.desc).sum

/-- Clusters that no job holds and no cluster reset is working on. C0_CLUSTERS reserves the lowest-numbered of the clusters granted, which the
spec does not name (DESIGN CHOICE, log 69). -/
def State.freeClusters (s : State) (j : Job) : List (Fin 32) :=
  let busy := s.jobs.flatMap (·.clusters)
  let set := s.jobSet j
  let all := (List.finRange 32).filter fun c => (csClusters set).testBit c.val
  (if dClass j.desc = 0 then all else all.drop (csC0 set)).filter fun c => !busy.contains c && !bit s.pwr.clrst c.val

/-- Service order within a partition (04 R94 points 1 and 2). -/
def jobBefore (a b : Job) : Bool :=
  if dClass a.desc ≠ dClass b.desc then dClass a.desc < dClass b.desc
  else if dlKey a.desc ≠ dlKey b.desc then dlKey a.desc < dlKey b.desc else a.order < b.order

/-- W of 04 R92. -/
def State.workAhead (s : State) (j : Job) : Nat :=
  let mine := s.jobs.filter (·.ptn == j.ptn)
  ((mine.filter fun i => i.waits && jobBefore i j).map fun i => dWork i.desc).sum
    + ((mine.filter Job.live).map fun i => dWork i.desc - s.wuUsed i).sum

def maxNs : Nat := 2 ^ 64 - 1

/-- EST_START of 04 R92 for an outcome other than ADMIT, its quotient rounded up to whole nanoseconds and the sum held at 2^64 − 1, of which the
spec says nothing (DESIGN CHOICE, log 70). With no cluster for the class its quotient has no value: free (log 27). -/
def State.estStart (s : State) (j : Job) : Nat :=
  let n := popCount 32 (csClusters (s.jobSet j)) - (if dClass j.desc = 0 then 0 else csC0 (s.jobSet j))
  let w := s.workAhead j
  if w = 0 then s.clk.gt.toNat
  else if n = 0 ∨ s.clk.cur = 0 then Config.freeNat s.free % 2 ^ 64
  else min maxNs (s.clk.gt.toNat + divUp (w * 15000) (n * s.clk.cur.toNat))

/-- The estimated duration of 04 R87, in ns, rounded up (log 70). -/
def State.estDur (s : State) (work k : Nat) : Nat := divUp (work * 15000) (max 1 k * max 1 s.clk.cur.toNat)

/-- T0 frames of a job's admission reservation, its argument block included (05 R133). -/
def t0Need (e : Entry) (d : BitVec 1024) : Nat := e.t0 + divUp (dArgLen d) 4096

/-- The home die of an admission reservation: that of the lowest-numbered granted cluster (07 R179). -/
def resDie (b : CfgSet) : Nat := ((ones 32 (csClusters b)).headD 0) / 8

/-- Step 5 of Table 4.2: 0, or the DETAIL of the first resource that falls short (04 R91; 12 R289). -/
def State.roomFor (s : State) (p : Fin 16) (b : CfgSet) (e : Entry) (d : BitVec 1024) : Nat :=
  if s.have_ p (resDie b) false none [] < t0Need e d then 1
  else if s.have_ p (resDie b) true none [] < e.t1 then 2
  else if s.kvFree p < e.kv then 3
  else if s.ldg2.free < e.buf then 4
  else 0

/-- Make a job's admission reservation (04 R91; 07 R178, R179). -/
def State.reserve (s : State) (j : Job) (e : Entry) : State :=
  let b := s.jobSet j
  let first := s.nextXfer
  let g0 := s.claim j.ptn (resDie b) false (some j.id) [] (t0Need e j.desc)
  let g1 := g0.st.claim j.ptn (resDie b) true (some j.id) [] e.t1
  let s := g1.st.modJob j.id fun j =>
    let arg := takeFrames (Claim.readyFirst g0.got) (divUp (dArgLen j.desc) 4096)
    { j with resT0 := arg.2, argT0 := arg.1, resT1 := g1.got, resKv := e.kv, resBuf := e.buf }
  s.runFrom first

/-- The slots CUR of the valid indexes or tables (10 R246, 11 R267). -/
def curSlots (n : Nat) (valid cur : Nat) : List (Nat × Bool) := (ones n valid).map fun i => (i, cur.testBit i)

/-- A job binds its index and table slots, and their drain counts rise (10 R246, 11 R267). -/
def Ptn.bindSlots (q : Ptn) (j : Job) : Ptn :=
  let q := j.idx.foldl (fun q e => { q with idxDrain := q.idxDrain.setIfInBounds e.1 (drainInc (q.idxDrain.getD e.1 (0, 0)) e.2) }) q
  j.tbl.foldl (fun q e => { q with tblDrain := q.tblDrain.setIfInBounds e.1 (drainInc (q.tblDrain.getD e.1 (0, 0)) e.2) }) q

/-- The admission notice (03 Table 3.6; 04 Table 4.3). -/
def noticeRec (j : Job) (code est fin_ pos detail cfg wu slots depth ns off : Nat) : BitVec 512 :=
  BitVec.ofNat 512 (dTag j.desc + 2 ^ 64 + code * 2 ^ 72 + j.ring.val * 2 ^ 80 + j.slot % 4096 * 2 ^ 96
    + est % 2 ^ 64 * 2 ^ 192 + fin_ % 2 ^ 64 * 2 ^ 256 + pos % 2048 * 2 ^ 320 + detail % 256 * 2 ^ 336 + cfg % 2 * 2 ^ 344
    + min wu (2 ^ 32 - 1) * 2 ^ 352 + min slots 8191 * 2 ^ 384 + min depth 2047 * 2 ^ 400 + ns * 2 ^ 416
    + off % 65536 * 2 ^ 448)

/-- The outcome of a decision: code, DETAIL, BAD_OFFSET, and EST_START. -/
structure Decision where
  code : Nat
  detail : Nat
  off : Nat
  est : Nat
  deriving DecidableEq, Repr

/-- Table 4.2 for a descriptor taken as the job it would be. The deadline test of step 4 takes the EST_START of the outcome that steps 6
to 8 would give (log 29); a deadline that the time has reached has passed (log 97). -/
def State.decision (s : State) (j : Job) : Decision :=
  let q := s.P j.ptn
  let b := q.act
  let c := dClass j.desc
  let dl := dDeadline j.desc
  if q.fenced then ⟨5, 1, 0, 0⟩
  else if q.fencing then ⟨5, 2, 0, 0⟩
  else match malformed q j.desc with
  | some (off, det) => ⟨6, det, off, 0⟩
  | none =>
    let e := ((q.img q.swap.active).entries[dEntry j.desc]?).getD { pc := 0, k := 1, t0 := 0, t1 := 0, kv := 0, buf := 0 }
    let now := s.clk.gt.toNat
    let fits := s.slotsUsed j.ptn c < csSlots b c && s.deferDepth j.ptn c == 0 && (c != 0 || j.k ≤ (s.freeClusters j).length)
    let later := s.estStart j
    let est := if fits then now else later
    if csSlots b c = 0 then ⟨2, 1, 0, later⟩
    else if csWuCeil b < dWork j.desc + s.wuOut j.ptn then ⟨2, 2, 0, later⟩
    else if dl ≠ 0 ∧ dl < est + s.estDur (dWork j.desc) j.k then ⟨4, if dl ≤ now then 1 else 2, 0, later⟩
    else match s.roomFor j.ptn b e j.desc with
    | 0 =>
      if fits then ⟨0, 0, 0, now⟩
      else if s.deferDepth j.ptn c < csDeferMax b c then ⟨1, 0, 0, later⟩
      else ⟨3, if csDeferMax b c = 0 then 2 else 1, 0, later⟩
    | d => ⟨7, d, 0, later⟩

/-- Start the fetch of an admitted job's argument block; a job without one is ready (03 R63). -/
def State.fetchArg (s : State) (j : Job) : State :=
  if dArgLen j.desc = 0 then s.modJob j.id fun j => { j with argReady := true }
  else s.startX { blankX j.ptn j.cfg 6 (dArgIova j.desc) (dArgLen j.desc) false with job := some j.id }

/-- A job enters admission: it holds a slot, and a C0 job claims its clusters (04 R89, R90 step 6). -/
def State.admitJob (s : State) (j : Job) : State :=
  let cl := if dClass j.desc = 0 then (s.freeClusters j).take j.k else []
  (s.modJob j.id fun j => { j with ph := .admitted, slotHeld := true, clusters := cl }).fetchArg j

/-- Decide a fetched descriptor, and queue its notice (04 R90). The time a decision takes is open up to its bound of 2,000 ns: DECIDE_NS is
free within it (log 28). -/
def State.decideJob (s : State) (p : Fin 16) (r : Fin 8) (slot : Nat) (fseq : W32) (d : BitVec 1024) : State :=
  let q := s.P p
  let cfg := q.swap.active
  let e := ((q.img cfg).entries[dEntry d]?).getD { pc := 0, k := 1, t0 := 0, t1 := 0, kv := 0, buf := 0 }
  let j : Job :=
    { id := s.nextJob, ptn := p, ring := r, slot := slot, fseq := fseq, desc := d, ph := .deferred, cfg := cfg, order := s.nextJob, k := e.k
      slotHeld := false, start := 0, startCyc := 0, clusters := [], idx := curSlots 32 q.idxValid.toNat q.idxCur.toNat
      tbl := curSlots 64 q.tblValid.toNat q.tblCur.toNat, resT0 := [], argT0 := [], resT1 := [], resKv := 0, resBuf := 0
      argReady := false, arg := [], pins := [], exhausted := false, chans := [], resultLen := 0, result := 0, trunc := false }
  let x := s.decision j
  let c := dClass d
  let ns := Config.freeNat (s.free + 1) % 2001
  let s := { s with free := s.free + 2 }
  let s :=
    if x.code ≤ 1 then
      let s := { s with jobs := s.jobs ++ [j], nextJob := s.nextJob + 1 }.modP p fun q => q.bindSlots j
      let s := s.reserve j e
      if x.code = 0 then s.admitJob j else s
    else if x.code = 7 then s.bump p .noRoom 1 else s
  let pos := if x.code = 1 then ((s.jobsIn p c Job.waits).filter fun i => i.id == j.id || jobBefore i j).length else 0
  let fin_ := if x.est = 0 then 0 else min maxNs (x.est + s.estDur (dWork d) j.k)
  s.putCr p r { data := noticeRec j x.code x.est fin_ pos x.detail cfg.toNat (s.wuOut p) (csSlots q.act c - s.slotsUsed p c)
                          (s.deferDepth p c) ns x.off
                op := if x.code ≤ 1 then none else some 0 }

/-- A held cancel takes effect directly after the decision: a job that was not deferred or admitted leaves it nothing to name (04 R101). -/
def State.cancelNow (s : State) (p : Fin 16) (job : Nat) : State :=
  if (s.liveJob job).isSome then s.endJob job stCancelled 0 else s.dbDrop p

/-- Decide one fetched descriptor, then what cancels of it were held. -/
def State.decideOne (s : State) (p : Fin 16) (u : Undec) : State :=
  let mine (c : Fin 8 × Nat × W32) : Bool := c.1 == u.ring && c.2.1 == u.slot && c.2.2 == u.fseq
  let held := (s.P p).cancels.filter mine
  let id := s.nextJob
  let s := s.modP p fun q => { q with undec := q.undec.erase u, turn := u.ring, cancels := q.cancels.filter fun c => !mine c }
  s.decideJob p u.ring u.slot u.fseq u.desc |>.each held fun s _ => s.cancelNow p id

/-- The descriptor to decide next: each ring's in the order of their fetch, the rings in turn (04 R90). -/
def Ptn.nextUndec (q : Ptn) : Option Undec :=
  (List.range 8).findSome? fun i => q.undec.find? fun u => u.ring.val == (q.turn.val + 1 + i) % 8

/-- Decide every descriptor of a partition that waits, one at a time. -/
def State.decideAll (p : Fin 16) : Nat → State → State
  | 0, s => s
  | n + 1, s => match (s.P p).nextUndec with | some u => State.decideAll p n (s.decideOne p u) | none => s

/-- Decide what waits in every partition. -/
def State.decideWaiting (s : State) : State :=
  if (List.finRange 16).all fun p => (s.P p).undec.isEmpty then s
  else (s.each (List.finRange 16) fun s p => State.decideAll p (s.P p).undec.length s).pumpAll

/-- DESCRIPTOR_ARRIVAL: the next descriptor of the ring's batch arrives, or its read fails (03 R65, R81). It is decided with those that wait,
the rings in turn (04 R90); with `wait` an earlier decision is under way, and it waits too. Admission has stopped after an S4 error (18 R430). -/
def execDescriptorArrival (p : Fin 16) (r : Fin 8) (d : Option (BitVec 1024)) (s : State) (wait : Bool := false) : Out :=
  match s.batch p r with
  | [] => .next s
  | x :: rest =>
    if x.done < 128 * (x.base + 1) ∨ !s.running then .next s
    else
      match d with
      | none => .next ((s.failBatch p r (s.dmaIo p x.cfg) (x.iova + 128 * x.base)).pumpAll)
      | some d =>
        let j := (s.P p).jr[r]
        let slot := x.slot + x.base
        let last := x.len ≤ 128 * (x.base + 1)
        let s := if x.live then
            s.modP p fun q => q.modJr r fun j => { j with head := BitVec.ofNat 12 ((slot + 1) % j.slots), fetched := j.fetched + 1 }
          else s
        let s := if last then s.delX x.id else s.modX x.id fun y => { y with base := y.base + 1 }
        let s := s.modP p fun q => { q with undec := q.undec ++ [{ ring := r, slot := slot, fseq := j.fetched, desc := d }] }
        let s := if wait then s else State.decideAll p (s.P p).undec.length s
        .next ((if last && rest.isEmpty then s.mirror p r else s).pumpAll)

/-- ARG_BLOCK_FETCHED: an admitted job's argument block arrives, or its read fails and the job ends (03 R63, R81). -/
def execArgBlockFetched (job : Nat) (d : HostRead) (s : State) : Out :=
  match s.liveJob job, s.xfers.find? fun x => x.chan == 6 && x.job == some job with
  | some j, some x =>
    if x.st ≠ .issued then .next s
    else match d with
      | .failed => .next (s.failX x 5 x.iova stError)
      | .data bs =>
        if bs.length ≠ dArgLen j.desc then .refused .illFormed
        else .next ((s.delX x.id).modJob job fun j => { j with argReady := true, arg := memOf bs })
  | _, _ => .next s

/-! ## Starting jobs -/

/-- A word of the descriptor register that names the argument block (05 Table 5.16). -/
def argDesc (len : Nat) : BitVec 256 := if len = 0 then 0 else BitVec.ofNat 256 (2 ^ 56 + 2 ^ 59 + len * 2 ^ 64)

/-- A conductor at the entry point of its job (05 R132, Table 5.16). -/
def enterCluster (k : Cluster) (j : Job) (im : Image) (e : Entry) (rank : Nat) (gt cyc : Nat) : Cluster :=
  let own := k.owner == some j.ptn
  { job := some j.id, rank := rank
    s := Vector.ofFn fun i =>
      if 1 ≤ i.val ∧ i.val ≤ 8 then BitVec.ofNat 64 (fld j.desc (512 + 64 * (i.val - 1)) 64)
      else if i.val = 9 then BitVec.ofNat 64 (dTag j.desc)
      else if i.val = 10 then BitVec.ofNat 64 (dArgLen j.desc)
      else if i.val = 11 then BitVec.ofNat 64 rank
      else if i.val = 12 then BitVec.ofNat 64 j.k
      else 0
    p := Vector.replicate 8 false, v := Vector.replicate 32 0
    d := (Vector.replicate 16 0).set 0 (argDesc (dArgLen j.desc))
    pc := BitVec.ofNat 16 e.pc, istore := im.text, textEnd := im.textEnd, sds := im.sdata
    stall := .none, ended := false, startCyc := cyc, owner := some j.ptn
    trace := if own then k.trace else [], traceTotal := if own then k.traceTotal else 0, traceCyc := if own then k.traceCyc else gt }

/-- The admitted job of a partition that starts next: the first in service order among those whose argument block is there (04 R94). -/
def State.nextStart (s : State) (p : Fin 16) : Option Job :=
  firstBy jobBefore (s.jobs.filter fun j => j.ptn == p && j.ph == .admitted && j.argReady)

/-- The clusters a job starts on: those it claimed, or the lowest-numbered free ones, which the spec leaves open (DESIGN CHOICE, log 69), or none
while too few are free. -/
def State.startOn (s : State) (j : Job) : List (Fin 32) :=
  if j.clusters ≠ [] then j.clusters
  else
    let f := s.freeClusters j
    if f.length < j.k then [] else f.take j.k

/-- A job starts on clusters. An image buffer with an uncorrectable error fails it with ENGINE_DATA (08 R219). -/
def State.startJob (s : State) (j : Job) (cs : List (Fin 32)) (im : Image) (e : Entry) : State :=
  let s := s.modJob j.id fun j => { j with ph := .running, start := s.clk.gt, startCyc := s.clk.cyc10, clusters := cs }
  if im.bad then s.except j.id j.ptn (cs.headD 0).val (cs.headD 0) (BitVec.ofNat 16 e.pc) 0 0 exData
  else
    { s with cl := Vector.ofFn fun c =>
      match cs.findIdx? (· == c) with
      | some r => enterCluster s.cl[c] j im e r s.clk.cyc10 s.clk.cyc10
      | none => s.cl[c] }

/-- The job of a partition that can start now: it, and its clusters, image and entry point. -/
def State.startable (s : State) (p : Fin 16) : Option (Job × List (Fin 32) × Image × Entry) :=
  match s.nextStart p with
  | none => none
  | some j =>
    let im := (s.P p).img j.cfg
    match im.entries[dEntry j.desc]? with
    | some e => if s.running && s.startOn j != [] then some (j, s.startOn j, im, e) else none
    | none => none

/-- JOB_START (05 R132). What the read of the image meets comes first (08 R219). -/
def execJobStart (p : Fin 16) (s : State) (m : List MemEv := []) : Out :=
  if (s.startable p).isNone then .next s
  else
    let s := s.meet m
    .next (match s.startable p with
      | some (j, cs, im, e) => s.startJob j cs im e
      | none => s)

/-- DEFER_PROMOTE: the first deferred job of a class in service order takes a free slot, with no second notice (04 R94, R96); a C0 job waits
for its clusters (log 30). -/
def execDeferPromote (p : Fin 16) (cls : Fin 4) (s : State) : Out :=
  match firstBy jobBefore (s.jobsIn p cls.val Job.waits) with
  | none => .next s
  | some j =>
    if s.running && csSlots (s.P p).act cls.val > s.slotsUsed p cls.val && (cls.val != 0 || j.k ≤ (s.freeClusters j).length) then
      .next ((s.admitJob j).pumpAll)
    else .next s

/-! ## The ends of a job -/

/-- DEADLINE_EXPIRY: global time has reached a live job's DEADLINE (04 R96, R99; 15 R361, which says so of a forward step; DEDUCED of any other
instant, log 97). -/
def execDeadlineExpiry (job : Nat) (s : State) : Out :=
  match s.liveJob job with
  | some j => if dDeadline j.desc ≠ 0 ∧ dDeadline j.desc ≤ s.clk.gt.toNat then .next ((s.endJob job stDeadline 0).pumpAll) else .next s
  | none => .next s

/-- A cancel word names a job by its ring, slot and fetch number. -/
def cancelNames (val : W32) (ring slot : Nat) (fseq : W32) : Bool :=
  ring == fld val 12 3 && slot == fld val 0 12 && (!bit val 15 || fld fseq 0 16 == fld val 16 16)

/-- Jobs of a ring fetched and undecided, in the order of their fetch: arrived descriptors, then those of the batch in flight. -/
def State.undecided (s : State) (p : Fin 16) (r : Fin 8) : List (Fin 8 × Nat × W32) :=
  let q := s.P p
  let here := (q.undec.filter (·.ring == r)).map fun u => (r, u.slot, u.fseq)
  let slots := ((s.batch p r).filter (·.live)).flatMap fun x => (List.range (x.len / 128 - x.base)).map fun i => x.slot + x.base + i
  here ++ ((List.range slots.length).zip slots).map fun e => (r, e.2, q.jr[r].fetched + BitVec.ofNat 32 e.1)

/-- A cancel of a partition (04 R101). Of an undecided job it is held until the decision; the undecided are the most recently fetched. -/
def State.cancelCmd (s : State) (p : Fin 16) (val : W32) : State :=
  let und := ((List.finRange 8).flatMap (s.undecided p)).filter fun e => cancelNames val e.1.val e.2.1 e.2.2
  let l := s.jobs.filter fun j => j.ptn == p && j.ph != .ended && cancelNames val j.ring.val j.slot j.fseq
  match und.getLast?, l.getLast? with
  | some e, _ => s.modP p fun q => { q with cancels := q.cancels ++ [e] }
  | none, some j => (s.endJob j.id stCancelled 0).pumpAll
  | none, none => s.dbDrop p

/-- CANCEL_DB: the most recently fetched live job of the slot, with FSEQ_EN also by its fetch number (04 R101). -/
def execCancelDb (fn : Fn) (val : W32) (s : State) : Out := .next (s.doorbell fn fun s p => s.cancelCmd p val)

/-- JOB_FINAL_COMPLETION: every conductor of the job has ended, and its final record is queued with the status of 04 R98 (05 R136). A job
that a SAMP took to CONSTRAINT_EXHAUSTED ends so (13 R313), else a truncated one OK_TRUNCATED. -/
def execJobFinalCompletion (job : Nat) (s : State) : Out :=
  match s.liveJob job with
  | none => .next s
  | some j =>
    if j.ph ≠ .running ∨ !(j.clusters.all fun c => s.cl[c].job == some job && s.cl[c].ended) ∨ s.ops.any (·.job == job) then .next s
    else .next ((s.endJob job (if j.exhausted then stExhausted else if j.trunc then stTruncated else stOk) 0).pumpAll)

end Sys2Proof.Machine
end

