-- ==== Sys2Proof/Machine/Drawlink.lean ====
section
/-! DEFINITION. Drawlink ports and the bypass (16): training, retrain and the span check (R372-R373, R379-R382), the join
(R376) and its failures, and flits with link-level retry, credits and forwarding (R368-R371; 17 R390-R395, R407, R408). -/

namespace Sys2Proof.Machine

/-! ## Records (18 Table 18.5 kind 0x08) -/

/-- A LINK record: port, peer, span and attempt. -/
def linkRec (s : State) (k : Fin 4) (sev cause : Nat) : Rec :=
  let p := s.dlk.port[k]
  { recOf sev 0x08 cause (unitPort k) with
    detail := k.val + p.peer.toNat * 2 ^ 8 + p.span.toNat * 2 ^ 32 + p.attempt.toNat * 2 ^ 40 }

def State.noteLink (s : State) (k : Fin 4) (sev cause : Nat) : State := s.report (linkRec s k sev cause) none 0

/-! ## The links of this device (17 R394) -/

/-- The link behind a port, on the map of its pair, with the peer of the last exchange at its other end. -/
def State.ownLink (s : State) (k : Fin 4) (up : Bool) : State :=
  let r := pairOf k
  let n := s.ringLen r
  let own := s.ringPos r
  let far := if s.dlk.port[k].peerValid then s.peerAt r k else if isEast k then (own + 1) % n else (own + n - 1) % n
  s.setMap r fun m => if isEast k then m.mark n own far up else m.mark n far own up

def State.ownLinks (s : State) (k : Fin 2) : State := (s.ownLink (eastOf k) true).ownLink (westOf k) true

/-- The link behind a port changes state: the device marks its own map and sends TOPO both ways (17 R394). -/
def State.linkTopo (s : State) (k : Fin 4) (up : Bool) : State :=
  let r := pairOf k
  if s.dlk.sw[r].joined then ((s.ownLink k up).sendTopo r (if up then 1 else 2) k k).resend s else s

/-! ## The join (16 R376; 17 R405) -/

/-- A pair joins when both of its ports have LOOP_OK, its ring role assigns it a role and BYPASSn is 0: the device drives the
switch open and both ports enter TRAIN. -/
def State.tryJoin (s : State) (k : Fin 2) : State :=
  let w := s.dlk.sw[k]
  if s.running && s.pwr.st = .on && s.pairRole k && !w.drive && !w.bypass && !w.barred
      && s.dlk.port[eastOf k].loopOk && s.dlk.port[westOf k].loopOk then
    let s := s.modSw k fun w => { w with drive := true, closed := false, cause := 0, joining := true, joined := false }
    let s := (s.idlePort (eastOf k) .train).idlePort (westOf k) .train
    let s := (s.modPort (eastOf k) fun p => { p with eqStored := false }).modPort (westOf k) fun p => { p with eqStored := false }
    if k = 0 then { s with ringl := { s.ringl with st := .joining } } else s
  else s

/-- The pair has joined once both of its ports are UP: TOPO join goes both ways, and each port grants its initial credits. -/
def State.tryJoined (s : State) (k : Fin 2) : State :=
  if s.dlk.sw[k].joining && s.dlk.port[eastOf k].st = .up && s.dlk.port[westOf k].st = .up then
    let s := s.modSw k fun w => { w with joining := false, joined := true }
    let s := { s with
      clk := if k = 0 then { s.clk with joinStep := true, exchAt := s.clk.ns } else s.clk
      ringl := if k = 0 then { s.ringl with st := .joined } else { s.ringl with plane2 := !s.roleGateway, gateway := s.roleGateway } }
    let s := (s.sendTopo k 3 (eastOf k) (westOf k)).ownLinks k
    (s.modPort (eastOf k) Port.grantAll).modPort (westOf k) Port.grantAll
  else s

/-- A join has failed: the drive is removed with cause 6 and one S1 record names the pair's East port (16 R376, Table 16.6). -/
def State.joinFailed (s : State) (k : Fin 2) (cause : Nat) : State := (s.noteLink (eastOf k) 1 cause).dropDrive k 6

/-! ## Going DOWN and coming UP -/

/-- The other direction at a break: TURNED and HALF set (17 R393, R395). -/
def turnFlit (f : TxFlit) : TxFlit := { f with half := true, hdr := setBit (setBit f.hdr 91 true) 90 true }

def flitTurned (f : TxFlit) : Bool := bit f.hdr 91

/-- What a lost port had still to send, in order: the VC0 message that held its credit, the unacknowledged flits, the rest (16 R379; 17
R408). -/
def Port.leftover (p : Port) : List TxFlit := p.urgent.toList ++ p.retry.filter (fun f => !f.ctrl) ++ p.outq

/-- Turn flits onto the other port of the pair, ahead of what waits there; the first of them goes ahead of everything where it held a credit. A
turned one that meets a second break is discarded (17 R395, R408). -/
def State.turnAll (s : State) (k : Fin 4) (head : Bool) (l : List TxFlit) : State :=
  let o := otherPort k
  let ok := s.dlk.port[o].linked
  let (go, lost) := l.partition fun f => ok && !flitTurned f
  let s := s.each lost State.freeInp
  let put (p : Port) : Port :=
    match head && p.urgent.isNone, go with
    | true, f :: rest => { p with urgent := some (turnFlit f), urgentCr := false, outq := rest.map turnFlit ++ p.outq }
    | _, _ => { p with outq := go.map turnFlit ++ p.outq }
  (s.modPort o put).pumpPort o

/-- A port is declared DOWN (16 R379, R382, R373): counted and recorded, its peer's credits await reclaim, and what it had to send
turns (17 R395, R407). -/
def State.declareDown (s : State) (k : Fin 4) (cause : Nat) : State :=
  let l := s.dlk.port[k].leftover
  let head := match s.dlk.port[k].urgent with | some f => !flitTurned f | none => false
  let s := s.modPort k fun p =>
    { p with downCnt := satAdd p.downCnt 1, flap := p.flap || cause == 4, spanFail := p.spanFail || cause == 5
             flapAt := if cause = 4 then some s.clk.gt else p.flapAt }
  let s := s.noteLink k 1 cause
  let s := s.modPort k fun p => p.idle .down
  if s.running then (s.turnAll k head l).linkTopo k false else s.each l State.freeInp

/-- A port's link comes UP with a peer. The same peer goes on where it was; a new one starts afresh: the credits the old peer
held await reclaim, and what the old one had not acknowledged is sent again (16 R379; 17 R405, R407). -/
def Port.bringUp (p : Port) (peer : BitVec 17) (pos size span : Nat) (loss : Byte) : Port :=
  let same := p.peerValid && p.peer == peer && p.st == .retrain
  let p := { p with peer := peer, peerValid := true, peerPos := pos, peerSize := size, span := BitVec.ofNat 8 span, loss := loss
                    winCorr := 0, winUncorr := 0, winRetry := 0 }
  if same then { p with st := .up }
  else
    { p.losePeer with
      st := .up, txSeq := 0, rxSeq := 0xFF, nakSent := false, nakDue := false, retry := []
      outq := p.retry.filter (fun f => !f.ctrl) ++ p.outq, auditFail := 0, unacked := 0 }

/-- The link is UP: replay resumes from the peer's ACK + 1 (16 R379); a new peer of a joined pair receives the free slots at once (17 R407), and a
link that was DOWN, or ends at another device now, is told of (17 R394). -/
def State.comeUp (s : State) (k : Fin 4) (peer : BitVec 17) (pos size span : Nat) (loss : Byte) : State :=
  let old := s.dlk.port[k]
  let same := old.peerValid && old.peer == peer && old.st == .retrain
  let s := s.modPort k fun p => p.bringUp peer pos size span loss
  let s := if same then s.replayAll k else if s.pairUp (pairOf k) then (s.modPort k Port.grantAll).linkTopo k true else s
  (s.tryJoined (pairOf k)).pumpPorts

/-- SPAN of an exchange (16 R373), and the peer's position as this port's ring counts it. -/
def State.spanOf (s : State) (k : Fin 4) (peer : BitVec 17) (pos : Nat) : Nat :=
  let r := pairOf k
  let n := s.ringLen r
  let q := if s.upperPair r then peer.toNat / 256 else pos
  let own := s.ringPos r
  if isEast k then (q + 2 * n - own % n - 1) % n else (own + 2 * n - q % n - 1) % n

/-- This end's CTRL flit of an exchange, naming its device ID, ring position and segment size (16 R372 step 4); its layout the spec does not give (log
1). It is outside the retry buffer, whose flits wait for an ACK that a training has no room for (DEDUCED, log 82). -/
def State.nameSelf (s : State) (k : Fin 4) : State := { s with free := s.free + 2 }.emit k 2 (s.freeCtrl k)

/-- The exchange of an attempt with a peer: the span check decides. `count` says that a failure declares the port DOWN. -/
def State.exchange (s : State) (k : Fin 4) (peer : BitVec 17) (pos size : Nat) (loss : Byte) (count : Bool) : State :=
  let span := s.spanOf k peer pos
  let s := s.nameSelf k
  if 2 < span then
    let s := s.modPort k fun p =>
      { p with peer := peer, peerValid := true, peerPos := pos, peerSize := size, span := BitVec.ofNat 8 span, loss := loss, spanFail := true }
    if count then s.declareDown k 5 else s.modPort k fun p => { p with st := .down }
  else s.comeUp k peer pos size span loss

/-! ## Retrain -/

/-- The VC0 flit that waits at the head of a port's queue with a credit keeps it through the retrain (17 R408). -/
def State.holdHead (s : State) (k : Fin 4) : State :=
  match s.dlk.port[k].urgent, s.vcNext k 0 with
  | none, some f =>
    s.modPort k fun p =>
      { p with urgent := some f, urgentCr := true, outq := p.outq.erase f, credit := vsub p.credit (vcHalf f) 1 }
  | _, _ => s

/-- A port leaves UP and starts attempt 1 from the stored equaliser settings; the fourth time within 1 s declares it DOWN with FLAP (16 R379,
R382). -/
def State.enterRetrain (s : State) (k : Fin 4) : State :=
  let now := s.clk.gt
  let recent := s.dlk.port[k].retrains.filter fun t => now.toNat < t.toNat + 1000000000
  let s := s.holdHead k
  let s := s.modPort k fun p =>
    { p with st := .retrain, attempt := 1, eqStored := true, retrainCnt := satAdd p.retrainCnt 1, retrains := now :: recent, winCorr := 0
             winUncorr := 0, winRetry := 0 }
  if 3 ≤ recent.length then s.declareDown k 4 else s

/-- A port does not retrain on thresholds for 1 s after FLAP (16 R382). -/
def State.flapping (s : State) (k : Fin 4) : Bool :=
  match s.dlk.port[k].flapAt with | some t => decide (s.clk.gt.toNat < t.toNat + 1000000000) | none => false

/-- DLK_ERR_THRESHOLD. -/
def execDlkErrThreshold (port : Fin 4) (th : ErrTh) (s : State) : Out :=
  let p := s.dlk.port[port]
  .next (if p.st ≠ .up ∨ !s.running then s
    else match th with
      | .corr =>
        if p.corrThr = 0 ∨ p.winCorr < p.corrThr.toNat then s
        else
          let s := (s.noteLink port 0 1).modPort port fun p => { p with corrTh := true }
          if s.dlk.corrRetrain && !s.flapping port then s.enterRetrain port else s
      | .uncorr =>
        if p.uncorrThr = 0 ∨ p.winUncorr < p.uncorrThr.toNat then s
        else
          let s := (s.noteLink port 1 2).modPort port fun p => { p with uncorrTh := true }
          if s.flapping port then s else s.enterRetrain port
      | .retry =>
        if p.retryThr = 0 ∨ p.winRetry < p.retryThr.toNat then s
        else
          let s := (s.noteLink port 1 2).modPort port fun p => { p with retryTh := true }
          if s.flapping port then s else s.enterRetrain port)

/-- DLK_ERR_WINDOW_END: the counts start again; none runs outside UP (16 R379). -/
def execDlkErrWindowEnd (port : Fin 4) (s : State) : Out :=
  .next (s.modPort port fun p => { p with winCorr := 0, winUncorr := 0, winRetry := 0 })

/-- SIGNAL_LOSS: an UP port retrains (16 R372, R376). -/
def execSignalLoss (port : Fin 4) (s : State) : Out :=
  .next (if s.dlk.port[port].st = .up ∧ s.running then s.enterRetrain port else s)

/-- TRAINING_PATTERN_DETECTED: an UP port joins the peer's retrain; a DOWN port with AUTO answers; a port that is training takes
the pattern as its own attempt (16 R372, R381). -/
def execTrainingPatternDetected (port : Fin 4) (s : State) : Out :=
  let p := s.dlk.port[port]
  .next (if !s.running then s
    else if p.st = .up then s.enterRetrain port
    else if p.st = .down ∧ p.auto ∧ s.dlk.sw[pairOf port].drive then s.modPort port fun p => { p with st := .train, eqStored := false }
    else s)

/-- AUTO_TRAINING_TIMER (16 R372). -/
def execAutoTrainingTimer (port : Fin 4) (s : State) : Out :=
  let p := s.dlk.port[port]
  .next (if s.running ∧ p.st = .down ∧ p.auto ∧ s.dlk.sw[pairOf port].drive then s.modPort port fun p => { p with st := .train, eqStored := false } else s)

/-- RETRAIN_ATTEMPT_DONE: UP, the next of three attempts, from reset equaliser settings, or DOWN (16 R372, R379). -/
def execRetrainAttemptDone (port : Fin 4) (r : TrainRes) (s : State) : Out :=
  let p := s.dlk.port[port]
  .next (if p.st ≠ .retrain ∨ !s.running then s
    else match r with
      | .exchange peer pos size loss => s.exchange port peer pos size loss true
      | .fail =>
        if p.attempt.toNat < 3 then s.modPort port fun p => { p with attempt := p.attempt + 1, eqStored := false } else s.declareDown port 3)

/-- FULL_TRAINING_DONE: in LOOPBACK it decides LOOP_OK, exempt from the span check; in TRAIN it brings the port UP or leaves it DOWN.
A DOWN port whose training fails again writes no new record (16 R372, R373, R385). -/
def execFullTrainingDone (port : Fin 4) (r : TrainRes) (s : State) : Out :=
  let p := s.dlk.port[port]
  .next (if !s.pwr.rails || s.err.firstS4.isSome then s
    else match p.st, r with
      | .loopback, .exchange _ _ _ loss =>
        ((s.nameSelf port).modPort port fun p => { p with loopOk := true, loss := loss }).tryJoin (pairOf port)
      | .loopback, .fail => s.modPort port fun p => { p with loopOk := false }
      | .train, .exchange peer pos size loss => s.exchange port peer pos size loss s.dlk.sw[pairOf port].joining
      | .train, .fail => s.modPort port fun p => { p with st := .down }
      | _, _ => s)

/-- The port is fitted (00 R20). -/
def State.portFitted (s : State) (k : Fin 4) : Bool := k.val < 2 || s.fuses.i2

/-- RETRAIN: a write of DLK_PORT_CTRL.RETRAIN acts only in UP (16 R381). -/
def execRetrain (fn : Fn) (port : Fin 4) (s : State) : Out :=
  .next (if s.owner fn && s.portFitted port && s.dlk.port[port].st = .up && s.running then s.enterRetrain port else s)

/-! ## The bypass (16 R380) -/

/-- BYPASSn is written 1. -/
def State.bypassOn (s : State) (k : Fin 2) : State :=
  let s := s.modSw k fun w => { w with bypass := true }
  let w := s.dlk.sw[k]
  if w.joined then s.startLeave k
  else if w.drive then s.dropDrive k 5
  else s.modSw k fun w => { w with cause := 5 }

/-- BYPASS. -/
def execBypass (fn : Fn) (sw : Fin 2) (s : State) : Out :=
  .next (if s.owner fn && (s.fuses.i2 || sw == 0) then s.bypassOn sw else s)

/-- JOIN_WINDOW_EXPIRY (16 R376). -/
def execJoinWindowExpiry (pair : Fin 2) (s : State) : Out :=
  .next (if s.dlk.sw[pair].joining then s.joinFailed pair 6 else s)

/-- SWITCH_SENSE_TIMEOUT: the switch is sensed in the state opposite to its drive; one driven open is handled as a failed join, joined or not (16
Table 16.6). A switch sensed open undriven is logged as every global record is. -/
def execSwitchSenseTimeout (pair : Fin 2) (s : State) : Out :=
  .next (if s.dlk.sw[pair].drive then (s.modSw pair fun w => { w with fault := true, closed := true }).joinFailed pair 7
    else (s.modSw pair fun w => { w with fault := true, closed := false }).noteLink (eastOf pair) 1 8)

/-- PAIR_DOWN_TIMEOUT (16 Table 16.3 cause 7). -/
def execPairDownTimeout (pair : Fin 2) (s : State) : Out :=
  .next (if s.dlk.sw[pair].drive && s.dlk.port[eastOf pair].st = .down && s.dlk.port[westOf pair].st = .down
    then s.dropDrive pair 7 else s)

/-! ## Flits -/

/-- The unacknowledged flits that an ACK does not cover (16 R369, R370). -/
def ackRetry (ack : Byte) (l : List TxFlit) : List TxFlit := if l.any (·.seq == ack) then (l.dropWhile (·.seq != ack)).drop 1 else l

/-- Credits returned for a VC: to its low half up to its share, then to the high half (log 31). -/
def giveCredit (v : Vector Nat 8) (vc : Fin 4) (n : Nat) : Vector Nat 8 :=
  let lo : Fin 8 := ⟨2 * vc.val, by have := vc.isLt; omega⟩
  let hi : Fin 8 := ⟨2 * vc.val + 1, by have := vc.isLt; omega⟩
  let a := min n (vcCap lo - v[lo])
  vadd (vadd v lo a) hi (n - a)

/-- Replay from ACK + 1, one retry (16 R370). -/
def State.replay (s : State) (k : Fin 4) : State :=
  if s.dlk.port[k].retry = [] then s
  else (s.modPort k fun p => { p with retryCnt := satAdd p.retryCnt 1, winRetry := p.winRetry + 1 }).replayAll k

/-- REPLAY_TIMEOUT (16 R370). -/
def execReplayTimeout (port : Fin 4) (s : State) : Out :=
  .next (if s.dlk.port[port].st = .up ∧ s.running then s.replay port else s)

/-- The fields of a ring header (17 Table 17.2). -/
def hDst (h : BitVec 96) : Nat := fld h 0 17
def hSrc (h : BitVec 96) : BitVec 17 := BitVec.ofNat 17 (fld h 17 17)
def hSptn (h : BitVec 96) : Fin 16 := ⟨fld h 34 4, Nat.mod_lt _ (by decide)⟩
def hDptn (h : BitVec 96) : Fin 16 := ⟨fld h 38 4, Nat.mod_lt _ (by decide)⟩
def hOp (h : BitVec 96) : Nat := fld h 42 4
def hXid (h : BitVec 96) : W16 := BitVec.ofNat 16 (fld h 46 16)
def hOff (h : BitVec 96) : Nat := fld h 62 28

/-- A message has reached its destination (17 Table 17.3). TIME is the row TIME_MSG. -/
def State.deliver (s : State) (port : Fin 4) (h : BitVec 96) (pay : BitVec 1888) : State :=
  let f := fld pay
  match hOp h with
  | 6 => s.topoMsg port (f 0 8) (f 8 24) (f 32 8)
  | 8 => s.stateMsg port (hSrc h).toNat (f 0 12)
  | op =>
    if !s.onRing then s
    else match op with
      | 0 => s.reqMsg { src := hSrc h, sptn := hSptn h, dptn := hDptn h, xid := hXid h, len := f 0 64, tag := BitVec.ofNat 14 (f 64 14)
                        vc := f 80 2, rop := f 82 3, fmt := f 88 8, rank := f 96 6 }
      | 1 => s.grantMsg (hSrc h) (hXid h) (f 0 32) (f 32 16)
      | 2 => s.dataMsg (hSrc h) (hXid h) (hOff h) pay
      | 3 => s.xackMsg (hSrc h) (hXid h) (f 0 32) (f 32 16)
      | 4 => s.refuseMsg (hSrc h) (hDptn h) (hXid h) (f 0 8)
      | 5 => s.tallyMsg (hSrc h) (hSptn h) (hDptn h) (hXid h) (f 0 17) (bit pay 24) (BitVec.ofNat 32 (f 32 32))
      | _ => s

/-- A flit in transit: a gateway moves it to the other ring where its destination lies there; else it goes on in its direction, or
turns at a break or before a device that leaves (17 R393-R395, R405). -/
def State.forward (s : State) (port : Fin 4) (f : TxFlit) : State :=
  let dst := hDst f.hdr
  let seg := s.devId / 256
  let change := s.roleGateway && (if s.upperPair (pairOf port) then dst / 256 == seg else dst / 256 != seg && s.gatewayId == s.devId)
  let put (s : State) (k : Fin 4) (h : Bool) : State := s.putFlit k { f with half := h, hdr := setBit f.hdr 90 h }
  if change then
    match s.route dst (hXid f.hdr).toNat f.vc.val with
    | some k => put s k (s.dateline k)
    | none => s.freeInp f
  else
    let o := otherPort port
    let p := s.dlk.port[o]
    let around := (s.rmap (pairOf o)).leaving.contains (s.peerAt (pairOf o) o) && p.peer.toNat != dst && !flitTurned f
    if p.linked ∧ !around then put s o (f.half || s.dateline o)
    else if flitTurned f then s.freeInp f
    else s.putFlit port (turnFlit f)

/-- An accepted DATA flit takes a slot of its VC, and is discarded as malformed or misrouted, delivered, or forwarded (17 R390, R391). -/
def State.takeData (s : State) (port : Fin 4) (v : Fin 4) (h : BitVec 96) (pay : BitVec 1888) : State :=
  let f := mkFlit v.val (bit h 90) h pay none
  let s := s.modPort port fun p => { p with rxHeld := vadd p.rxHeld v 1, granted := vsub p.granted v 1 }
  let seg := s.devId / 256
  let stray := seg != hDst h / 256 && seg != (hSrc h).toNat / 256 && !s.roleGateway
  if 9 ≤ hOp h ∨ fld h 92 4 ≠ 0 ∨ stray then s.ringBad.freeSlot port v
  else if hDst h = s.devId then (s.deliver port h pay).freeSlot port v
  else s.forward port { f with inp := some (port, v) }

/-- The ACK of an accepted flit retires what it covers, whose credit returns have arrived, and the credits it returns are this end's (16 R369,
R370; 17 R391). -/
def Port.acked (p : Port) (ack : Byte) (vc : Fin 4) (n : Nat) : Port :=
  let left := ackRetry ack p.retry
  let q := { p with retry := left }
  { q with granted := vplus p.granted (Vector.zipWith (· - ·) p.inFlits q.inFlits), credit := giveCredit p.credit vc n }

/-- The RS(544,514) code corrects up to 15 symbols of a codeword, and detects one with more (16 R367). -/
def cwOk (e : Option (Fin 545)) : Bool := match e with | some n => n.val ≤ 15 | none => true

/-- The symbols corrected in a codeword. -/
def cwFixed (e : Option (Fin 545)) : Nat := match e with | some n => if n.val ≤ 15 then n.val else 0 | none => 0

/-- A flit is discarded, and NAK is sent once; every flit that arrives counts toward the next ACK (16 R369). -/
def Port.discard (p : Port) (damaged : Bool) : Port :=
  { p with uncorrCnt := satAdd p.uncorrCnt 1, winUncorr := p.winUncorr + damaged.toNat, nakSent := true, nakDue := p.nakDue || !p.nakSent
           unacked := p.unacked + 1 }

/-- An accepted flit moves the sequence on (16 R369). -/
def Port.accept (p : Port) (kind : Nat) (seq : Byte) : Port :=
  let p := { p with unacked := p.unacked + 1 }
  if kind = 0 then p else { p with nakSent := false, nakDue := false, rxSeq := seq }

/-- The ledger checks class 0 after a step of a port (17 R406). -/
def State.audit0 (s : State) : State := if s.ldg.frozen || s.ldg0.balance then s else s.mismatch 0

/-- FLIT_RECEIVED. `shared` and `first` are the symbol errors of the codeword that an earlier flit began and of the one this flit begins; an error in
an input or retry buffer that the port cannot correct stops the device (17 R413). -/
def execFlitReceived (port : Fin 4) (flit : BitVec 2048) (shared first : Option (Fin 545)) (s : State) (bufErr : Bool := false) : Out :=
  .next (if s.dlk.port[port].st ≠ .up ∨ !s.running then s
    else if bufErr then s.report (recOf 4 0x0A 5 (unitPort port)) none 0
    else
      let f := fld flit
      let fixed := cwFixed first
      let s := s.modPort port fun p => { p with corrCnt := satAdd p.corrCnt fixed, winCorr := p.winCorr + fixed }
      let damaged := !cwOk shared || !cwOk first || crc32 (leBytes 252 flit.toNat) != f 2016 32
      let kind := f 17 2
      let order := kind == 0 || BitVec.ofNat 8 (f 0 8) == s.dlk.port[port].rxSeq + 1
      let s :=
        if damaged ∨ kind = 3 ∨ f 29 3 ≠ 0 ∨ !order then s.modPort port fun p => p.discard damaged
        else
          let vc2 (lo : Nat) : Fin 4 := ⟨f lo 2, Nat.mod_lt _ (by decide)⟩
          let s := s.modPort port fun p => (p.acked (BitVec.ofNat 8 (f 8 8)) (vc2 21) (f 23 6)).accept kind (BitVec.ofNat 8 (f 0 8))
          let s := if bit flit 16 then s.replay port else s
          if kind = 1 then s.takeData port (vc2 19) (BitVec.ofNat 96 (f 32 96)) (BitVec.ofNat 1888 (f 128 1888)) else s
      ((s.pumpPorts.tryLeaves).audit0).pumpAll)

end Sys2Proof.Machine
end

