-- ==== Sys2Proof/Machine/Clocks.lean ====
section
/-! DEFINITION. Clocks (15): the CCLK target and its walk (R355, R356, R360), the throttle ceiling (21 R489), global time over the
ring (R358, R361-R363), and the failures of R363. -/

namespace Sys2Proof.Machine

/-! ## CCLK -/

/-- A field of the global set in force, zero selecting a default. -/
def gfOr (s : State) (byte lo w dflt : Nat) : Nat := if gf s.gact byte lo w = 0 then dflt else gf s.gact byte lo w

/-- Ceiling of a ladder level (21 Table 21.2); 16 limits nothing. -/
def ladderCeil : Nat → Nat
  | 0 => 16 | 1 => 14 | 2 => 12 | 3 => 10 | 4 => 8 | _ => 6

def State.dieTarget (s : State) : Int := gfOr s 134 0 8 95

/-- A die's temperature for the ladder, in 1/128 °C; with more than 8 failed sensors it counts as DIE_TARGET + 10 (21 R488). -/
def State.dieTemp (s : State) (d : DieT) : Int :=
  if 8 < popCount 64 d.failed.toNat then 128 * (s.dieTarget + 10) else sx 16 d.temp.toNat

/-- The hottest die. -/
def State.hottest (s : State) : Int := (s.thm.die.toList.map s.dieTemp).foldl max (-32768)

/-- Since when the hottest die has been above DIE_TARGET, or below DIE_TARGET − 5 °C, without a break or the ladder's last move (21 R489). -/
def State.noteHeat (s : State) : State :=
  let hot := decide (128 * s.dieTarget < s.hottest)
  let cold := decide (s.hottest < 128 * (s.dieTarget - 5))
  { s with thm := { s.thm with
      roseAt := if hot then (s.thm.roseAt.or (some s.clk.ns)) else none
      coolAt := if cold then (s.thm.coolAt.or (some s.clk.ns)) else none } }

/-- The throttle ceiling: the lowest of the sources that apply (21 R489). Until the first global swap it stays conservative (08 R220, 21
R499); a MISSING tray's last values limit nothing (21 R484). -/
def State.ceiling (s : State) : Nat :=
  min (gfOr s 132 0 5 16) (min (ladderCeil s.thm.level.toNat)
    (min (if s.thm.tray = .valid ∧ s.gcr.valid then 16 else gfOr s 133 0 5 10)
      (if s.thm.coolWarn ∧ s.thm.tray ≠ .missing then 10 else 16)))

/-- The planned CCLK step; 10 until the first global swap (08 R220, R364). -/
def State.planned (s : State) : Nat := if s.gcr.valid then gf s.gact 64 0 8 else 10

/-- Set the ceiling and the target under it (15 R356, R360). -/
def State.retarget (s : State) : State :=
  let c := s.ceiling
  let t := min s.planned c
  { s with
    thm := { s.thm with ceil := BitVec.ofNat 5 c }
    clk := { s.clk with target := BitVec.ofNat 5 t, throttled := decide (c < s.planned), walking := s.clk.cur.toNat != t } }

/-- `n` ns have passed since an instant that the model noted, if it noted one. -/
def Clk.past (c : Clk) (since : Option Nat) (n : Nat) : Bool :=
  match since with | some t => decide (t + n ≤ c.ns) | none => true

/-- CCLK_STEP: CCLK moves one step toward its target, at least 50 µs after the last step (15 R356). -/
def execCclkStep (s : State) : Out :=
  let c := s.clk
  .next (if !s.pwr.rails ∨ c.cur = c.target ∨ !c.past c.stepAt 50000 then s
    else
      let n := if c.cur.toNat < c.target.toNat then c.cur + 1 else c.cur - 1
      { s with clk := { c with cur := n, walking := n != c.target, stepAt := some c.ns } })

/-! ## Global time -/

/-- Some partition has an active set. -/
def State.anyActive (s : State) : Bool := s.ptn.any (·.activeValid)

/-- GT_SET: the counter is set while FREE and no partition has an active set; else the write is discarded with SET_DROP. -/
def execGtSet (fn : Fn) (val : W64) (s : State) : Out :=
  .next (if !s.owner fn then s
    else if s.clk.st = .free ∧ !s.anyActive then { s with clk := { s.clk with gt := val } }
    else { s with clk := { s.clk with setDrop := true } })

/-- Global time is disciplined: TIME_DISC is 1 and the device is joined (15 R358). -/
def State.disciplined (s : State) : Bool := s.running && gf s.gact 65 0 1 == 1 && (s.ringl.st == .joined || s.ringl.st == .leaving)

/-- The upstream port: toward TIME_MASTER by route; a gateway whose master lies in another segment uses its upper ring (17 R397). -/
def State.upstream (s : State) : Option (Fin 4) := if s.timeMaster = s.devId then none else s.route s.timeMaster 0 0

/-- TIME_EXCHANGE: time stamps go to the neighbour of an active port on VC0. What a TIME flit's payload holds the spec does not lay
out: a free value (log 1). -/
def execTimeExchange (port : Fin 4) (s : State) : Out :=
  .next (if s.disciplined && s.pairUp (pairOf port) && s.dlk.port[port].st = .up then
    { s with free := s.free + 1 }.putFlit port (mkFlit 0 (s.dateline port)
      (ringHdr s.dlk.port[port].peer.toNat s.devId 0 0 7 0 0 (s.dateline port) false) (BitVec.ofNat 1888 (Config.freeNat s.free)) none)
  else s)

/-- An offset in ns as GT_STATUS holds it. -/
def offReg (o : Int) : W16 := BitVec.ofInt 16 (max (-32767) (min 32767 o))

/-- The counter follows an offset of the upstream port: on the first exchange after a join it may step, else it slews; its state
follows the offsets (15 R358). -/
def Clk.follow (c : Clk) (port : Fin 4) (o : Int) (active : Bool) : Clk :=
  let a := o.natAbs
  let run := if a ≤ 10 then c.lockRun + 1 else 0
  let st := if 20 < a then GtSt.acquire else if 16 ≤ run then .locked else match c.st with | .locked => .locked | _ => .acquire
  let c' := { c with exchAt := c.ns, upstream := BitVec.ofNat 2 port.val, offset := offReg o, lockRun := min run 16, badRun := 0, st := st, joinStep := false }
  if c.joinStep ∧ 10000 < o then
    { c' with gt := c.gt + BitVec.ofInt 64 o, slew := 0, stepped := c.stepped || active }
  else if c.joinStep ∧ o < -10000 ∧ !active then { c' with gt := c.gt + BitVec.ofInt 64 o, slew := 0 }
  else { c' with slew := o }

/-- TIME_MSG: an exchange with a neighbour has given its time and half the round trip. Only the upstream port's is followed; one above 1
ms while LOCKED is implausible (15 R358, R363). -/
def execTimeMsg (port : Fin 4) (neighbour : W64) (delay : Nat) (s : State) : Out :=
  .next (if !s.disciplined || s.upstream != some port then s
    else
      let o : Int := sx 64 ((neighbour.toNat + delay + (2 ^ 64 - s.clk.gt.toNat)) % 2 ^ 64)
      if s.clk.st = .locked ∧ 1000000 < o.natAbs then
        let s := s.report { recOf 0 0x0B 1 unitClk with detail := wrap 32 (Int.tdiv o 1000) } none 0
        { s with clk :=
            if 2 ≤ s.clk.badRun then { s.clk with st := .holdover, badRun := 0, lockRun := 0 }
            else { s.clk with badRun := s.clk.badRun + 1 } }
      else { s with clk := s.clk.follow port o s.anyActive })

/-- HOLDOVER_TIMEOUT: 1 ms without an upstream exchange moves the counter to HOLDOVER (15 R358). The time master has no upstream port
(DEDUCED, log 76). -/
def execHoldoverTimeout (s : State) : Out :=
  .next (if s.disciplined ∧ s.timeMaster ≠ s.devId ∧ s.clk.st ≠ .holdover ∧ s.clk.exchAt + 1000000 ≤ s.clk.ns then
    { s with clk := { s.clk with st := .holdover, lockRun := 0 } }
  else s)

/-! ## Failures (15 R363) -/

/-- Domains in the order of CLK_STATUS: their number in the order of 15 Table 15.1. -/
def domOrder : Fin 9 → Nat
  | 0 => 0 | 1 => 1 | 2 => 2 | 3 => 5 | 4 => 7 | 5 => 3 | 6 => 3 | 7 => 4 | 8 => 4

/-- The I/O die whose PLL a domain is, HCLK or LCLK. -/
def domIo : Fin 9 → Fin 2
  | 6 => 1 | 8 => 1 | _ => 0

/-- A domain of an I/O die that is not fitted has no PLL (15 Table 15.5). -/
def State.domFitted (s : State) (d : Fin 9) : Bool := s.fuses.i2 || (d != 6 && d != 8)

/-- PLL_LOCK_LOSS: CCLK, FCLK, MCLK, XCLK are device errors; HCLK takes its link out of L0; LCLK takes its ports down and removes the
drive with cause 7. -/
def execPllLockLoss (dom : Fin 9) (s : State) : Out :=
  .next (if !s.pwr.rails || !s.domFitted dom then s
    else
      let s := { s with clk := { s.clk with lock := setBit s.clk.lock dom.val false } }
      match dom with
      | 4 => s
      | 5 | 6 => s.linkDown (domIo dom)
      | 7 | 8 =>
        let k := domIo dom
        let s := s.dropDrive k 7
        (s.idlePort (eastOf k) .down).idlePort (westOf k) .down
      | d => s.report { recOf 4 0x0A 1 unitClk with detail := domOrder d } none 0)

/-- PLL_LOCK_REGAINED: HCLK's link can train again, and LCLK's ports go back to LOOPBACK. -/
def execPllLockRegained (dom : Fin 9) (s : State) : Out :=
  .next (if !s.pwr.rails || !s.domFitted dom then s
    else
      let s := { s with clk := { s.clk with lock := setBit s.clk.lock dom.val true } }
      match dom with
      | 7 | 8 =>
        let k := domIo dom
        let one (s : State) (p : Fin 4) : State :=
          if s.dlk.port[p].st = .down ∧ !s.dlk.sw[k].drive ∧ 3 ≤ s.pwr.stage.toNat then s.modPort p fun p => { p with st := .loopback } else s
        one (one s (eastOf k)) (westOf k)
      | _ => s)

/-- OSCILLATOR_STOP. -/
def execOscillatorStop (s : State) : Out := .next (if s.pwr.rails then s.report (recOf 4 0x0A 2 unitClk) none 0 else s)

/-- FABRIC_ERROR: corrected is a note of the link, uncorrectable a device error (18 Table 18.5 kind 0x0A). -/
def execFabricError (link : Fin 14) (corrected : Bool) (s : State) : Out :=
  .next (if s.pwr.rails then
    s.report { recOf (if corrected then 1 else 4) 0x0A (if corrected then 6 else 3) unitFabric with detail := link.val } none 0
  else s)

/-! ## Reading global time (15 R362) -/

/-- GT_NOW_READ: 64 bits at once; the low half latches the high half, which the next read of the high half returns. -/
def State.readGt (s : State) (half : GtRead) : State × W64 :=
  match half with
  | .full => (s, s.clk.gt)
  | .low => ({ s with clk := { s.clk with latch := some (BitVec.ofNat 32 (fld s.clk.gt 32 32)) } }, BitVec.ofNat 64 (fld s.clk.gt 0 32))
  | .high =>
    ({ s with clk := { s.clk with latch := none } },
      match s.clk.latch with | some h => BitVec.ofNat 64 h.toNat | none => BitVec.ofNat 64 (fld s.clk.gt 32 32))

end Sys2Proof.Machine
end

