-- ==== Sys2Proof/Machine/Flags.lean ====
section
/-! DEFINITION. Status registers whose bits are computed from the state: the ring and its ports (16 Tables 16.8, 16.9; 17 Table 17.9),
power and thermal (20 Table 20.13, 21 Table 21.6), clocks (15 Table 15.5). -/

namespace Sys2Proof.Machine

/-- A register put together from its fields, lowest first: (low bit, value). -/
def fields (l : List (Nat × Nat)) : Nat := (l.map fun x => x.2 * 2 ^ x.1).sum

/-- W1C: the flag after a write whose bit is `b`. -/
def w1c (flag b : Bool) : Bool := flag && !b

def ringCode : RingSt → Nat
  | .unjoined => 0 | .joining => 1 | .joined => 2 | .leaving => 3

/-- RING_STATUS. -/
def State.ringStatus (s : State) : Nat :=
  let n := s.ringl.map[0].down.length
  fields [(0, ringCode s.ringl.st), (2, (n == 1).toNat), (3, (decide (2 ≤ n)).toNat), (4, s.ringl.plane2.toNat),
    (5, s.ringl.gateway.toNat), (8, min n 255)]

/-- RING_BREAK: the device at the West end of the lowest break. -/
def State.ringBreak (s : State) : Nat := match s.ringl.map[0].down with | p :: _ => s.devId / 256 * 256 + p % 256 | [] => 0

/-- DLK_BYP_STATUS; on I1 the fields of switch 1 read zero (16 R386). -/
def State.bypStatus (s : State) : Nat :=
  let a := s.dlk.sw[0]
  let b := s.dlk.sw[1]
  let i2 := s.fuses.i2
  fields [(0, a.closed.toNat), (1, a.drive.toNat), (2, (b.closed && i2).toNat), (3, (b.drive && i2).toNat), (4, a.fault.toNat),
    (5, (b.fault && i2).toNat), (8, a.cause.toNat), (11, if i2 then b.cause.toNat else 0)]

/-- DLK_PORT_STATUS. -/
def Port.status (p : Port) : Nat :=
  fields [(0, portCode p.st), (3, p.loopOk.toNat), (4, p.attempt.toNat), (6, p.spanFail.toNat), (7, p.corrTh.toNat), (8, p.uncorrTh.toNat),
    (9, p.retryTh.toNat), (10, p.flap.toNat)]

/-- DLK_PEER. -/
def Port.peerReg (p : Port) : Nat := fields [(0, p.peer.toNat), (17, p.peerValid.toNat), (18, p.span.toNat)]

def pwrCode : PwrSt → Nat
  | .off => 0 | .starting => 1 | .on => 2 | .shuttingDown => 3 | .offHold => 4

/-- PWR_STATUS. -/
def Pwr.status (p : Pwr) : Nat :=
  fields [(0, pwrCode p.st), (3, p.stage.toNat), (6, p.autoOn.toNat), (7, p.pwrEn.toNat), (8, p.pwrWarn.toNat), (9, p.recovStrap.toNat),
    (10, p.recovMode.toNat)]

/-- PWR_SD_STATUS. -/
def Pwr.sdStatus (p : Pwr) : Nat :=
  fields [(0, p.sdCause.toNat), (8, p.triggers.toNat), (16, p.supplyReturned.toNat), (17, p.leaveTimeout.toNat)]

/-- PWR_BOOT_STATUS. -/
def Pwr.bootStatus (p : Pwr) : Nat :=
  fields [(0, p.bootSlot.toNat), (1, p.fromWindow.toNat), (2, p.bootMode.toNat), (4, p.failA.toNat), (8, p.failB.toNat), (12, p.failR.toNat),
    (16, p.secVer.toNat)]

def trayCode : TraySt → Nat
  | .unknown => 0 | .valid => 1 | .missing => 2 | .implausible => 3

/-- THM_STATUS. -/
def Thm.status (t : Thm) : Nat :=
  fields [(0, trayCode t.tray), (2, t.level.toNat), (5, t.hbWarn.toNat), (6, t.coolWarn.toNat), (7, t.dieHot.toNat), (16, t.ceil.toNat)]

/-- CLK_CCLK. -/
def Clk.cclkReg (c : Clk) : Nat := fields [(0, c.cur.toNat), (8, c.target.toNat), (13, c.walking.toNat), (14, c.throttled.toNat)]

def gtCode : GtSt → Nat
  | .free => 0 | .acquire => 1 | .locked => 2 | .holdover => 3

/-- GT_STATUS. -/
def Clk.gtStatus (c : Clk) : Nat :=
  fields [(0, gtCode c.st), (2, c.stepped.toNat), (3, c.setDrop.toNat), (4, c.upstream.toNat), (16, c.offset.toNat)]

/-- Some partition is fenced or being fenced. -/
def State.anyFenced (s : State) : Bool := s.ptn.any fun q => q.fenced || q.fencing

/-! ## The carrier LEDs (22 R507, Table 22.4) -/

/-- What an LED shows. -/
inductive Led where
  | off
  | steady
  | blink (hz : Nat)
  deriving DecidableEq, Repr

/-- The LEDs PWR, RING and FAULT: of the rows that apply the lowest governs, and LOCATE makes all three blink at 2 Hz. With no standby rail
nothing drives them (DEDUCED, log 84). -/
def State.leds (s : State) : Led × Led × Led :=
  if !s.pwr.vsb then (.off, .off, .off)
  else if s.gcr.led then (.blink 2, .blink 2, .blink 2)
  else
    (match s.pwr.st with | .off => .off | .on => .steady | .starting => .blink 1 | .offHold => .blink 1 | .shuttingDown => .blink 4,
      if s.ringl.map[0].down ≠ [] then .blink 4
      else match s.ringl.st with | .unjoined => .off | .joined => .steady | .joining => .blink 1 | .leaving => .blink 1,
      if s.err.fatal ∨ s.pwr.stage = 7 then .steady
      else if s.anyFenced || s.thm.tray != .valid then .blink 1 else .off)

end Sys2Proof.Machine
end

