-- ==== Sys2Proof/Machine/Power.lean ====
section
/-! DEFINITION. Power (20): states and triggers (R464, R465, R474-R477), resets (R466, R467), boot and recovery (R468-R471), start-up
(R472, R473, R479), shutdown (R475), loss of the rails (R480, R481), and the flash (R478). -/

namespace Sys2Proof.Machine

/-! ## Records of 20 Table 20.11 -/

def State.platform (s : State) (sev cause detail : Nat) : State :=
  s.report { recOf sev 0x0C cause unitPwr with detail := detail } none 0

/-! ## Resets -/

def switchOf (cause : BitVec 3) : Switch := { Switch.reset with cause := cause }

/-- The DBG registers that a warm reset clears; a part that is not fused locked is open from reset with both scopes, and the challenge
is new (22 R514, R515, R520). -/
def Dbg.warmReset (d : Dbg) (f : Fuses) (ch : BitVec 256) : Dbg :=
  { d with isOpen := !f.locked, scope := if f.locked then 0 else 3, busy := false, result := 0, halt := 0, traceEn := 0, challenge := ch }

/-- The PWR fields that do not hold through warm reset (20 R466, R482). -/
def Pwr.bootReset (p : Pwr) : Pwr :=
  { p with
    failUnit := 0xFF, recovMode := false, bootSlot := false, fromWindow := false, bootMode := 0, failA := 0, failB := 0, failR := 0
    secVer := 0, clrst := 0, recovLen := 0, flashAddr := 0, flashAt := 0, flashOp := 0, flashErr := false, flashDropped := false, flashBuf := 0 }

/-- Flags and counters of the MBS/TBS block clear on warm reset; its control registers hold (19 R459). -/
def Mbs.warmReset (m : Mbs) : Mbs := { m with fScl := false, fSda := false, pecErr := false, badCmd := false, txnCnt := 0, errCnt := 0 }

def Tbs.warmReset (t : Tbs) : Tbs :=
  { t with fScl := false, fSda := false, fRec := false, result := 0, valid := false, failRun := 0, failCnt := 0, recCnt := 0, stale := 0
           lastRec := 0 }

/-- What every reset of the powered domain clears (20 R466). Error records not yet written go to the log, which holds (18 R429, R437). -/
def State.clearPowered (s : State) (cause : BitVec 3) : State :=
  let r := State.reset
  let s := (s.each (List.finRange 16) fun s p => s.dropQueue (some p) false).dropQueue none false
  { s with
    free := s.free + 1
    io := Vector.ofFn fun i => { IoDie.reset with inReset := !s.pwr.rails || (if i.val = 0 then s.pwr.perst0 else s.pwr.perst1) }
    ptn := r.ptn, cl := r.cl, jobs := [], ops := [], tallies := [], owners := [], uses := [], xfers := [], chans := [], ctxs := []
    dtks := [], luts := [], merges := [], ringl := r.ringl
    gcr := { Gcr.reset with led := s.gcr.led }
    dbg := s.dbg.warmReset s.fuses (Config.challenge s.free)
    thm := { Thm.reset with die := s.thm.die.map fun (d : DieT) => { temp := 0, sensor := 0, failed := d.failed } }
    err := { s.err with ger := ErrRing.reset, firstS4 := none }
    dlk := { Dlk.reset with sw := Vector.replicate 2 (switchOf cause) } }

/-- A warm reset (20 R466, R472): as power-on but for the fields that hold, the CLK block's and the trace among them (15 R365, 22 R520); the
drives go, and start-up reruns from stage 1. -/
def State.warmReset (s : State) : State :=
  let s0 := s
  let s := s.snapLedger.clearPowered 2
  { s with
    clk := { s.clk with cur := 10, target := 10, joinStep := false }
    cl := Vector.ofFn fun c =>
      let k := s0.cl[c]
      { Cluster.reset with owner := k.owner, trace := k.trace, traceTotal := k.traceTotal, traceCyc := k.traceCyc }
    mbs := s.mbs.warmReset
    tbs := s.tbs.warmReset
    pwr := { s.pwr.bootReset with stage := 1, warm := true } }

/-- The power-on reset, when the main rails come up (15 R364; 17 R414; 18 R437; 20 R480; 22 R515). -/
def State.powerOn (s : State) : State :=
  let clean := s.pwr.cleanOff
  let s := s.clearPowered 1
  { s with
    clk := Clk.reset
    gcr := Gcr.reset
    dbg := { Dbg.reset with challenge := s.dbg.challenge, isOpen := s.dbg.isOpen, scope := s.dbg.scope }
    thm := Thm.reset
    err := { s.err with fatal := false }
    ldg := { Ldg.reset with rebuilt := !clean }
    pwr := { s.pwr.bootReset with cleanOff := true, warm := false } }

/-! ## Shutdown -/

/-- A partition with an active set is reset without zeroing (20 R475 step 2). -/
def State.shutPtn (s : State) (p : Fin 16) : State :=
  if (s.P p).activeValid then
    let i := s.issue (fenceRec p 5)
    let s := i.st.modP p Ptn.cancelSwap
    (s.dropHeldEr p).fenceBody p 5 i.pseq.toNat false true
  else s

/-- A pair leaves the ring, or loses its drive at once during a join or a retrain (16 R383; 20 R475 step 3). -/
def State.shutPair (s : State) (k : Fin 2) : State :=
  let still (p : Fin 4) : Bool := s.dlk.port[p].st != .retrain
  if s.dlk.sw[k].joined && still (eastOf k) && still (westOf k) then s.startLeave k else s.dropDrive k 3

/-- A trigger of 20 Table 20.5, other than an S4 error (20 R474-R477). In STARTING no job exists and no pair is joined. -/
def State.trigger (s : State) (cause : Nat) : State :=
  match s.pwr.st with
  | .shuttingDown | .starting => s.noteTrigger cause
  | .on =>
    let s := (s.platform 0 1 cause).noteTrigger cause
    let s := s.each (List.finRange 16) State.shutPtn
    ((s.shutPair 0).shutPair 1).pumpAll
  | _ => s

/-- SHUTTING_DOWN or OFF_HOLD (20 R476). -/
def Pwr.closing (p : Pwr) : Bool := p.st == .shuttingDown || p.st == .offHold

/-- IO0's physical function reaches the PWR block, in recovery mode too (20 R471, R482). -/
def State.pwrReach (s : State) (fn : Fn) : Bool := s.fnAlive fn && fn == .pf 0

/-- A write of PWR_CTRL.SHUTDOWN; with STAY_OFF only a later edge of PWR_EN counts for a start (20 R465, R474). -/
def State.shutdownCmd (s : State) (stayOff : Bool) : State :=
  { s with pwr := { s.pwr with stayOff := s.pwr.stayOff || stayOff, edge := s.pwr.edge && !stayOff } }.trigger 1

/-- SHUTDOWN. -/
def execShutdown (fn : Fn) (stayOff : Bool) (s : State) : Out := .next (if s.pwrReach fn then s.shutdownCmd stayOff else s)

/-- PWR_EN_RISE: a rising edge since the device entered OFF, or in SHUTTING_DOWN or OFF_HOLD, counts for a start; it clears the STAY_OFF
latch (20 R464, R465, R476). -/
def execPwrEnRise (s : State) : Out :=
  .next (if !s.pwr.vsb ∨ s.pwr.pwrEn then s
    else { s with pwr := { s.pwr with pwrEn := true, stayOff := false, edge := s.pwr.edge || s.pwr.st == .off || s.pwr.closing } })

/-- PWR_EN_FALL: trigger 3. -/
def execPwrEnFall (s : State) : Out :=
  .next (if !s.pwr.vsb ∨ !s.pwr.pwrEn then s else { s with pwr := { s.pwr with pwrEn := false } }.trigger 3)

/-- PWR_WARN_ASSERT: trigger 2. -/
def execPwrWarnAssert (s : State) : Out :=
  .next (if !s.pwr.vsb ∨ s.pwr.pwrWarn then s else { s with pwr := { s.pwr with pwrWarn := true } }.trigger 2)

/-- PWR_WARN_DEASSERT: during a shutdown it sets SUPPLY_RETURNED (20 R476). -/
def execPwrWarnDeassert (s : State) : Out :=
  .next (if !s.pwr.vsb ∨ !s.pwr.pwrWarn then s
    else { s with pwr := { s.pwr with pwrWarn := false, supplyReturned := s.pwr.supplyReturned || s.pwr.closing } })

/-- VIN_OUT_OF_RANGE: outside 48-60 V a record while ON; below 46 V or above 62 V trigger 6 (20 R464, R474, Table 20.11). -/
def execVinOutOfRange (v : W16) (s : State) : Out :=
  let n := v.toNat
  .next (if !s.pwr.vsb ∨ (4800 ≤ n ∧ n ≤ 6000) then s
    else
      let s := { s with pwr := { s.pwr with vin := v, vinOk := false } }
      let s := if s.pwr.st = .on then s.platform 1 2 n else s
      if n < 4600 ∨ 6200 < n then s.trigger 6 else s)

/-- VIN_IN_RANGE (20 R464, R476). -/
def execVinInRange (v : W16) (s : State) : Out :=
  .next (if !s.pwr.vsb ∨ v.toNat < 4800 ∨ 6000 < v.toNat then s
    else { s with pwr := { s.pwr with vin := v, supplyReturned := s.pwr.supplyReturned || (s.pwr.closing && !s.pwr.vinOk), vinOk := true } })

/-- MAIN_RAILS_DOWN: the end of the shutdown sequence, or rails lost without it, which REBUILT notes at the next start (20 R475, R480;
17 R414). -/
def execMainRailsDown (s : State) : Out :=
  .next (if !s.pwr.rails then s
    else
      let ended := s.pwr.st == .shuttingDown && !s.dlk.sw[0].drive && !s.dlk.sw[1].drive && (s.pwr.vinOk || 4000 ≤ s.pwr.vin.toNat)
      let c0 : BitVec 3 := if s.dlk.sw[0].drive then 7 else s.dlk.sw[0].cause
      let c1 : BitVec 3 := if s.dlk.sw[1].drive then 7 else s.dlk.sw[1].cause
      let s := { s with pwr := { s.pwr with rails := false, stage := 0, st := .offHold, upAt := none, cleanOff := ended, recovMode := false, clrst := 0 } }
      let s := s.snapLedger.clearPowered 0
      { s with
        clk := { s.clk with lock := 0 }
        dlk := { s.dlk with sw := (s.dlk.sw.set 0 (switchOf c0)).set 1 (switchOf c1) } })

/-- OFF_HOLD_EXPIRY. -/
def execOffHoldExpiry (s : State) : Out :=
  .next (if s.pwr.st = .offHold then { s with pwr := { s.pwr with st := .off } } else s)

/-! ## Standby rail (20 R464, R481) -/

/-- The always-on domain from nothing: the pins and the flash keep what they hold. -/
def State.standby (s : State) (vsb : Bool) : State :=
  let r := State.reset
  { r with
    pending := s.pending, free := s.free + 1, fuses := s.fuses, posted := s.posted, lanes := s.lanes, readData := s.readData, mbOut := s.mbOut, tdo := s.tdo
    dbg := { r.dbg with challenge := Config.challenge s.free, isOpen := !s.fuses.locked, scope := if s.fuses.locked then 0 else 3 }
    pwr := { r.pwr with vsb := vsb, flash := s.pwr.flash, perst0 := s.pwr.perst0, perst1 := s.pwr.perst1, vin := s.pwr.vin, vinOk := s.pwr.vinOk } }

/-- VSB_UP: the straps ADDR, AUTO_ON and TEST_MODE are sampled, and a PWR_EN that is high counts as a rising edge. -/
def execVsbUp (addr : BitVec 3) (autoOn testMode pwrEn pwrWarn : Bool) (s : State) : Out :=
  .next (if s.pwr.vsb then s
    else
      let s := s.standby true
      { s with
        mbs := { s.mbs with addr := addr }
        pwr := { s.pwr with autoOn := autoOn, testMode := testMode, pwrEn := pwrEn, pwrWarn := pwrWarn, edge := pwrEn } })

/-- VSB_LOSS: the always-on domain, with it the open drives and every rail it controls, is gone. -/
def execVsbLoss (s : State) : Out := .next (if s.pwr.vsb then s.standby false else s)

/-! ## Boot (20 R468-R471) -/

/-- Bytes of the flash; erased flash reads 0xFF (log 7). -/
def flashBytes (f : Cells) (a n : Nat) : List Byte := (List.range n).map fun i => sget 0xFF f (a + i)

/-- Section and entry tables of a firmware image obey R138. -/
def fwTablesOk (b : List Byte) : Bool :=
  let len := sliceLe b 8 4
  let so := (List.range (sliceLe b 6 2)).map fun i => sliceLe b 16 4 + 16 * i
  let eo := (List.range (sliceLe b 12 2)).map fun i => sliceLe b 20 4 + 32 * i
  so.all (fun o => let x := readSect b o
    sliceLe b (o + 1) 3 == 0 && 1 ≤ x.ty && x.ty ≤ 3 && x.off % 16 == 0 && x.size % 4 == 0 && x.off + x.size ≤ len)
    && eo.all (fun o => entryOk b o 32)

/-- The signature block of 20 Table 20.6, or of 22 R515 with another MAGIC, but for its signature. -/
def sigShapeOk (b : List Byte) (magic : Nat) : Bool :=
  sliceLe b 0 4 == magic && sliceLe b 4 1 ≤ 3 && sliceLe b 5 1 == 0 && sliceLe b 8 8 == 0

/-- The slot of a block is programmed, not revoked, and its hash is that of PUBKEY (20 R470). -/
def keyOk (f : Fuses) (b : List Byte) : Bool :=
  let k : Fin 4 := ⟨sliceLe b 4 1 % 4, Nat.mod_lt _ (by decide)⟩
  bit f.keyProg k.val && !bit f.keyRevoked k.val && Config.sha384 ((b.drop 16).take 96) == f.keyHash[k]

/-- The signature of a block over a message verifies (20 R470). -/
def sigOk (b msg : List Byte) : Bool :=
  Config.p384Point ((b.drop 16).take 96) && Config.ecdsaVerify (msg ++ b.take 112) ((b.drop 16).take 96) ((b.drop 112).take 96)

/-- What a boot image fails by: a code of 20 Table 20.8, 0 for none. -/
def bootCode (f : Fuses) (b : List Byte) : Nat :=
  let len := sliceLe b 8 4
  let so := sliceLe b 24 4
  let blk := (b.drop so).take 208
  if 4194304 < len ∨ !flxFieldsOk b b.length 1 ∨ !fwTablesOk b then 2
  else if !flxCrcOk b then 3
  else if so = 0 ∨ so + 208 ≠ len ∨ !sigShapeOk blk 0x31474953 then 4
  else if !keyOk f blk then 5
  else if sliceLe blk 6 2 < f.secVerMin.toNat then 6
  else if !sigOk blk (b.take so) then 7
  else 0

/-- The image of a slot, as long as its header says. -/
def State.slotBytes (s : State) (b : Bool) : List Byte :=
  let base := if b then 0x2000000 else 0
  flashBytes s.pwr.flash base (max 64 (min 4194304 (ofLe (flashBytes s.pwr.flash (base + 8) 4))))

/-- SEC_VER of an image that passed. -/
def secVerOf (b : List Byte) : W16 := BitVec.ofNat 16 (sliceLe b (sliceLe b 24 4 + 6) 2)

/-- Ports of the fitted I/O dies start their loopback training with stage 3 (16 R385). -/
def State.toStage3 (s : State) : State :=
  let s := { s with pwr := { s.pwr with stage := 3 } }
  s.each (List.finRange 4) fun s k => if s.portFitted k then s.modPort k fun p => { p with st := .loopback } else s

/-- Recovery mode: the endpoint comes up with STAGE 1 (20 R471). -/
def State.toRecovery (s : State) : State := { s with pwr := { s.pwr with stage := 1, recovMode := true } }

/-- A slot fails: it is recorded, and the next slot is tried, or recovery mode follows (20 R469, R471, R479). -/
def State.slotFails (s : State) (code : Nat) : State :=
  let b := s.pwr.bootSlot
  let s := { s with pwr := if b then { s.pwr with failB := BitVec.ofNat 4 code } else { s.pwr with failA := BitVec.ofNat 4 code } }
  let s := s.platform 1 3 (b.toNat + 256 * code)
  if b then s.toRecovery else { s with pwr := { s.pwr with bootSlot := true, stage := 1 } }

/-- A unit fails start-up (01 R28; 20 R479): STAGE 7, with a log entry that names the unit. What else that entry holds the spec does not
say: free (log 1). Main rails that miss regulation end in OFF_HOLD. -/
def State.unitFails (s : State) (unit : Byte) : State :=
  let e := setFld (setFld (BitVec.ofNat 256 (Config.freeNat s.free)) 56 8 unit.toNat) 248 8 0
  let s := { s with free := s.free + 1 }.logRec none true e
  if s.pwr.stage = 0 ∧ unit = 0x56 then
    { s with pwr := { s.pwr with stage := 7, failUnit := unit, st := .offHold, rails := false, upAt := none } }
  else { s with pwr := { s.pwr with stage := 7, failUnit := unit } }

/-- PLLs of the fitted dies: their lock bits. -/
def lockMask (f : Fuses) : BitVec 9 := if f.i2 then 0x1FF else 0x0BF

/-- Start-up waits for PERST0#: a warm rerun throughout, a power-on at stage 4 (20 R472, R477). -/
def Pwr.heldByPerst (p : Pwr) : Bool := p.perst0 && (p.warm || p.stage == 4)

/-- STARTUP_STAGE_DONE: the stage in progress has ended (20 R472, R473, R479). In test mode start-up stops with the PLLs locked (22
R511). -/
def execStartupStageDone (r : StageRes) (s : State) : Out :=
  let p := s.pwr
  .next (if !p.rails || p.recovMode || 5 ≤ p.stage.toNat || p.heldByPerst || !(p.st == .starting || (p.st == .on && p.warm)) then s
    else match r, p.stage.toNat with
      | .unitFail u, _ => s.unitFails u
      | .readError, 1 => s.slotFails 1
      | .readError, _ => s
      | .pass, 0 =>
        let s := { s with clk := { s.clk with lock := lockMask s.fuses } }
        if p.testMode then s else if p.recovStrap then s.toRecovery else { s with pwr := { s.pwr with stage := 1 } }
      | .pass, 1 => { s with pwr := { p with stage := 2, bootMode := 3 } }
      | .pass, 2 =>
        let b := s.slotBytes p.bootSlot
        let code := bootCode s.fuses b
        if code = 0 then { s with pwr := { p with secVer := secVerOf b } }.toStage3 else s.slotFails code
      | .pass, 3 => { s with pwr := { p with stage := 4 } }
      | .pass, _ => { s with pwr := { p with stage := 5, st := .on, warm := false } })

/-- START_CONDITION: POWER leaves OFF, the main rails come up, and RECOVERY is sampled (20 R464, R471). -/
def execStartCondition (recovery : Bool) (s : State) : Out :=
  let p := s.pwr
  .next (if p.vsb && p.st == .off && p.vinOk && !p.pwrWarn && p.pwrEn && ((p.autoOn && !p.stayOff) || p.edge) then
    { s with pwr := { p with st := .starting, stage := 0, rails := true, edge := false, recovStrap := recovery, upAt := some 0 } }.powerOn
  else s)

/-- GO: in recovery mode the image in the window is checked, and boots at stage 3 if it passes (20 R471). -/
def State.goCmd (s : State) : State :=
  if !s.pwr.recovMode then s
  else
    let b := rdBytes s.pwr.window 0 (min 4194304 s.pwr.recovLen.toNat)
    let code := bootCode s.fuses b
    let s := { s with pwr := { s.pwr with failR := BitVec.ofNat 4 code } }
    if code = 0 then { s with pwr := { s.pwr with recovMode := false, fromWindow := true, secVer := secVerOf b } }.toStage3
    else s.platform 1 3 (2 + 256 * code)

def execGo (fn : Fn) (s : State) : Out := .next (if s.pwrReach fn then s.goCmd else s)

/-! ## PERST0# (20 R466, R472, R477) -/

def execPerst0Assert (s : State) : Out :=
  let s := { s with pwr := { s.pwr with perst0 := true } }
  .next (match s.pwr.st with
    | .on => s.warmReset
    | .starting => s.modIo 0 fun d => { IoDie.reset with tlb := d.tlb }
    | _ => s)

def execPerst0Deassert (s : State) : Out :=
  let s := { s with pwr := { s.pwr with perst0 := false } }
  .next (if s.pwr.rails then s.modIo 0 fun d => { d with inReset := false } else s)

/-! ## Cluster resets (20 R467; 05 R144; 21 R496) -/

/-- The job that holds a cluster ends with an ENGINE_DATA exception of its conductor. -/
def State.clusterFails (s : State) (c : Fin 32) : State :=
  match s.cl[c].job.bind s.liveJob with
  | some j => s.except j.id j.ptn c.val c s.cl[c].pc 0 0 exData
  | none => s

/-- A hold in progress on a die ends as a skip. -/
def State.skipDie (s : State) (d : Nat) : State :=
  let n := (s.thm.holds.filter fun h => h.die.val == d).length
  { s with thm := { s.thm with holds := s.thm.holds.filter fun h => h.die.val != d, skip := satAdd s.thm.skip n } }

/-- A write of PWR_CLRST; clusters already resetting are not reset again. -/
def State.clrstCmd (s : State) (mask : W32) : State :=
  if s.pwr.st ≠ .on then s
  else
    s.each ((List.finRange 32).filter fun c => bit mask c.val && !bit s.pwr.clrst c.val) fun s c =>
      let s := (s.clusterFails c).skipDie (dieOfCluster c)
      { s with pwr := { s.pwr with clrst := setBit s.pwr.clrst c.val true } }

/-- PWR_CLRST. -/
def execPwrClrst (fn : Fn) (mask : W32) (s : State) : Out := .next (if s.pwrReach fn then s.clrstCmd mask else s)

/-- CLUSTER_RESET_DONE: the cluster is in the state of 05 R144; its units have no owner. -/
def execClusterResetDone (c : Fin 32) (s : State) : Out :=
  .next (if !bit s.pwr.clrst c.val then s
    else
      let u (k : RotKind) : Nat := s.physUnit k c.val
      { s.modC c fun k => { Cluster.reset with owner := k.owner, trace := k.trace, traceTotal := k.traceTotal, traceCyc := k.traceCyc } with
        pwr := { s.pwr with clrst := setBit s.pwr.clrst c.val false }
        owners := s.owners.filter fun (w : Owner) =>
          !((w.k == .mxa && w.unit == u .mxa) || (w.k == .mvp && w.unit == u .mvp) || (w.k == .ssu && w.unit == u .ssu)) })

/-! ## Flash (20 R478, Table 20.13) -/

/-- A write of PWR_FLASH_CMD. -/
def State.flashCmd (s : State) (op : Nat) : State :=
  let a := s.pwr.flashAddr.toNat
  { s with pwr :=
    if s.pwr.st ≠ .on ∨ op % 4 = 0 then s.pwr
    else if s.pwr.flashOp ≠ 0 then { s.pwr with flashDropped := true }
    else if a % (if op % 4 = 3 then 65536 else 256) ≠ 0 then { s.pwr with flashErr := true }
    else { s.pwr with flashOp := BitVec.ofNat 2 op, flashAt := s.pwr.flashAddr } }

def execFlashRead (fn : Fn) (s : State) : Out := .next (if s.pwrReach fn then s.flashCmd 1 else s)
def execFlashProgram (fn : Fn) (s : State) : Out := .next (if s.pwrReach fn then s.flashCmd 2 else s)
def execFlashErase (fn : Fn) (s : State) : Out := .next (if s.pwrReach fn then s.flashCmd 3 else s)

/-- Bytes stored into the flash. -/
def flashPut (f : Cells) (a : Nat) (bs : List Byte) : Cells := (bs.zipIdx).foldl (fun m x => sput 0xFF m (a + x.2) x.1) f

/-- FLASH_CMD_DONE. A programmed byte takes only zeros from the buffer (log 7). A command that fails leaves its target undefined: free
values. -/
def execFlashCmdDone (ok : Bool) (s : State) : Out :=
  let p := s.pwr
  let a := p.flashAt.toNat
  let junk (n : Nat) : List Byte := (List.range n).map s.freeByteAt
  let old := flashBytes p.flash a 256
  let q := { p with flashOp := 0, flashErr := p.flashErr || !ok }
  .next (match p.flashOp.toNat with
    | 0 => s
    | 1 =>
      { s with free := if ok then s.free else s.free + 256
               pwr := { q with flashBuf := BitVec.ofNat 2048 (ofLe (if ok then old else junk 256)) } }
    | 2 =>
      let new := (old.zip (leBytes 256 p.flashBuf.toNat)).map fun x => x.1 &&& x.2
      { s with free := if ok then s.free else s.free + 256, pwr := { q with flash := flashPut p.flash a (if ok then new else junk 256) } }
    | _ =>
      { s with free := if ok then s.free else s.free + 65536
               pwr := { q with flash := if ok then sclear p.flash a 65536 else flashPut p.flash a (junk 65536) } })

end Sys2Proof.Machine
end

