-- ==== Sys2Proof/Machine/Thermal.lean ====
section
/-! DEFINITION. Thermal logic and rotation (21): tray samples (R484-R487), die sensors (R488), the ladder (R489), trips (R490), and the
months (R491-R493). -/

namespace Sys2Proof.Machine

/-! ## Trips and temperatures -/

/-- A thermal trip: its record and shutdown trigger 4 (21 R490, Table 21.4 cause 8). -/
def State.trip (s : State) (kind die : Nat) : State := (s.platform 1 8 (kind + 256 * die)).trigger 4

/-! ## Tray samples (21 R484-R487) -/

/-- A sample's contents are implausible (21 R485). -/
def implausible (r : Vector W16 16) : Bool :=
  let inl := sx 16 r[2].toNat
  let out := sx 16 r[3].toNat
  let t (x : Int) : Bool := decide (x < -1280 ∨ 12800 < x)
  fld r[8] 0 3 != 7 || t inl || t out || decide (out < inl - 256) || decide (20000 < r[4].toNat)
    || decide (r[7].toNat < 3000 ∨ 4500 < r[7].toNat)

/-- Heat removed in W (21 R486). -/
def heatOf (r : Vector W16 16) : Int :=
  Int.tdiv (r[4].toNat * r[7].toNat * (sx 16 r[3].toNat - sx 16 r[2].toNat)) 7680000

/-- What of a sample lies outside the recommended limits: inlet, outlet, flow (21 R487). -/
def coolantOut (r : Vector W16 16) : Nat :=
  let inl := sx 16 r[2].toNat
  (decide (inl < 1920 ∨ 5760 < inl)).toNat + 2 * (decide (7680 < sx 16 r[3].toNat)).toNat + 4 * (decide (r[4].toNat < 1500)).toNat

/-- The tray state changes: MISSING and IMPLAUSIBLE are recorded once until VALID is back, and VALID again is a note (21 R484, R498). -/
def State.setTray (s : State) (t : TraySt) : State :=
  if s.thm.tray = t then s
  else
    let old := s.thm.tray
    let rec_ := s.thm.trayFaultRec
    let s := { s with thm := { s.thm with tray := t, trayFaultRec := t != TraySt.valid && (rec_ || t == TraySt.missing || t == TraySt.implausible) } }
    match t with
    | .valid => if old = .unknown then s else s.platform 0 7 0
    | .missing => if rec_ then s else s.platform 1 6 2
    | .implausible => if rec_ then s else s.platform 1 6 3
    | .unknown => s

/-- Q in a field of 16 bits. What the field holds for a Q outside its range the spec does not say: free (log 86). -/
def State.heatField (s : State) (q : Int) : Nat := if 0 ≤ q ∧ q ≤ 65535 then q.toNat else Config.freeNat s.free % 65536

/-- Heat balance of a valid sample, where the input power of the same 100 ms is at least 100 W; 5 s is 50 samples (21 R486). -/
def State.heatBalance (s : State) (r : Vector W16 16) : State :=
  let pin : Int := s.pwr.pin.toNat
  if pin < 100 then s
  else
    let q := heatOf r
    let w := s.heatField q
    let s := { s with free := s.free + 1, thm := { s.thm with q := BitVec.ofNat 16 w, pinW := s.pwr.pin } }
    let dis : Bool := decide ((gfOr s 135 0 8 25 : Int) * pin < 100 * (q - pin).natAbs)
    let d := if dis then s.thm.disRun + 1 else 0
    let a := if dis then 0 else s.thm.agreeRun + 1
    let was := s.thm.hbWarn
    let s := { s with thm := { s.thm with disRun := d, agreeRun := a, hbWarn := if 50 ≤ d then true else if 50 ≤ a then false else was } }
    if 50 ≤ d ∧ !was then s.platform 1 5 (w + s.pwr.pin.toNat * 65536) else s

/-- A valid sample outside the recommended coolant limits (21 R487, R498). -/
def State.coolant (s : State) (r : Vector W16 16) : State :=
  let m := coolantOut r
  let was := s.thm.coolWarn
  let s := { s with thm := { s.thm with coolWarn := m != 0 } }
  if m ≠ 0 ∧ !was then s.platform 1 4 m else s

/-- Leak, or an outlet of 70 °C for 1 s, which is 10 samples (21 R490). -/
def State.trayTrip (s : State) (r : Vector W16 16) : State :=
  let hot := if 8960 ≤ sx 16 r[3].toNat then s.thm.hotRun + 1 else 0
  let s := { s with thm := { s.thm with hotRun := hot } }
  if bit r[8] 4 then s.trip 1 0 else if hot = 10 then s.trip 2 0 else s

/-- The thermal logic takes a sample with its result: `some` registers of a result OK, `none` of any other (21 R484). -/
def State.traySample (s : State) (r : Option (Vector W16 16)) : State :=
  if !s.up then s
  else
    match r with
    | none =>
      let s := { s with thm := { s.thm with okRun := 0 } }
      (if 3 ≤ s.tbs.failRun.toNat then s.setTray .missing else s).retarget
    | some r =>
      let bad := implausible r
      let s := { s with thm := { s.thm with okRun := if bad then 0 else s.thm.okRun + 1 } }
      let s := (s.heatBalance r).coolant r
      let s := if bad || 600 ≤ s.thm.disRun then s.setTray .implausible
        else if 50 ≤ s.thm.okRun && s.thm.disRun < 50 then s.setTray .valid else s
      (s.retarget).trayTrip r

/-! ## Die sensors and the ladder (21 R488-R490) -/

/-- A reading out of −40 to 150 °C. -/
def badReading (w : W16) : Bool := decide (sx 16 w.toNat < -5120 ∨ 19200 < sx 16 w.toNat)

/-- The ladder level is set. -/
def State.setLevel (s : State) (n : Nat) : State :=
  { s with thm := { s.thm with
      level := BitVec.ofNat 3 n
      throttleCnt := if s.thm.level.toNat < n then satAdd s.thm.throttleCnt 1 else s.thm.throttleCnt } }.retarget

/-- DIE_SENSOR_READ. A read of 115 °C stands for 115 °C held for 1 ms (DEDUCED, log 77). -/
def execDieSensorRead (die : Fin 4) (t : Vector W16 64) (s : State) : Out :=
  .next (if !s.pwr.rails then s
    else
      let old := s.thm.die[die]
      let new := (List.finRange 64).filter fun i => badReading t[i] && !bit old.failed i.val
      let failed := new.foldl (fun (m : BitVec 64) i => setBit m i.val true) old.failed
      let live := (List.finRange 64).filter fun i => !bit failed i.val
      let best := firstBy (fun (i j : Fin 64) => decide (sx 16 t[j].toNat < sx 16 t[i].toNat)) live
      let d : DieT := match best with
        | some i => { temp := t[i], sensor := BitVec.ofNat 6 i.val, failed := failed }
        | none => { temp := 0, sensor := 0, failed := failed }
      let s := { s with thm := { s.thm with die := s.thm.die.set die d } }
      let s := s.each new fun s i => s.platform 1 9 (die.val + 256 * i.val)
      let s : State := { s with thm := { s.thm with dieHot := decide (128 * s.dieTarget < s.hottest) } }.noteHeat
      let s := if 128 * (s.dieTarget + 10) ≤ s.hottest ∧ s.thm.level.toNat < 5 then s.setLevel 5 else s
      if best.isSome ∧ 14720 ≤ sx 16 d.temp.toNat then s.trip 0 die.val else s)

/-- LADDER_RISE: above DIE_TARGET the level rises by 1 every 10 ms, up to 5. -/
def execLadderRise (s : State) : Out :=
  .next (if s.pwr.rails ∧ 128 * s.dieTarget < s.hottest ∧ s.thm.level.toNat < 5 ∧ s.clk.past s.thm.roseAt 10000000 then
    { s with thm := { s.thm with roseAt := some s.clk.ns } }.setLevel (s.thm.level.toNat + 1)
  else s)

/-- LADDER_FALL: after 100 ms below DIE_TARGET − 5 °C the level falls by 1, and the 100 ms restarts. -/
def execLadderFall (s : State) : Out :=
  .next (if s.pwr.rails ∧ s.hottest < 128 * (s.dieTarget - 5) ∧ s.thm.level.toNat ≠ 0 ∧ s.clk.past s.thm.coolAt 100000000 then
    { s with thm := { s.thm with coolAt := some s.clk.ns } }.setLevel (s.thm.level.toNat - 1)
  else s)

/-! ## Rotation (21 R491-R493) -/

def rotKinds : List RotKind := [.mxa, .mvp, .ssu, .lse, .gse]

/-- MONTH_US and ROT_HOLD with their defaults. -/
def State.monthUs (s : State) : Nat := gfOr s 128 0 16 4000
def State.rotHold (s : State) : Nat := gfOr s 131 0 8 20

def State.strideNow (s : State) : Nat := 2 * s.thm.strideIx.toNat + 1

/-- The month counter advances with the last die's boundary; twelve months are a season (21 R493). -/
def Thm.nextMonth (t : Thm) : Thm :=
  if t.month.toNat < 11 then { t with month := t.month + 1 } else { t with month := 0, seasons := t.seasons + 1, strideIx := t.strideIx + 1 }

/-- MONTH_BOUNDARY: global time has reached T0 + k × MONTH_US + d × MONTH_US ÷ 4; new starts of every rotating kind are held. -/
def execMonthBoundary (die : Fin 4) (s : State) : Out :=
  let k := s.thm.rotK[die] + 1
  let at_ := s.thm.rotT0.toNat + k * s.monthUs * 1000 + die.val * s.monthUs * 250
  .next (if !s.running ∨ !s.thm.rotOn ∨ s.clk.gt.toNat < at_ then s
    else
      let hold (r : RotKind) : Hold := { die := die, k := r, since := s.clk.gt, limit := s.rotHold, stride := s.strideNow }
      let t := { s.thm with
        rotK := s.thm.rotK.set die k
        holds := s.thm.holds.filter (fun (h : Hold) => h.die != die) ++ rotKinds.map hold }
      { s with thm := if die.val = 3 then t.nextMonth else t })

/-- The queue kind of a rotating kind. -/
def rotQ : RotKind → QKind
  | .mxa => .mxa | .mvp => .mvp | .ssu => .ssu | .lse => .lse | .gse => .gse

/-- Every unit of a kind on a die is between operations: none has started one that is incomplete, on the unit or suspended (12 R305). -/
def State.kindIdle (s : State) (die : Nat) (k : RotKind) : Bool :=
  !s.ops.any fun o => o.k == rotQ k && (match o.home with | some u => u / rotN k == die | none => false)

/-- OFFSET moves on by a stride. -/
def RotOff.add (o : RotOff) (k : RotKind) (n : Nat) : RotOff :=
  match k with
  | .mxa => { o with mxa := o.mxa + BitVec.ofNat 3 n } | .mvp => { o with mvp := o.mvp + BitVec.ofNat 3 n }
  | .ssu => { o with ssu := o.ssu + BitVec.ofNat 3 n } | .lse => { o with lse := o.lse + BitVec.ofNat 2 n }
  | .gse => { o with gse := o.gse + BitVec.ofNat 1 n }

def State.endHold (s : State) (die : Fin 4) (k : RotKind) : State :=
  { s with thm := { s.thm with holds := s.thm.holds.filter fun (h : Hold) => !(h.die == die && h.k == k) } }

/-- ROTATION_STEP: a held kind that is quiet rotates; its units then have no owner. -/
def execRotationStep (die : Fin 4) (k : RotKind) (s : State) : Out :=
  .next (match s.thm.holds.find? fun h => h.die == die && h.k == k with
    | none => s
    | some h =>
      if !s.kindIdle die.val k then s
      else
        let s := s.endHold die k
        { s with
          thm := { s.thm with off := s.thm.off.set die (s.thm.off[die].add k h.stride) }
          owners := s.owners.filter fun (w : Owner) => !(w.k == rotQ k && w.unit / rotN k == die.val) })

/-- ROT_HOLD_EXPIRY: a kind not quiet within ROT_HOLD skips the month. -/
def execRotHoldExpiry (die : Fin 4) (k : RotKind) (s : State) : Out :=
  .next (match s.thm.holds.find? fun h => h.die == die && h.k == k with
    | none => s
    | some h =>
      if s.clk.gt.toNat < h.since.toNat + h.limit * 1000 then s
      else
        let s := s.endHold die k
        { s with thm := { s.thm with skip := satAdd s.thm.skip 1 } })

end Sys2Proof.Machine
end

