-- ==== Sys2Proof/Machine/Buses.lean ====
section
/-! DEFINITION. The management bus target (19 R440-R446, R452) and the tray bus controller (R447-R453, R458). A response, with its
block count and its PEC byte where the controller takes one, is left in `mbOut` (log 3). -/

namespace Sys2Proof.Machine

/-- A record of 19 Table 19.9. -/
def State.busNote (s : State) (sev cause detail : Nat) : State :=
  s.report { recOf sev 0x0C cause unitBus with detail := detail } none 0

/-! ## The target -/

/-- The address byte of the target, for a write or a read (19 R440). -/
def State.mbAddr (s : State) (rd : Bool) : Byte := BitVec.ofNat 8 ((0x58 + s.mbs.addr.toNat) * 2 + rd.toNat)

/-- A transaction addressed to the target. -/
def Mbs.txn (m : Mbs) : Mbs := { m with txnCnt := satAdd m.txnCnt 1 }

/-- A read command: its response, and a PEC byte over the whole transaction where the controller acknowledges the last data byte (19
R444). -/
def State.mbRead (s : State) (cmd : Byte) (resp : List Byte) (pec : Bool) : State :=
  if !s.pwr.vsb then s
  else
    { s with mbs := s.mbs.txn, mbOut := resp ++ if pec then [crc8 ([s.mbAddr false, cmd, s.mbAddr true] ++ resp)] else [] }

/-- A Block Read of `n` bytes of a number. -/
def block (n v : Nat) : List Byte := BitVec.ofNat 8 n :: leBytes n v

/-- The device ID of the active ring role. -/
def State.mbIdentity (s : State) : Nat :=
  fields [(0, 0x1FD4), (16, 0x0416), (32, 0xB0), (40, s.fuses.stackCode.toNat), (42, s.fuses.i2.toNat), (48, s.mbs.addr.toNat),
    (64, s.fuses.serial.toNat)]

/-- IDENTITY. -/
def execIdentity (pec : Bool) (s : State) : Out := .next (s.mbRead 0x00 (block 16 s.mbIdentity) pec)

/-- HEALTH: bits of byte 2 that belong to the powered domain come from the mirror. -/
def State.mbHealth (s : State) : Nat :=
  let ms := match s.pwr.upAt with | some t => (s.clk.ns - t.toNat) / 1000000 | none => 0
  fields [(0, s.pwr.stage.toNat), (8, s.pwr.failUnit.toNat),
    (16, s.mbs.mirror.flags.toNat % 32 + s.tbs.valid.toNat * 32 + bits s.mbs.mirror.flags.toNat 6 1 * 64 + s.pwr.rails.toNat * 128),
    (32, s.err.logTotal.toNat), (64, ms % 2 ^ 32)]

def execHealth (pec : Bool) (s : State) : Out := .next (s.mbRead 0x01 (block 16 s.mbHealth) pec)

/-- TEMPS. -/
def State.mbTemps (s : State) : Nat :=
  fields [(0, s.tbs.sample[2].toNat), (16, s.tbs.sample[3].toNat), (32, s.tbs.sample[4].toNat), (48, s.mbs.mirror.temps.toNat),
    (112, s.tbs.valid.toNat), (113, s.pwr.rails.toNat)]

def execTemps (pec : Bool) (s : State) : Out := .next (s.mbRead 0x02 (block 16 s.mbTemps) pec)

/-- POWER. -/
def State.mbPower (s : State) : Nat :=
  fields [(0, pwrCode s.pwr.st), (8, s.pwr.autoOn.toNat), (9, s.pwr.pwrEn.toNat), (10, s.pwr.pwrWarn.toNat), (16, s.pwr.pin.toNat),
    (32, s.mbs.mirror.cclk.toNat)]

def execPower (pec : Bool) (s : State) : Out := .next (s.mbRead 0x03 (block 8 s.mbPower) pec)

/-- BYPASS. -/
def execBypassStatus (pec : Bool) (s : State) : Out := .next (s.mbRead 0x04 (leBytes 2 s.bypStatus) pec)

/-- RING. -/
def execRing (pec : Bool) (s : State) : Out :=
  .next (s.mbRead 0x05 (block 8 (s.mbs.mirror.ring.toNat + s.pwr.rails.toNat * 2 ^ 56)) pec)

/-- LOG_HEAD. -/
def execLogHead (pec : Bool) (s : State) : Out :=
  .next (s.mbRead 0x06 (leBytes 2 (s.err.logNext.toNat + s.err.logTotal.toNat % 1024 * 64)) pec)

/-- The target does not acknowledge: BAD_CMD (19 R445). -/
def State.mbBad (s : State) : State := { s with mbs := { s.mbs.txn with badCmd := true, errCnt := satAdd s.mbs.errCnt 1 } }

/-- A write, its data, and the PEC it ends with, if any: a wrong one discards the command (19 R444). -/
def State.mbWrite (s : State) (cmd : Byte) (data : List Byte) (pec : Option Byte) (f : Mbs → Mbs) : State :=
  match pec with
  | some p =>
    if p = crc8 ([s.mbAddr false, cmd] ++ data) then { s with mbs := f s.mbs.txn }
    else { s with mbs := { s.mbs.txn with pecErr := true, errCnt := satAdd s.mbs.errCnt 1 } }
  | none => { s with mbs := f s.mbs.txn }

/-- LOG_SELECT. -/
def execLogSelect (val : Byte) (pec : Option Byte) (s : State) : Out :=
  .next (if !s.pwr.vsb then s
    else if 64 ≤ val.toNat then s.mbBad
    else s.mbWrite 0x07 [val] pec fun m => { m with logSel := BitVec.ofNat 6 val.toNat })

/-- A read of LOG_SELECT. -/
def execLogSelectRead (pec : Bool) (s : State) : Out := .next (s.mbRead 0x07 (leBytes 1 s.mbs.logSel.toNat) pec)

/-- LOG_READ: the selection then moves back by one. -/
def execLogRead (pec : Bool) (s : State) : Out :=
  let e := s.err.log[s.mbs.logSel.toNat]'s.mbs.logSel.isLt
  let t := s.mbRead 0x08 (block 32 e.toNat) pec
  .next (if s.pwr.vsb then { t with mbs := { t.mbs with logSel := t.mbs.logSel - 1 } } else t)

/-- BUS_STATUS. -/
def State.mbBusStatus (s : State) : Nat :=
  fields [(0, s.mbs.fScl.toNat), (1, s.mbs.fSda.toNat), (2, s.tbs.fScl.toNat), (3, s.tbs.fSda.toNat), (4, s.tbs.fRec.toNat)]

def execBusStatus (pec : Bool) (s : State) : Out := .next (s.mbRead 0x09 (leBytes 1 s.mbBusStatus) pec)

/-- SCRATCH written. -/
def execScratchWrite (bs : List Byte) (pec : Option Byte) (s : State) : Out :=
  .next (if !s.pwr.vsb then s
    else if bs = [] ∨ 16 < bs.length then s.mbBad
    else s.mbWrite 0x0F (BitVec.ofNat 8 bs.length :: bs) pec fun m => { m with scratch := bs })

/-- SCRATCH read. -/
def execScratchRead (pec : Bool) (s : State) : Out :=
  .next (s.mbRead 0x0F (BitVec.ofNat 8 s.mbs.scratch.length :: s.mbs.scratch) pec)

/-- Command codes of 19 Table 19.3. -/
def mbCode (c : Byte) : Bool := c.toNat ≤ 9 || c == 0x0F

/-- MB_BAD_COMMAND: an undefined command byte, or a write to a read-only command; LOG_SELECT and SCRATCH take writes. -/
def execMbBadCommand (code : Byte) (s : State) : Out :=
  .next (if !s.pwr.vsb || code == 0x07 || code == 0x0F then s else s.mbBad)

/-- MB_SCL_TIMEOUT. -/
def execMbSclTimeout (cmd : Byte) (s : State) : Out :=
  .next (if !s.pwr.vsb then s
    else { s with mbs := { s.mbs.txn with fScl := true, errCnt := satAdd s.mbs.errCnt 1 } }.busNote 0 1 cmd.toNat)

/-- MB_SDA_TIMEOUT. -/
def execMbSdaTimeout (s : State) : Out :=
  .next (if !s.pwr.vsb then s
    else { s with mbs := { s.mbs with fSda := true, errCnt := satAdd s.mbs.errCnt 1 } }.busNote 0 2 0)

/-- MIRROR_UPDATE: while the main rails are up, the powered domain's values are copied (19 R442). -/
def State.mirrorNow (s : State) : Mirror :=
  { flags := BitVec.ofNat 7 (fields [(0, s.err.fatal.toNat), (1, s.ldg.frozen.toNat), (2, s.ldg.rebuilt.toNat), (3, s.io[0].link.toNat),
      (4, s.clk.throttled.toNat), (6, s.anyFenced.toNat)])
    ring := BitVec.ofNat 56 (fields [(0, s.devId), (24, s.ringStatus % 256), (32, bits s.ringStatus 8 8), (40, s.portStates % 64),
      (48, bits s.portStates 6 6)])
    temps := BitVec.ofNat 64 (fields [(0, s.thm.die[0].temp.toNat), (16, s.thm.die[1].temp.toNat), (32, s.thm.die[2].temp.toNat),
      (48, s.thm.die[3].temp.toNat)])
    cclk := s.clk.cur }

def execMirrorUpdate (s : State) : Out :=
  .next (if s.pwr.rails then { s with mbs := { s.mbs with mirror := s.mirrorNow } } else s)

/-! ## The tray bus -/

/-- A sample has ended with a result of 19 Table 19.7 (R449, R458). -/
def State.tbResult (s : State) (code : Nat) : State :=
  let t := s.tbs
  let new := code ≠ 0 ∧ t.lastRec.toNat ≠ code
  let s := { s with tbs := { t with
    result := BitVec.ofNat 3 code, valid := code == 0, busy := false, lastRec := BitVec.ofNat 3 code
    failRun := if code = 0 then 0 else satAdd t.failRun 1
    failCnt := if code = 0 then t.failCnt else satAdd t.failCnt 1 } }
  if new then s.busNote 0 3 code else s

/-- A sample that fails without its registers ends in a result, and thermal logic gets none (19 R449). -/
def State.tbFail (s : State) (code : Nat) : State := ({ s with tbs := { s.tbs with stale := 0 } }.tbResult code).traySample none

/-- TB_SAMPLE_SLOT: a sample starts; with SCL low it fails at once, and with SDA low it waits, without a transaction, the SDA-stuck timeout
(19 R447, R453). -/
def execTbSampleSlot (scl sda : Bool) (s : State) : Out :=
  .next (if !s.pwr.vsb || !s.tbs.en || (s.tbs.busy && !s.tbs.sdaWait) then s
    else if !scl then s.tbFail 4
    else if !sda then { s with tbs := { s.tbs with busy := true, sdaWait := true } }
    else { s with tbs := { s.tbs with busy := true, sdaWait := false, usePec := s.tbs.pecEn } })

/-- SEQ equals that of the last valid sample; none has been taken while MAP_ID reads zero. -/
def Tbs.sameSeq (t : Tbs) (r : Vector W16 16) : Bool := (t.sample[0] : W16) != 0 && r[9] == (t.sample[9] : W16)

/-- The result of a sample whose registers were read, in the table's order. -/
def Tbs.check (t : Tbs) (r : Vector W16 16) (pecOk : Bool) : Nat :=
  if r[0] ≠ 0x5453 ∨ r[1] ≠ 1 ∨ fld r[8] 5 11 ≠ 0 ∨ r[11] ≠ 0 ∨ r[12] ≠ 0 ∨ r[13] ≠ 0 ∨ r[14] ≠ 0 then 5
  else if (r.toList.map (·.toNat)).sum % 65536 ≠ 0 ∨ (t.usePec ∧ !pecOk) then 6
  else if t.sameSeq r ∧ 4 ≤ t.stale then 7
  else 0

/-- TB_SAMPLE_DONE, with the input power of its 100 ms. -/
def execTbSampleDone (r : TbRaw) (pin : W16) (s : State) : Out :=
  .next (if !s.pwr.vsb || !s.tbs.busy || s.tbs.sdaWait then s
    else
      let s := { s with pwr := { s.pwr with pin := pin } }
      match r with
      | .nackAddr => s.tbFail 1
      | .nackData => s.tbFail 2
      | .conflict => { s with tbs := { s.tbs with sdaWait := true } }.tbFail 3
      | .sclTimeout => s.tbFail 4
      | .regs v ok =>
        let code := s.tbs.check v ok
        let t := { s.tbs with stale := if s.tbs.sameSeq v then s.tbs.stale + 1 else 0 }
        if code = 0 then
          ({ s with tbs := { t with sample := v, sampleTime := s.clk.gt } }.tbResult 0).traySample (some v)
        else ({ s with tbs := t }.tbResult code).traySample none)

/-- Recovery: the pulses that freed SDA, or none of nine (19 R453). -/
def State.tbRecover (s : State) (scl : Bool) (freedAt : Option (Fin 9)) : State :=
  if !scl then { s with tbs := { s.tbs with result := 4 } }.busNote 1 5 0
  else match freedAt with
    | some n => { s with tbs := { s.tbs with recCnt := satAdd s.tbs.recCnt 1 } }.busNote 0 4 (n.val + 1)
    | none => { s with tbs := { s.tbs with fRec := true } }.busNote 1 5 1

/-- A timeout aborts a sample under way with its result. -/
def State.tbAbort (s : State) (code : Nat) : State := if s.tbs.busy then s.tbFail code else s

/-- TB_SCL_TIMEOUT: a sample under way is aborted with SCL_TIMEOUT, and the bus recovered. -/
def execTbSclTimeout (scl : Bool) (freedAt : Option (Fin 9)) (s : State) : Out :=
  .next (if !s.pwr.vsb then s
    else ({ s with tbs := { s.tbs with fScl := true, sclAt := some s.clk.ns } }.tbAbort 4).tbRecover scl freedAt)

/-- TB_SDA_TIMEOUT: a slot that waits for SDA fails with CONFLICT (DEDUCED, log 85), and the bus is recovered; where the SCL-low timeout has
expired at the same instant that case has acted (19 R457). -/
def execTbSdaTimeout (scl : Bool) (freedAt : Option (Fin 9)) (s : State) : Out :=
  .next (if !s.pwr.vsb || !s.tbs.sdaWait then s
    else
      let t := { s with tbs := { s.tbs with fSda := true, sdaWait := false } }
      if s.tbs.sclAt = some s.clk.ns then t else (t.tbAbort 3).tbRecover scl freedAt)

end Sys2Proof.Machine
end

