-- ==== Sys2Proof/Machine/Vector.lean ====
section
/-! DEFINITION. The vector unit (05 R116, Table 5.6; 06 R157, R158; 10 R255). -/

namespace Sys2Proof.Machine

/-! ## Lanes -/

/-- Bits of a lane: 8 for W = 0, 32 for W = 1. -/
def laneW (w : Bool) : Nat := if w then 32 else 8

def laneN (w : Bool) : Nat := 2048 / laneW w

/-- Lane `i`, unsigned. -/
def laneU (w : Bool) (v : BitVec 2048) (i : Nat) : Nat := fld v (laneW w * i) (laneW w)

/-- Lane `i`, two's complement. -/
def laneS (w : Bool) (v : BitVec 2048) (i : Nat) : Int := sx (laneW w) (laneU w v i)

/-- A register from its lanes. -/
def ofLanes (w : Bool) (f : Nat → Nat) : BitVec 2048 :=
  BitVec.ofNat 2048 ((List.range (laneN w)).foldl (fun acc i => acc + f i % 2 ^ laneW w * 2 ^ (laneW w * i)) 0)

/-! ## Shared operations -/

/-- vd = va op vb, lane by lane, wrapped to the lane. -/
def vecOp (i : Instr) (c : Fin 32) (o : V3) (s : State) (f : Int → Int → Int) : Out :=
  issue i c o.p 4 s fun s _ => onC s c fun k =>
    k.wv o.rd (ofLanes o.w fun n => wrap (laneW o.w) (f (laneS o.w k.v[o.ra] n) (laneS o.w k.v[o.rb] n)))

/-- vd = va op vb, bitwise. W changes nothing (log 12). -/
def vbitOp (i : Instr) (c : Fin 32) (o : V3) (s : State) (f : BitVec 2048 → BitVec 2048 → BitVec 2048) : Out :=
  issue i c o.p 4 s fun s _ => onC s c fun k => k.wv o.rd (f k.v[o.ra] k.v[o.rb])

/-- s[RD] = a fold over the lanes of va; RB must be zero. -/
def vredOp (i : Instr) (c : Fin 32) (o : V3) (s : State) (f : Int → Int → Int) : Out :=
  issue i c o.p 4 s fun s _ =>
    if o.rb ≠ 0 then .exc exIllegal
    else onC s c fun k =>
      k.ws o.rd (BitVec.ofInt 64 ((List.range (laneN o.w - 1)).foldl (fun acc n => f acc (laneS o.w k.v[o.ra] (n + 1))) (laneS o.w k.v[o.ra] 0)))

/-- A helper over 32-bit lanes; W must be 1 and RB zero. -/
def vlqOp (i : Instr) (c : Fin 32) (o : V3) (s : State) (f : Nat → Nat) : Out :=
  issue i c o.p 4 s fun s _ =>
    if o.rb ≠ 0 ∨ o.w = false then .exc exIllegal
    else onC s c fun k => k.wv o.rd (ofLanes true fun n => f (laneU true k.v[o.ra] n))

/-- The low 3 or 5 bits of a count lane. -/
def vCount (w : Bool) (x : Int) : Nat := (x % (laneW w : Int)).toNat

/-! ## Class 0x8 -/

/-- VADD: wrapping sum. -/
def execVadd (c : Fin 32) (o : V3) (s : State) : Out := vecOp (.vadd c o) c o s fun a b => a + b

/-- VADDS: sum saturated to the lane range. -/
def execVadds (c : Fin 32) (o : V3) (s : State) : Out := vecOp (.vadds c o) c o s fun a b => sat (laneW o.w) (a + b)

/-- VSUB: wrapping difference. -/
def execVsub (c : Fin 32) (o : V3) (s : State) : Out := vecOp (.vsub c o) c o s fun a b => a - b

/-- VMUL: the low half of the product. -/
def execVmul (c : Fin 32) (o : V3) (s : State) : Out := vecOp (.vmul c o) c o s fun a b => a * b

/-- VMAX, signed. -/
def execVmax (c : Fin 32) (o : V3) (s : State) : Out := vecOp (.vmax c o) c o s fun a b => max a b

/-- VMIN, signed. -/
def execVmin (c : Fin 32) (o : V3) (s : State) : Out := vecOp (.vmin c o) c o s fun a b => min a b

/-- VAND. -/
def execVand (c : Fin 32) (o : V3) (s : State) : Out := vbitOp (.vand c o) c o s fun a b => a &&& b

/-- VOR. -/
def execVor (c : Fin 32) (o : V3) (s : State) : Out := vbitOp (.vor c o) c o s fun a b => a ||| b

/-- VXOR. -/
def execVxor (c : Fin 32) (o : V3) (s : State) : Out := vbitOp (.vxor c o) c o s fun a b => a ^^^ b

/-- VSHL: va shifted left by the lane of vb. -/
def execVshl (c : Fin 32) (o : V3) (s : State) : Out := vecOp (.vshl c o) c o s fun a b => a * 2 ^ vCount o.w b

/-- VSHR: va shifted right, arithmetic. -/
def execVshr (c : Fin 32) (o : V3) (s : State) : Out := vecOp (.vshr c o) c o s fun a b => a / 2 ^ vCount o.w b

/-- VSPLAT: every lane = the low lane bits of s[RB]; RA must be zero. -/
def execVsplat (c : Fin 32) (o : V3) (s : State) : Out :=
  issue (.vsplat c o) c o.p 4 s fun s _ =>
    if o.ra ≠ 0 then .exc exIllegal else onC s c fun k => k.wv o.rd (ofLanes o.w fun _ => (k.rs o.rb).toNat)

/-- VEXT: s[RD] = lane s[RB] of va, sign-extended. The spec states no result for a lane number past the last lane: a free value (log
13). -/
def execVext (c : Fin 32) (o : V3) (s : State) : Out :=
  issue (.vext c o) c o.p 4 s fun s _ =>
    if (s.cl[c].rs o.rb).toNat < laneN o.w then
      onC s c fun k => k.ws o.rd (BitVec.ofInt 64 (laneS o.w k.v[o.ra] (k.rs o.rb).toNat))
    else onC { s with free := s.free + 1 } c fun k => k.ws o.rd (BitVec.ofNat 64 (Config.freeNat s.free))

/-- VREDADD: the signed sum of the lanes. -/
def execVredadd (c : Fin 32) (o : V3) (s : State) : Out := vredOp (.vredadd c o) c o s fun a b => a + b

/-- VREDMAX: the signed maximum of the lanes. -/
def execVredmax (c : Fin 32) (o : V3) (s : State) : Out := vredOp (.vredmax c o) c o s fun a b => max a b

/-- VCMPGT: all ones where va > vb. -/
def execVcmpgt (c : Fin 32) (o : V3) (s : State) : Out := vecOp (.vcmpgt c o) c o s fun a b => if b < a then -1 else 0

/-- VSEL: vd = (va AND vd) OR (vb AND NOT vd). -/
def execVsel (c : Fin 32) (o : V3) (s : State) : Out :=
  issue (.vsel c o) c o.p 4 s fun s _ => onC s c fun k =>
    k.wv o.rd ((k.v[o.ra] &&& k.v[o.rd]) ||| (k.v[o.rb] &&& ~~~k.v[o.rd]))

/-- VEXP2: round(2^(−Q ÷ 256) × 2^24) of bits [11:0]. -/
def execVexp2 (c : Fin 32) (o : V3) (s : State) : Out := vlqOp (.vexp2 c o) c o s fun u => exp2Q (u % 4096)

/-- VLOG2: Q of an unsigned lane. -/
def execVlog2 (c : Fin 32) (o : V3) (s : State) : Out := vlqOp (.vlog2 c o) c o s fun u => log2Q u

/-- The 512 keys of va to va + 7, sorted largest first, as indices (10 R255). -/
def bsort (k : Cluster) (ra : Fin 32) : List Nat :=
  let key (n : Nat) : Int := laneS true (k.v.toList.getD (ra.val + n / 64) 0) (n % 64)
  sortBy (fun i j => key j < key i) (List.range 512)

/-- VBSORT: the indices go to vd to vd + 7. W must be 1, RB zero, RD and RA multiples of 8, and the ranges disjoint. -/
def execVbsort (c : Fin 32) (o : V3) (s : State) : Out :=
  issue (.vbsort c o) c o.p 4 s fun s _ =>
    if o.rb ≠ 0 ∨ o.w = false ∨ o.rd.val % 8 ≠ 0 ∨ o.ra.val % 8 ≠ 0 ∨ o.rd = o.ra then .exc exIllegal
    else onC s c fun k =>
      let l := bsort k o.ra
      (List.range 8).foldl (fun k r => { k with v := k.v.setIfInBounds (o.rd.val + r) (ofLanes true fun n => l.getD (64 * r + n) 0) }) k

/-- VMOV: vd = va; RB must be zero. -/
def execVmov (c : Fin 32) (o : V3) (s : State) : Out :=
  issue (.vmov c o) c o.p 4 s fun s _ => if o.rb ≠ 0 then .exc exIllegal else onC s c fun k => k.wv o.rd k.v[o.ra]

end Sys2Proof.Machine
end

