-- ==== Sys2Proof/Machine/Insn.lean ====
section
/-! DEFINITION. The meaning of one conductor instruction read from an instruction store, for the debug single step (22 R512). -/

namespace Sys2Proof.Machine

/-- Run a conductor instruction; any other command does nothing here. -/
def runInsn (i : Instr) (s : State) : Out :=
  match i with
  | .add c o => execAdd c o s
  | .sub c o => execSub c o s
  | .and c o => execAnd c o s
  | .or c o => execOr c o s
  | .xor c o => execXor c o s
  | .sll c o => execSll c o s
  | .srl c o => execSrl c o s
  | .sra c o => execSra c o s
  | .mul c o => execMul c o s
  | .mulh c o => execMulh c o s
  | .mulhu c o => execMulhu c o s
  | .min c o => execMin c o s
  | .max c o => execMax c o s
  | .minu c o => execMinu c o s
  | .maxu c o => execMaxu c o s
  | .addi c o => execAddi c o s
  | .andi c o => execAndi c o s
  | .ori c o => execOri c o s
  | .xori c o => execXori c o s
  | .slli c o => execSlli c o s
  | .srli c o => execSrli c o s
  | .srai c o => execSrai c o s
  | .lui c o => execLui c o s
  | .ceq c o => execCeq c o s
  | .cne c o => execCne c o s
  | .clt c o => execClt c o s
  | .cltu c o => execCltu c o s
  | .cge c o => execCge c o s
  | .cgeu c o => execCgeu c o s
  | .pand c o => execPand c o s
  | .por c o => execPor c o s
  | .pxor c o => execPxor c o s
  | .pnot c o => execPnot c o s
  | .ldb c o => execLdb c o s
  | .ldh c o => execLdh c o s
  | .ldw c o => execLdw c o s
  | .ldd c o => execLdd c o s
  | .ldbu c o => execLdbu c o s
  | .ldhu c o => execLdhu c o s
  | .ldwu c o => execLdwu c o s
  | .ldx c o m => execLdx c o s m
  | .stb c o => execStb c o s
  | .sth c o => execSth c o s
  | .stw c o => execStw c o s
  | .std c o => execStd c o s
  | .stx c o => execStx c o s
  | .jal c o => execJal c o s
  | .jalr c o => execJalr c o s
  | .vadd c o => execVadd c o s
  | .vadds c o => execVadds c o s
  | .vsub c o => execVsub c o s
  | .vmul c o => execVmul c o s
  | .vmax c o => execVmax c o s
  | .vmin c o => execVmin c o s
  | .vand c o => execVand c o s
  | .vor c o => execVor c o s
  | .vxor c o => execVxor c o s
  | .vshl c o => execVshl c o s
  | .vshr c o => execVshr c o s
  | .vsplat c o => execVsplat c o s
  | .vext c o => execVext c o s
  | .vredadd c o => execVredadd c o s
  | .vredmax c o => execVredmax c o s
  | .vcmpgt c o => execVcmpgt c o s
  | .vsel c o => execVsel c o s
  | .vexp2 c o => execVexp2 c o s
  | .vlog2 c o => execVlog2 c o s
  | .vbsort c o => execVbsort c o s
  | .vmov c o => execVmov c o s
  | .vld c o m => execVld c o s m
  | .vst c o => execVst c o s
  | .dld c o => execDld c o s
  | .dst c o => execDst c o s
  | .dsetw c o => execDsetw c o s
  | .dgetw c o => execDgetw c o s
  | .daddo c o => execDaddo c o s
  | .dmov c o => execDmov c o s
  | .wait c o => execWait c o s
  | .signal c o => execSignal c o s
  | .tadd c o => execTadd c o s
  | .tread c o => execTread c o s
  | .pin c o => execPin c o s
  | .unpin c o => execUnpin c o s
  | .mig c o => execMig c o s
  | .rsend c o => execRsend c o s
  | .rrecv c o => execRrecv c o s
  | .rreduce c o => execRreduce c o s
  | .xmul c o => execXmul c o s
  | .mvmul c o => execMvmul c o s
  | .topk c o => execTopk c o s
  | .lscan c o => execLscan c o s
  | .gath c o => execGath c o s
  | .scat c o => execScat c o s
  | .kvcmpOpen c o => execKvcmpOpen c o s
  | .kvcmpReserve c o => execKvcmpReserve c o s
  | .kvcmpSetlen c o => execKvcmpSetlen c o s
  | .kvcmpCompact c o => execKvcmpCompact c o s
  | .kvcmpState c o => execKvcmpState c o s
  | .kvcmpClose c o => execKvcmpClose c o s
  | .samp c o => execSamp c o s
  | .mconv c o => execMconv c o s
  | .ttok c o => execTtok c o s
  | .tdtk c o => execTdtk c o s
  | .hrd c o => execHrd c o s
  | .hwr c o => execHwr c o s
  | .nop c o => execNop c o s
  | .endc c o => execEndc c o s
  | .drain c o => execDrain c o s
  | .time c o => execTime c o s
  | .csrr c o => execCsrr c o s
  | .trap c o => execTrap c o s
  | _ => .next s

end Sys2Proof.Machine
end

