-- ==== Sys2Proof/Machine/Debug.lean ====
section
/-! DEFINITION. Debug (22 R512-R517): halts, single step, the reads of halted conductors and of the trace, the unlock procedure; and the
TAP (22 R510, R511, R518). -/

namespace Sys2Proof.Machine

/-! ## The lock -/

/-- The lock is open and grants a scope: 0 halt and state, 1 trace (22 R512, R515). -/
def Dbg.grants (d : Dbg) (i : Nat) : Bool := d.isOpen && bit d.scope i

/-- A write of DBG_CTRL.GO: discarded while BUSY, refused after eight failed attempts (22 R515, R517). -/
def Dbg.go (d : Dbg) : Dbg :=
  if d.busy then d else if d.refused then { d with result := 4 } else { d with busy := true }

/-- A write of DBG_CTRL.RELOCK: it closes the lock and clears DBG_HALT and DBG_TRACE_EN; discarded while BUSY (22 R515, R517). -/
def Dbg.relock (d : Dbg) : Dbg :=
  if d.busy then d else { d with isOpen := false, scope := 0, halt := 0, traceEn := 0 }

/-- What an unlock block fails by: 1 format, 2 key slot or hash, 3 signature; 0 for none (22 R515, Table 22.7). -/
def State.unlockCode (s : State) (b : List Byte) : Nat :=
  if !sigShapeOk b 0x31474244 ∨ 4 ≤ sliceLe b 6 2 then 1
  else if !keyOk s.fuses b then 2
  else if !sigOk b (leBytes 8 s.fuses.serial.toNat ++ leBytes 32 s.dbg.challenge.toNat) then 3
  else 0

/-- DBG_VERIFY_DONE: the lock opens with the block's SCOPE, or the attempt counts as failed; the challenge is renewed either way. -/
def execDbgVerifyDone (s : State) : Out :=
  .next (if !s.dbg.busy then s
    else
      let b := leBytes 208 s.dbg.block.toNat
      let code := s.unlockCode b
      let d := { s.dbg with busy := false, result := BitVec.ofNat 3 code, challenge := Config.challenge s.free }
      let d :=
        if code = 0 then { d with isOpen := true, scope := BitVec.ofNat 2 (sliceLe b 6 2) }
        else { d with fails := d.fails + 1, refused := decide (8 ≤ d.fails.toNat + 1) }
      { s with free := s.free + 1, dbg := d })

/-- DBG_GO. -/
def execDbgGo (fn : Fn) (s : State) : Out := .next (if s.pwrReach fn then { s with dbg := s.dbg.go } else s)

/-- RELOCK. -/
def execRelock (fn : Fn) (s : State) : Out := .next (if s.pwrReach fn then { s with dbg := s.dbg.relock } else s)

/-! ## Halting and single step -/

/-- A write of DBG_HALT. -/
def State.haltCmd (s : State) (mask : W32) : State :=
  if s.dbg.grants 0 then { s with dbg := { s.dbg with halt := mask } } else s

/-- DBG_HALT: the named clusters stop at their next instruction boundary, the others run (22 R512; a halt acts at once, log 5). -/
def execDbgHalt (fn : Fn) (mask : W32) (s : State) : Out := .next (if s.pwrReach fn then s.haltCmd mask else s)

/-- The state with one cluster's halt bit replaced. -/
def State.setHalt (s : State) (c : Fin 32) (b : Bool) : State := { s with dbg := { s.dbg with halt := setBit s.dbg.halt c.val b } }

/-- What the instruction store holds at a conductor's PC, issued. A word that is no instruction raises ILLEGAL_INSN, unless its predicate
is 0 (05 R113, R114, R117). -/
def State.issueAt (s : State) (c : Fin 32) : State :=
  let k := s.cl[c]
  match k.job.bind s.job? with
  | none => s
  | some j =>
    let pc := k.pc.toNat
    let w := rdLe k.istore pc 4
    let size := if bits w 28 4 = 0xE then 8 else 4
    let v := rdLe k.istore (pc + 4) 4
    if !s.canIssue c then s
    else if k.textEnd < pc + size then s.except j.id j.ptn c.val c k.pc 0 0 exPcRange
    else
      match decodeWord (fun sp => fld (k.rs sp) 12 3) c w v with
      | some i => match runInsn i s with | .next t => t | _ => s
      | none =>
        if !k.rp (predField w) then s.modC c fun k => { k with pc := k.pc + BitVec.ofNat 16 size }
        else s.except j.id j.ptn c.val c k.pc (BitVec.ofNat 32 w) (if size = 8 then BitVec.ofNat 32 v else 0) exIllegal

/-- One step of a halted cluster; a WAIT whose limit expired while halted raises WAIT_TIMEOUT (22 R516). -/
def State.stepOne (s : State) (c : Fin 32) : State :=
  if !bit s.dbg.halt c.val then s
  else
    let s := s.setHalt c false
    let t := match s.cl[c].stall with
      | .none => s.issueAt c
      | _ => match execWaitTimeout c s with | .next t => t | _ => s
    t.setHalt c true

/-- A write of DBG_STEP. -/
def State.stepCmd (s : State) (mask : W32) : State :=
  if s.dbg.grants 0 then s.each ((List.finRange 32).filter fun c => bit mask c.val) State.stepOne else s

/-- DBG_STEP: one instruction issues on each halted cluster it names. -/
def execDbgStep (fn : Fn) (mask : W32) (s : State) : Out := .next (if s.pwrReach fn then s.stepCmd mask else s)

/-! ## The debug window (22 Table 22.7), as 32-bit words at offsets from 0x2000 -/

/-- DBG_REG_DATA: a register of a halted conductor; zero for a running one, and for a register that does not exist. -/
def State.regData (s : State) : Nat :=
  let c : Fin 32 := ⟨fld s.dbg.regSel 0 5, Nat.mod_lt _ (by decide)⟩
  let i := fld s.dbg.regSel 8 5
  let w := fld s.dbg.regSel 13 5
  let r5 : Fin 32 := ⟨i % 32, Nat.mod_lt _ (by decide)⟩
  let r4 : Fin 16 := ⟨i % 16, Nat.mod_lt _ (by decide)⟩
  let r3 : Fin 8 := ⟨i % 8, Nat.mod_lt _ (by decide)⟩
  let k := s.cl[c]
  if !bit s.dbg.halt c.val then 0
  else
    match fld s.dbg.regSel 5 3 with
    | 0 => (k.rs r5).toNat
    | 1 => if i < 8 then (k.rp r3).toNat else 0
    | 2 => if i < 16 ∧ w < 4 then fld k.d[r4] (64 * w) 64 else 0
    | 3 => fld k.v[r5] (64 * w) 64
    | 4 => k.pc.toNat
    | _ => 0

/-- The cluster DBG_TRACE_SEL names. -/
def State.traceCluster (s : State) : Cluster := s.cl[(⟨fld s.dbg.traceSel 0 5, Nat.mod_lt _ (by decide)⟩ : Fin 32)]

/-- DBG_STATUS. -/
def State.dbgStatus (s : State) : Nat :=
  let d := s.dbg
  s.fuses.locked.toNat + d.isOpen.toNat * 2 + d.refused.toNat * 4 + d.busy.toNat * 8 + d.result.toNat * 16 + d.fails.toNat * 256
    + d.scope.toNat * 4096

/-- The word at an offset of the debug window. -/
def State.dbgRead (s : State) (off : Nat) : Nat :=
  let d := s.dbg
  let hs (v : Nat) : Nat := if d.grants 0 then v else 0
  let tr (v : Nat) : Nat := if d.grants 1 then v else 0
  if off = 0x0 then s.dbgStatus
  else if 0x8 ≤ off ∧ off < 0x28 then fld d.challenge (8 * (off - 8)) 32
  else if 0x40 ≤ off ∧ off < 0x110 then fld d.block (8 * (off - 0x40)) 32
  else if off = 0x200 then hs d.halt.toNat
  else if off = 0x204 then hs d.halt.toNat
  else if off = 0x20C then tr d.traceEn.toNat
  else if off = 0x210 then hs d.regSel.toNat
  else if off = 0x218 then hs (bits s.regData 0 32)
  else if off = 0x21C then hs (bits s.regData 32 32)
  else if off = 0x220 then tr d.traceSel.toNat
  else if off = 0x228 ∨ off = 0x22C then tr (fld (sget 0 s.traceCluster.trace (fld d.traceSel 16 10)) (8 * (off - 0x228)) 32)
  else if off = 0x230 then tr (s.traceCluster.traceTotal.toNat % 1024 + s.traceCluster.traceTotal.toNat * 1024)
  else 0

/-- A word written at an offset of the debug window. -/
def State.dbgWrite (s : State) (off v : Nat) : State :=
  let d := s.dbg
  let w := BitVec.ofNat 32 v
  if off = 0x4 then relockIf { s with dbg := (if bit w 0 then d.go else d) } (bit w 1)
  else if 0x40 ≤ off ∧ off < 0x110 then { s with dbg := { d with block := setFld d.block (8 * (off - 0x40)) 32 v } }
  else if off = 0x200 then s.haltCmd w
  else if off = 0x208 then s.stepCmd w
  else if off = 0x20C ∧ d.grants 1 then { s with dbg := { d with traceEn := w } }
  else if off = 0x210 ∧ d.grants 0 then { s with dbg := { d with regSel := BitVec.ofNat 32 (fld w 0 18) } }
  else if off = 0x220 ∧ d.grants 1 then { s with dbg := { d with traceSel := BitVec.ofNat 32 (fld w 0 5 + fld w 16 10 * 65536) } }
  else s
where
  /-- RELOCK, when its bit is written 1. -/
  relockIf (s : State) (b : Bool) : State := if b then { s with dbg := s.dbg.relock } else s

/-! ## TAP -/

/-- The cells of IO1 in the boundary register: PERST1#, REFCLK1, PE1_TX and PE1_RX, DLE1 and DLW1, in the row order of 22 Table 22.1
(R510; the numbering is a reading, log 40). -/
def io1Cells : Nat := maskOf ([3, 19] ++ (List.range 32).map (52 + ·) ++ (List.range 32).map (116 + ·))

/-- What the boundary register takes: on I1 the cells of IO1 hold 0. -/
def State.cells (s : State) (v : BitVec 148) : BitVec 148 :=
  if s.fuses.i2 then v else BitVec.ofNat 148 (v.toNat &&& (2 ^ 148 - 1 - io1Cells))

/-- The TAP takes an instruction; the standby rail powers it (22 R501, R510). -/
def State.tapTo (s : State) (ir : Byte) (drive : TapDrive) : State :=
  if s.pwr.vsb then { s with tap := { s.tap with ir := ir, drive := drive } } else s

/-- A boundary test instruction: BYPASS unless TEST_MODE was high when VSB_3V3 came up (22 R511). -/
def State.tapTest (s : State) (ir : Byte) (drive : TapDrive) : State := s.tapTo ir (if s.pwr.testMode then drive else .mission)

/-- IDCODE: 0x1041_6A53 can be shifted out. -/
def execIdcode (s : State) : Out :=
  .next (if s.pwr.vsb then { s.tapTo 0x01 .mission with tdo := 0x10416A53 } else s)

/-- SAMPLE/PRELOAD: the boundary register takes what was sampled or shifted in. -/
def execSamplePreload (capture : BitVec 148) (s : State) : Out :=
  .next (if s.pwr.vsb then
    let t := s.tapTo 0x02 .mission
    { t with tap := { t.tap with boundary := s.cells capture } }
  else s)

def execExtest (s : State) : Out := .next (s.tapTest 0x03 .extest)
def execExtestPulse (s : State) : Out := .next (s.tapTest 0x04 .pulse)
def execExtestTrain (s : State) : Out := .next (s.tapTest 0x05 .train)
def execClamp (s : State) : Out := .next (s.tapTest 0x06 .clamp)
def execHighz (s : State) : Out := .next (s.tapTest 0x07 .highz)

/-- DBG: a 64-bit access to the debug window at an 8-byte aligned offset; BYPASS while the lock is closed (22 Table 22.6, R517). The
window is in the powered domain. -/
def execDbg (write : Bool) (off : BitVec 12) (val : W64) (s : State) : Out :=
  .next (if !s.pwr.vsb then s
    else
      let s := s.tapTo 0x10 .mission
      let o := off.toNat
      if !s.dbg.isOpen ∨ !s.pwr.rails ∨ o % 8 ≠ 0 then s
      else if write then (s.dbgWrite o (fld val 0 32)).dbgWrite (o + 4) (fld val 32 32)
      else { s with tdo := BitVec.ofNat 64 (s.dbgRead o + s.dbgRead (o + 4) * 2 ^ 32) })

/-- BYPASS, and every code of no other row of 22 Table 22.6. -/
def execTapBypass (code : Byte) (s : State) : Out :=
  .next (if (1 ≤ code.toNat ∧ code.toNat ≤ 7) ∨ code = 0x10 then s else s.tapTo code .mission)

/-- TRST#, or five TCK cycles with TMS high: IDCODE is selected, nothing else changes (22 R510, R518). -/
def execTapReset (s : State) : Out := .next (s.tapTo 0x01 .mission)

end Sys2Proof.Machine
end

