-- ==== Sys2Proof/Machine/Errors.lean ====
section
/-! DEFINITION. Acknowledging error records (18 R425). -/

namespace Sys2Proof.Machine

/-- A write of a SEQ to ER_ACK or GER_ACK: the pair whose parent has it is no longer HANDLING; a SEQ that names no current parent sets
ACK_DROP. -/
def ErrRing.ack (r : ErrRing) (seq : W32) : ErrRing :=
  if r.hand.any (·.parent == seq) then { r with hand := r.hand.filter (·.parent != seq) } else { r with ackDrop := true }

/-- ER_ACK. -/
def execErAck (fn : Fn) (p : Fin 16) (seq : W32) (s : State) : Out :=
  .next (if s.reach fn p then s.modEr (some p) fun r => r.ack seq else s)

/-- GER_ACK. -/
def execGerAck (fn : Fn) (seq : W32) (s : State) : Out := .next (if s.owner fn then s.modEr none fun r => r.ack seq else s)

end Sys2Proof.Machine
end

