-- ==== Sys2Proof/Machine/GlobalSet.lean ====
section
/-! DEFINITION. The global set (08 R203, R204, R220): its check (15 R355, 17 R388, 21 R483), and what takes effect with it: the ring
role, the clock plan and the thermal policy. -/

namespace Sys2Proof.Machine

/-! ## The check -/

/-- The fields of the global set: byte, low bit within the byte's field, width, and the values it takes (17 Table 17.1, 15 R355, 21
Table 21.1). -/
structure GField where
  byte : Nat
  lo : Nat
  w : Nat
  ok : Nat → Bool

def zeroOr (a b v : Nat) : Bool := v == 0 || (a ≤ v && v ≤ b)

def gFields : List GField :=
  [ { byte := 0, lo := 0, w := 17, ok := fun _ => true }, { byte := 4, lo := 0, w := 8, ok := fun _ => true },
    { byte := 5, lo := 0, w := 3, ok := fun _ => true }, { byte := 6, lo := 0, w := 9, ok := fun _ => true },
    { byte := 8, lo := 0, w := 17, ok := fun _ => true }, { byte := 12, lo := 0, w := 17, ok := fun _ => true },
    { byte := 16, lo := 0, w := 7, ok := fun v => v ≤ 100 },
    { byte := 64, lo := 0, w := 8, ok := fun v => 6 ≤ v && v ≤ 16 }, { byte := 65, lo := 0, w := 1, ok := fun _ => true },
    { byte := 128, lo := 0, w := 16, ok := zeroOr 1000 65535 }, { byte := 130, lo := 0, w := 1, ok := fun _ => true },
    { byte := 131, lo := 0, w := 8, ok := fun _ => true }, { byte := 132, lo := 0, w := 5, ok := zeroOr 6 16 },
    { byte := 133, lo := 0, w := 5, ok := zeroOr 6 16 }, { byte := 134, lo := 0, w := 8, ok := zeroOr 70 100 },
    { byte := 135, lo := 0, w := 8, ok := zeroOr 5 50 } ]

/-- The bits that some field of the global set takes. -/
def gMask : Nat := gFields.foldl (fun m f => m ||| ((2 ^ f.w - 1) * 2 ^ (8 * f.byte + f.lo))) 0

/-- The device has joined the ring with a pair. -/
def State.anyJoined (s : State) : Bool := s.dlk.sw[0].joined || s.dlk.sw[1].joined

/-- Byte `i` of a global set. -/
def gByte (b : BitVec 2048) (i : Nat) : Nat := fld b (8 * i) 8

/-- A joined device keeps bytes 0-11 but for clearing JOIN (17 R388). -/
def roleChange (old new : BitVec 2048) (i : Nat) : Bool :=
  let a := gByte old i
  let b := gByte new i
  if i = 5 ∧ !b.testBit 0 then a / 2 != b / 2 else a != b

/-- The offending bytes of a global set. -/
def State.gBad (s : State) (b : BitVec 2048) : List Nat :=
  let res := (List.range 256).filter fun i => gByte b i &&& (255 - bits gMask (8 * i) 8) != 0
  let vals := (gFields.filter fun f => !f.ok (gf b f.byte f.lo f.w)).map (·.byte)
  let dev := gf b 0 0 17
  let gw := gf b 8 0 17
  let pos := if gf b 4 0 8 < dev % 256 then [0] else []
  let io1 := if gf b 5 2 1 = 1 ∧ !s.fuses.i2 then [5] else []
  let seg := if gw / 256 ≠ dev / 256 ∨ (gf b 5 1 1 = 1 ∧ gw ≠ dev) then [8] else []
  let chg := if s.anyJoined then (List.range 12).filter (roleChange s.gact b) else []
  res ++ vals ++ pos ++ io1 ++ seg ++ chg

/-- The shadow of the global set. -/
def State.gShadow (s : State) : BitVec 2048 := if s.gcr.active then s.gcr.gA else s.gcr.gB

/-- A write of GSWAP_CMD.SWAP (08 R204, R214). -/
def State.gswapCmd (s : State) : State :=
  { s with gcr :=
    if s.gcr.st = .checking ∨ s.gcr.st = .pending then { s.gcr with collapsed := true } else { s.gcr with st := .checking, badOff := 0 } }

/-- GSWAP, through IO0's PF, in recovery mode too (20 R471). -/
def execGswap (fn : Fn) (s : State) : Out := .next (if s.fnAlive fn && fn == .pf 0 then s.gswapCmd else s)

/-- GSWAP_CHECK_DONE: the swap pends, or is refused with the first offending byte. -/
def execGswapCheckDone (s : State) : Out :=
  .next (if s.gcr.st ≠ .checking then s
    else match s.gBad s.gShadow with
      | [] => { s with gcr := { s.gcr with st := .pending } }
      | o :: l => { s with gcr := { s.gcr with st := .refused, badOff := BitVec.ofNat 8 (l.foldl min o) } })

/-! ## Taking effect -/

/-- A ring join or leave is in progress (08 R204). A CCLK step and a rotation step are each one command; a hold that awaits its step does not
keep a swap back (21 R483). -/
def State.gBusy (s : State) : Bool := s.dlk.sw.any fun w => w.joining || w.leaving

/-- Rotation starts, restarts or stops with the policy (21 R483). -/
def State.rotChange (s : State) (old : BitVec 2048) : State :=
  let on := gf s.gact 130 0 1 == 1
  let restart := on && (!s.thm.rotOn || gf s.gact 128 0 16 != gf old 128 0 16)
  { s with thm :=
    if restart then { s.thm with rotOn := true, rotT0 := s.clk.gt, rotK := Vector.replicate 4 0 } else { s.thm with rotOn := on } }

/-- The ring role takes effect: JOIN cleared starts the leave of each joined pair, and a pair with a role joins (17 R389, R405; 16
R376). -/
def State.roleChange (s : State) : State :=
  let s := (s.modSw 0 fun w => { w with barred := false }).modSw 1 fun w => { w with barred := false }
  if s.roleJoin then (s.tryJoin 0).tryJoin 1 else (s.startLeave 0).startLeave 1

/-- GSWAP_TAKE_EFFECT: the shadow becomes active; the first global swap ends STAGE 5 (20 R473). -/
def execGswapTakeEffect (s : State) : Out :=
  .next (if s.gcr.st ≠ .pending ∨ s.gBusy then s
    else
      let old := s.gact
      let s := { s with
        gcr := { s.gcr with st := .done, active := !s.gcr.active, valid := true }
        pwr := if s.pwr.stage = 5 then { s.pwr with stage := 6 } else s.pwr }
      let s := s.noteHeat
      let s := if gf old 65 0 1 = 0 then { s with clk := { s.clk with exchAt := s.clk.ns } } else s
      (((s.rotChange old).retarget).roleChange).pumpAll)

/-- Byte `i` of a set replaced. -/
def setByte {n : Nat} (b : BitVec n) (i : Nat) (v : Nat) : BitVec n := setFld b (8 * i) 8 v

/-- A write to a global-set window: the active one ignores it, the shadow takes it but for a swap in progress (08 R202-R204). -/
def State.gWrite (s : State) (cfg : Bool) (off bytes : Nat) (v : Nat) : State :=
  if s.gcr.valid && cfg == s.gcr.active then s
  else if (s.gcr.st = .checking ∨ s.gcr.st = .pending) ∧ cfg ≠ s.gcr.active then { s with gcr := { s.gcr with wrDrop := true } }
  else
    let f (b : BitVec 2048) : BitVec 2048 := setFld b (8 * off) (8 * bytes) v
    { s with gcr := if cfg then { s.gcr with gB := f s.gcr.gB } else { s.gcr with gA := f s.gcr.gA } }

end Sys2Proof.Machine
end

