-- ==== Sys2Proof/Machine/RegRead.lean ====
section
/-! DEFINITION. What a BAR0 address is (03 R58-R60, Table 3.2; 20 R471), and what every register reads as: the register tables of 02 to
22, as 32-bit words at offsets that are multiples of 4. Reserved bits and unoccupied offsets read zero (00 R9, 03 R60). -/

namespace Sys2Proof.Machine

/-! ## Places -/

/-- What a BAR0 offset reaches: nothing, a global block, the block of a partition, or the recovery window. -/
inductive Place where
  | nowhere
  | glob (off : Nat)
  | ptn (p : Fin 16) (off : Nat)
  | window (off : Nat)
  deriving DecidableEq, Repr

/-- GCR and PWR, which recovery mode exposes (20 R471). -/
def recovBlock (off : Nat) : Bool := off < 0x10000 || (0x20000 ≤ off && off < 0x30000)

/-- The place a function reaches at a BAR0 offset. -/
def State.place (s : State) (fn : Fn) (off : Nat) : Place :=
  match fn with
  | .pf io =>
    if s.up then
      if off < 0x100000 then (if io = 0 then .glob off else .nowhere)
      else if off < 0x200000 then
        let p : Fin 16 := ⟨off / 0x10000 % 16, Nat.mod_lt _ (by decide)⟩
        if s.reach fn p then .ptn p (off % 0x10000) else .nowhere
      else .nowhere
    else if s.pwr.recovMode ∧ io = 0 then
      if recovBlock off then .glob off
      else if 0x1000000 ≤ off ∧ off < 0x1400000 then .window (off - 0x1000000)
      else .nowhere
    else .nowhere
  | .vf _ n => if off < 0x10000 ∧ s.reach fn n then .ptn n off else .nowhere

/-! ## Partition blocks -/

/-- The RC counter at an offset of a PTN block. -/
def ctrAt : Nat → Option Ctr
  | 0x10 => some .swapCnt
  | 0x2808 => some .hlDbDrop
  | 0x3000 => some .adm0 | 0x3004 => some .adm1 | 0x3008 => some .adm2 | 0x300C => some .adm3
  | 0x3010 => some .adm4 | 0x3014 => some .adm5 | 0x3018 => some .adm6 | 0x301C => some .adm7
  | 0x3034 => some .wuOverrun | 0x3038 => some .dlMiss
  | 0x4004 => some .cndExc | 0x4008 => some .cndQstall
  | 0x5000 => some .mxaBusy | 0x5004 => some .mxaStall | 0x5008 => some .mvpBusy | 0x500C => some .accSat | 0x5010 => some .engZero
  | 0x6204 => some .fltCnt | 0x6208 => some .fltFail | 0x620C => some .noRoom | 0x6210 => some .evict | 0x6214 => some .wb
  | 0x621C => some .zeroStall
  | 0x7000 => some .txuRepl | 0x7004 => some .txuFb | 0x7008 => some .txuReject | 0x700C => some .txuDtkRepl | 0x7010 => some .txuFlush
  | 0x7014 => some .txuCtxDrop
  | 0x8100 => some .lseBusy | 0x8104 => some .lseLutLoad | 0x8108 => some .lseMaxList | 0x8110 => some .ssuEnter
  | 0x8114 => some .srchStatSat
  | 0x9200 => some .gseBusy | 0x9204 => some .gseHit | 0x9208 => some .gseFetch | 0x920C => some .tblOor | 0x9218 => some .tblHotHits
  | 0x921C => some .tblHotCnt
  | 0xA018 => some .kvNoroom | 0xA01C => some .kvcmpCnt | 0xA020 => some .kvMoved | 0xA024 => some .kvRollback
  | 0xB030 => some .smuRow | 0xB034 => some .csMask | 0xB038 => some .csForce | 0xB03C => some .csExhaust | 0xB040 => some .smuSkip
  | 0xC000 => some .cvtSat | 0xC008 => some .cvtNan
  | 0xD000 => some .ringXfer | 0xD004 => some .ringLost | 0xD008 => some .ringDup
  | _ => none

/-- The 32-bit half of a 64-bit register at offset `o` of the register: 0 or 4. -/
def half {n : Nat} (x : BitVec n) (o : Nat) : Nat := fld x (8 * o) 32

def ix8 (n : Nat) : Fin 8 := ⟨n % 8, Nat.mod_lt _ (by decide)⟩
def ix16 (n : Nat) : Fin 16 := ⟨n % 16, Nat.mod_lt _ (by decide)⟩
def ix4 (n : Nat) : Fin 4 := ⟨n % 4, Nat.mod_lt _ (by decide)⟩

/-- Fetching is paused for lack of two free slots: a descriptor waits that no batch in flight has fetched (03 Table 3.12). -/
def State.crStall (s : State) (p : Fin 16) (r : Fin 8) : Bool :=
  let q := s.P p
  q.jr[r].en && !q.jr[r].halt && q.cr[r].en && !q.cr[r].clearing && s.unfetched p r != 0 && decide (q.cr[r].spare < 2)

/-- CR_CTRL and SR_CTRL. -/
def PRing.ctrl (c : PRing) (stall : Bool) : Nat := fields [(0, c.en.toNat), (1, c.size.toNat), (4, stall.toNat), (5, c.wfail.toNat)]

/-- CR_TAIL and SR_TAIL. -/
def PRing.tailReg (c : PRing) : Nat := fields [(0, c.tail.toNat), (12, c.phase.toNat)]

/-- Job and completion ring registers (03 Table 3.11), at offset `o` within the 64 bytes of ring r. -/
def State.jrWord (s : State) (p : Fin 16) (r : Fin 8) (o : Nat) : Nat :=
  let j := (s.P p).jr[r]
  let c := (s.P p).cr[r]
  match o with
  | 0x00 => half j.base 0 | 0x04 => half j.base 4
  | 0x08 => fields [(0, j.en.toNat), (1, j.size.toNat), (4, j.halt.toNat)]
  | 0x0C => j.head.toNat
  | 0x10 => half j.mirror 0 | 0x14 => half j.mirror 4
  | 0x20 => half c.base 0 | 0x24 => half c.base 4
  | 0x28 => c.ctrl (s.crStall p r)
  | 0x2C => c.tailReg
  | _ => 0

/-- Stream ring registers. -/
def Ptn.srWord (q : Ptn) (r : Fin 16) (o : Nat) : Nat :=
  let c := q.sr[r]
  match o with
  | 0x00 => half c.base 0 | 0x04 => half c.base 4 | 0x08 => c.ctrl c.stall | 0x0C => c.tailReg | _ => 0

/-- HL_STATUS, read through I/O die `io`; WIDTH and RATE are those of the die the partition is bound to. -/
def State.hlStatus (s : State) (p : Fin 16) (io : Fin 2) : Nat :=
  match s.ioOf p with
  | none => 0
  | some b => fields [(0, (b == io).toNat), (1, b.val), (2, s.io[b].width.toNat), (4, s.io[b].rate.toNat)]

def swapCode : SwapSt → Nat
  | .idle => 0 | .validating => 1 | .waitFence => 2 | .waitResource => 3 | .pending => 4 | .done => 5 | .refused => 6

/-- PTN_STATUS, SWAP_STATUS and SWAP_DETAIL (08 Table 8.7). OLD_JOBS counts the jobs bound to the set that is not active. -/
def State.ptnCtl (s : State) (p : Fin 16) (off : Nat) : Nat :=
  let q := s.P p
  let w := q.swap
  match off with
  | 0x4 => fields [(0, q.fenced.toNat), (1, q.fencing.toNat), (2, q.activeValid.toNat), (3, q.unfenceDrop.toNat), (4, q.fenceCause.toNat)]
  | 0x8 => fields [(0, swapCode w.st), (3, w.active.toNat), (4, w.reason.toNat), (8, w.collapsed.toNat), (9, w.wrDrop.toNat),
      (10, w.releasing.toNat), (12, (s.bound p (!w.active)).length % 2 ^ 14)]
  | 0xC => fields [(0, w.badOff.toNat), (12, w.holder.toNat)]
  | _ => 0

/-- Some class's defer queue is at its bound (04 Table 4.7); a bound of 0 holds no queue. -/
def State.saturated (s : State) (p : Fin 16) : Bool :=
  (List.range 4).any fun c => csDeferMax (s.P p).act c != 0 && csDeferMax (s.P p).act c ≤ s.deferDepth p c

/-- Admission registers (04 Table 4.7). -/
def State.admWord (s : State) (p : Fin 16) (off : Nat) : Nat :=
  match off with
  | 0x3020 | 0x3024 | 0x3028 | 0x302C =>
    let c := (off - 0x3020) / 4
    fields [(0, s.slotsUsed p c % 2 ^ 13), (16, s.deferDepth p c % 2 ^ 11)]
  | 0x3030 => min (s.wuOut p) (2 ^ 32 - 1)
  | 0x303C => (s.saturated p).toNat
  | _ => 0

/-- 64 KiB blocks of one zeroing request: of its granules, or of the tensor of a CREATE, whose frames are taken to fill whole blocks (log
75). -/
def Ptn.zBlocks (q : Ptn) (z : Zero) : Nat :=
  256 * popCount 96 z.t0.toNat + 16384 * popCount 128 z.t1.toNat
    + (if z.why = .create then match q.tdWait.bind fun w => q.tensor w.base with | some t => divUp t.size 16 | none => 0 else 0)

/-- 64 KiB blocks still to zero. -/
def Ptn.remain (q : Ptn) : Nat := (q.zero.map q.zBlocks).sum

/-- Faults held with a record, and without one. -/
def State.fltHeld (s : State) (p : Fin 16) : Nat :=
  let mine := s.xfers.filter (·.ptn == p)
  let rec_ := (mine.filter fun x => match x.st with | .held _ _ => true | _ => false).length
  let un := (mine.filter fun x => match x.st with | .heldUnrec _ _ => true | _ => false).length
  fields [(0, rec_ % 64), (16, min un 65535)]

/-- MEM_FREE[d]. -/
def State.memFree (s : State) (p : Fin 16) (d : Nat) : W64 :=
  BitVec.ofNat 64 (frameTotal (s.freeList p (s.P p).act d true) % 2 ^ 24 + frameTotal (s.freeList p (s.P p).act d false) % 2 ^ 17 * 2 ^ 32)

/-- Memory registers (07 Table 7.11). -/
def State.memWord (s : State) (p : Fin 16) (off : Nat) : Nat :=
  let q := s.P p
  match off with
  | 0x6004 => fields [(0, q.tdBusy.toNat), (4, q.tdResult.toNat), (8, q.tdDropped.toNat)]
  | 0x6008 => half q.tdArg0 0 | 0x600C => half q.tdArg0 4
  | 0x6010 => q.tdArg1.toNat
  | 0x6018 => half q.tdArg2 0 | 0x601C => half q.tdArg2 4
  | 0x6020 | 0x6024 => half q.tdRes[0] (off - 0x6020)
  | 0x6028 | 0x602C => half q.tdRes[1] (off - 0x6028)
  | 0x6030 | 0x6034 => half q.tdRes[2] (off - 0x6030)
  | 0x6038 | 0x603C => half q.tdRes[3] (off - 0x6038)
  | 0x6040 => q.dir.length % 2 ^ 17
  | 0x6080 | 0x6084 | 0x6088 | 0x608C | 0x6090 | 0x6094 | 0x6098 | 0x609C => half (s.memFree p ((off - 0x6080) / 8)) (off % 8)
  | 0x6100 => half q.invAddr 0 | 0x6104 => half q.invAddr 4
  | 0x6108 => q.invLen.toNat
  | 0x6110 => fields [(0, q.invBusy.toNat), (1, q.invDropped.toNat)]
  | 0x6200 => s.fltHeld p
  | 0x6218 => fields [(0, (!q.zero.isEmpty).toNat), (8, q.remain)]
  | _ => 0

/-- TXU_CTX_STATUS: bit 4t + c while context c of the partition on text unit t holds bytes (09 R243). -/
def State.ctxOpen (s : State) (p : Fin 16) : Nat :=
  maskOf ((List.range 16).filter fun i =>
    s.ctxs.any fun x => x.txu == i / 4 && x.ix == 4 * p.val + i % 4 && !(x.carry.isEmpty && x.held.isEmpty))

/-- Index and table registers (10 R264, 11 R280). -/
def Ptn.srchWord (q : Ptn) (off : Nat) : Nat :=
  if 0x8000 ≤ off ∧ off < 0x8080 then
    let i := (off - 0x8000) / 4
    (bit q.idxValid i).toNat + (bit q.idxCur i).toNat * 2
  else if 0x8080 ≤ off ∧ off < 0x8100 then
    let d := (q.idxDrain.toList).getD ((off - 0x8080) / 4) (0, 0)
    d.1.toNat + d.2.toNat * 2 ^ 16
  else if off = 0x810C then fields [(0, q.maxList.toNat), (21, q.maxIndex.toNat)]
  else if 0x9000 ≤ off ∧ off < 0x9100 then
    let i := (off - 0x9000) / 4
    (bit q.tblValid i).toNat + (bit q.tblCur i).toNat * 2
  else if 0x9100 ≤ off ∧ off < 0x9200 then
    let d := (q.tblDrain.toList).getD ((off - 0x9100) / 4) (0, 0)
    d.1.toNat + d.2.toNat * 2 ^ 16
  else if off = 0x9210 ∨ off = 0x9214 then half q.hotIdx (off - 0x9210)
  else if off = 0x9220 then q.hotThresh.toNat
  else 0

/-- Channel and constraint registers (12 R308, 13 R325). -/
def State.genWord (s : State) (p : Fin 16) (off : Nat) : Nat :=
  let q := s.P p
  match off with
  | 0xA000 => q.kvPages.toNat
  | 0xA004 => fields [(0, q.kvRow.toNat), (16, q.kvNreg.toNat)]
  | 0xA008 => q.kvWrDrop.toNat
  | 0xA00C => (s.kvHeld p).length % 2 ^ 19
  | 0xA010 => s.kvResv p % 2 ^ 19
  | 0xA014 => (s.chans.filter fun c => c.2.ptn == p).length % 2 ^ 13
  | 0xB004 => fields [(0, q.csBusy.toNat), (1, q.csResult.toNat), (4, q.csDropped.toNat)]
  | 0xB008 => fields [(0, q.csA.toNat), (16, q.csB.toNat)]
  | _ => if 0xB010 ≤ off ∧ off < 0xB030 then fld q.csLoaded (8 * (off - 0xB010)) 32 else 0

/-- Some S3 or S4 record of a ring waits for a slot: PENDING (18 R428). -/
def ErrRing.status (r : ErrRing) : Nat := min r.hand.length 255

/-- Partition error ring registers (18 Table 18.8). -/
def State.erWord (s : State) (p : Fin 16) (off : Nat) : Nat :=
  let r := (s.P p).er
  match off with
  | 0xE000 => half r.base 0 | 0xE004 => half r.base 4
  | 0xE008 => fields [(0, r.en.toNat), (1, r.wfail.toNat)]
  | 0xE00C => fields [(0, r.tail.toNat), (8, r.phase.toNat)]
  | 0xE014 => r.ovf.toNat
  | 0xE018 => fields [(0, r.ackDrop.toNat), (1, (s.erPending (some p)).toNat), (8, r.status)]
  | 0xE01C => r.nextSeq.toNat
  | _ => 0

/-- A word of a PTN block, read through I/O die `io`. -/
def State.ptnWord (s : State) (p : Fin 16) (io : Fin 2) (off : Nat) : Nat :=
  let q := s.P p
  match ctrAt off with
  | some k => q.cnt[k.ix].toNat
  | none =>
    if off < 0x400 then s.ptnCtl p off
    else if off < 0x600 then fld q.cfgA (8 * (off - 0x400)) 32
    else if off < 0x800 then fld q.cfgB (8 * (off - 0x600)) 32
    else if 0x2000 ≤ off ∧ off < 0x2200 then s.jrWord p (ix8 ((off - 0x2000) / 0x40)) (off % 0x40)
    else if 0x2400 ≤ off ∧ off < 0x2600 then q.srWord (ix16 ((off - 0x2400) / 0x20)) (off % 0x20)
    else if off = 0x2800 then s.hlStatus p io
    else if off = 0x4000 then q.waitLimit.toNat
    else if off = 0x400C then fields [(0, q.excCause.toNat), (8, q.excCluster.toNat), (16, q.excPc.toNat)]
    else if off = 0x7018 then s.ctxOpen p
    else match off / 0x1000 with
      | 0x3 => s.admWord p off
      | 0x6 => s.memWord p off
      | 0x8 | 0x9 => q.srchWord off
      | 0xA | 0xB => s.genWord p off
      | 0xE => s.erWord p off
      | _ => 0

/-- Reading a word of a PTN block clears its RC field, with LSE_MAX_ID beside LSE_MAX_LIST and TBL_HOT_IDX beside TBL_HOT_HITS (00 R7, 10
R264, 11 R275). -/
def Ptn.readClear (q : Ptn) (off : Nat) : Ptn :=
  let q := match ctrAt off with | some k => { q with cnt := q.cnt.set k.ix 0 } | none => q
  if off = 0x8108 then { q with maxList := 0, maxIndex := 0 }
  else if off = 0x9218 then { q with hotIdx := 0 }
  else if off = 0xE014 then { q with er := { q.er with ovf := 0 } }
  else q

/-! ## Global blocks -/

def gswapCode : GSwapSt → Nat
  | .idle => 0 | .checking => 1 | .pending => 4 | .done => 5 | .refused => 6

/-- GCR (08 Table 8.8, 22 Table 22.7). -/
def State.gcrWord (s : State) (off : Nat) : Nat :=
  let f := s.fuses
  if off = 0x0 then 0x04161FD4
  else if off = 0x4 then fields [(0, 0xB0), (8, f.stackCode.toNat), (10, f.i2.toNat)]
  else if off = 0x8 ∨ off = 0xC then half f.serial (off - 8)
  else if off = 0x10 then 0x10416A53
  else if off = 0x20 then s.gcr.led.toNat
  else if 0x1000 ≤ off ∧ off < 0x1100 then fld s.gcr.gA (8 * (off - 0x1000)) 32
  else if 0x1100 ≤ off ∧ off < 0x1200 then fld s.gcr.gB (8 * (off - 0x1100)) 32
  else if off = 0x1204 then
    fields [(0, gswapCode s.gcr.st), (3, s.gcr.active.toNat), (4, s.gcr.collapsed.toNat), (5, s.gcr.wrDrop.toNat), (8, s.gcr.badOff.toNat)]
  else if 0x2000 ≤ off ∧ off < 0x3000 then s.dbgRead (off - 0x2000)
  else 0

/-- CLK (15 Table 15.5) but for GT_NOW, and PWR (20 Table 20.13). -/
def State.clkWord (s : State) (off : Nat) : Nat :=
  match off with
  | 0x0 => s.clk.lock.toNat
  | 0x4 => s.clk.cclkReg
  | 0x10 => s.clk.gtStatus
  | _ => 0

def State.pwrWord (s : State) (off : Nat) : Nat :=
  let p := s.pwr
  if off = 0x4 then p.status
  else if off = 0x8 then p.sdStatus
  else if off = 0xC then p.vin.toNat + p.pin.toNat * 65536
  else if off = 0x10 then p.bootStatus
  else if off = 0x18 then p.clrst.toNat
  else if off = 0x24 then p.recovLen.toNat
  else if off = 0x30 then fields [(0, s.fuses.keyProg.toNat), (4, s.fuses.keyRevoked.toNat), (8, s.fuses.secVerMin.toNat)]
  else if off = 0x100 then p.flashAddr.toNat
  else if off = 0x108 then fields [(0, (p.flashOp != 0).toNat), (1, p.flashErr.toNat), (2, p.flashDropped.toNat)]
  else if 0x200 ≤ off ∧ off < 0x300 then fld p.flashBuf (8 * (off - 0x200)) 32
  else 0

/-- THM (21 Table 21.6). -/
def State.thmWord (s : State) (off : Nat) : Nat :=
  let t := s.thm
  match off with
  | 0x0 => t.status
  | 0x10 | 0x14 | 0x18 | 0x1C =>
    let d := t.die[ix4 (off / 4)]
    fields [(0, d.temp.toNat), (16, d.sensor.toNat), (24, popCount 64 d.failed.toNat)]
  | 0x20 => t.q.toNat + t.pinW.toNat * 65536
  | 0x30 => fields [(0, t.month.toNat), (4, t.strideIx.toNat), (6, t.seasons.toNat)]
  | 0x40 | 0x44 | 0x48 | 0x4C =>
    let o := t.off[ix4 (off / 4)]
    fields [(0, o.mxa.toNat), (4, o.mvp.toNat), (8, o.ssu.toNat), (12, o.lse.toNat), (16, o.gse.toNat)]
  | 0x50 => t.skip.toNat
  | 0x54 => t.throttleCnt.toNat
  | _ => 0

/-- MBS/TBS (19 Table 19.11). -/
def State.busWord (s : State) (off : Nat) : Nat :=
  let m := s.mbs
  let t := s.tbs
  match off with
  | 0x0 => fields [(8, m.filt.toNat), (16, m.sclTo.toNat), (24, m.sdaTo.toNat)]
  | 0x4 => fields [(0, m.addr.toNat), (3, m.fScl.toNat), (4, m.fSda.toNat), (5, m.pecErr.toNat), (6, m.badCmd.toNat)]
  | 0x8 => m.txnCnt.toNat
  | 0xC => m.errCnt.toNat
  | 0x100 => fields [(0, t.en.toNat), (1, t.speed.toNat), (3, t.pecEn.toNat), (8, t.filt.toNat), (16, t.sclTo.toNat), (24, t.sdaTo.toNat)]
  | 0x104 => t.addr.toNat
  | 0x108 => fields [(0, t.fScl.toNat), (1, t.fSda.toNat), (2, t.fRec.toNat), (3, t.result.toNat), (6, t.busy.toNat), (7, t.valid.toNat),
      (8, t.failRun.toNat)]
  | 0x110 => half t.sampleTime 0 | 0x114 => half t.sampleTime 4
  | 0x118 => t.failCnt.toNat
  | 0x11C => t.recCnt.toNat
  | _ => if 0x120 ≤ off ∧ off < 0x160 then (t.sample[ix16 ((off - 0x120) / 4)]).toNat else 0

/-- ERR (18 Table 18.9). -/
def State.errWord (s : State) (off : Nat) : Nat :=
  let e := s.err
  match off with
  | 0x0 => half e.ger.base 0 | 0x4 => half e.ger.base 4
  | 0x8 => fields [(0, e.ger.en.toNat), (1, e.ger.wfail.toNat)]
  | 0xC => fields [(0, e.ger.tail.toNat), (10, e.ger.phase.toNat)]
  | 0x14 => e.ger.ovf.toNat
  | 0x18 => fields [(0, e.fatal.toNat), (1, e.ger.ackDrop.toNat), (2, (s.erPending none).toNat), (8, e.ger.status)]
  | 0x1C => e.ger.nextSeq.toNat
  | 0x20 => fields [(0, e.logNext.toNat), (6, e.logTotal.toNat)]
  | _ =>
    if 0x800 ≤ off ∧ off < 0x1000 then fld (e.log.toList.getD ((off - 0x800) / 32) 0) (8 * (off % 32)) 32 else 0

/-- A ledger total: the frozen copy after an S4 error, else as it stands (17 R409). -/
def State.ldgWord (s : State) (off : Nat) : Nat :=
  let l := s.ldg
  if off < 0x60 then
    let c := off / 16
    let t := s.ldgNow c
    let pick (v : Vector W32 6) (n : Nat) : Nat := if l.frozen then ((v.toList).getD c 0).toNat else n % 2 ^ 32
    match off % 16 / 4 with
    | 0 => pick l.issued t.issued | 1 => pick l.freeU t.free | 2 => pick l.held t.held | _ => pick l.transit t.transit
  else if off = 0x100 then fields [(0, l.frozen.toNat), (1, l.rebuilt.toNat), (2, l.mismatch.toNat), (3, l.cls.toNat)]
  else if off = 0x104 then l.reclaimCnt.toNat
  else 0

/-- Port registers (16 Table 16.9). -/
def Port.word (p : Port) (o : Nat) : Nat :=
  match o with
  | 0x00 => p.auto.toNat
  | 0x04 => p.status
  | 0x08 => p.peerReg
  | 0x0C => p.corrThr.toNat
  | 0x10 => p.uncorrThr.toNat + p.retryThr.toNat * 65536
  | 0x14 => p.corrCnt.toNat
  | 0x18 => p.uncorrCnt.toNat
  | 0x1C => p.retryCnt.toNat
  | 0x20 => p.retrainCnt.toNat
  | 0x24 => p.downCnt.toNat
  | 0x28 => p.loss.toNat
  | _ => 0

/-- DLK (16 Tables 16.8, 16.9; 17 Table 17.9). -/
def State.dlkWord (s : State) (off : Nat) : Nat :=
  if off = 0x0 then
    fields [(0, s.dlk.sw[0].bypass.toNat), (1, (s.dlk.sw[1].bypass && s.fuses.i2).toNat), (2, s.dlk.corrRetrain.toNat)]
  else if off = 0x4 then s.bypStatus
  else if off = 0x8 then s.dlk.errWin.toNat
  else if 0x100 ≤ off ∧ off < 0x200 then
    let k := ix4 ((off - 0x100) / 0x40)
    if s.portFitted k then s.dlk.port[k].word (off % 0x40) else 0
  else if off = 0x400 then s.ringStatus
  else if off = 0x404 then s.ringBreak
  else if off = 0x408 then s.ringl.badCnt.toNat
  else 0

/-- A word of a global block. GT_NOW reads as the counter; its latch is `State.readGt`'s. -/
def State.globWord (s : State) (off : Nat) : Nat :=
  match off / 0x10000 with
  | 0x0 => s.gcrWord off
  | 0x1 => s.clkWord (off % 0x10000)
  | 0x2 => s.pwrWord (off % 0x10000)
  | 0x3 => s.thmWord (off % 0x10000)
  | 0x4 => s.busWord (off % 0x10000)
  | 0x5 => s.errWord (off % 0x10000)
  | 0x6 => s.ldgWord (off % 0x10000)
  | 0x8 => s.dlkWord (off % 0x10000)
  | _ => 0

/-- A port's RC counter is cleared by its read. -/
def Port.readClear (p : Port) (o : Nat) : Port :=
  match o with
  | 0x14 => { p with corrCnt := 0 } | 0x18 => { p with uncorrCnt := 0 } | 0x1C => { p with retryCnt := 0 }
  | 0x20 => { p with retrainCnt := 0 } | 0x24 => { p with downCnt := 0 } | _ => p

/-- Reading a word of a global block clears its RC field. -/
def State.globClear (s : State) (off : Nat) : State :=
  match off with
  | 0x30050 => { s with thm := { s.thm with skip := 0 } }
  | 0x30054 => { s with thm := { s.thm with throttleCnt := 0 } }
  | 0x40008 => { s with mbs := { s.mbs with txnCnt := 0 } }
  | 0x4000C => { s with mbs := { s.mbs with errCnt := 0 } }
  | 0x40118 => { s with tbs := { s.tbs with failCnt := 0 } }
  | 0x4011C => { s with tbs := { s.tbs with recCnt := 0 } }
  | 0x50014 => s.modEr none fun r => { r with ovf := 0 }
  | 0x60104 => { s with ldg := { s.ldg with reclaimCnt := 0 } }
  | 0x80408 => { s with ringl := { s.ringl with badCnt := 0 } }
  | _ =>
    if 0x80100 ≤ off ∧ off < 0x80200 ∧ s.portFitted (ix4 ((off - 0x80100) / 0x40)) then
      s.modPort (ix4 ((off - 0x80100) / 0x40)) fun p => p.readClear (off % 0x40)
    else s

/-! ## Reads -/

/-- The word at a place, as it stands before the read. -/
def State.wordAt (s : State) (io : Fin 2) : Place → Nat
  | .nowhere => 0
  | .glob off => s.globWord off
  | .ptn p off => s.ptnWord p io off
  | .window off => rdLe s.pwr.window off 4

/-- What the read of a word changes. -/
def State.clearAt (s : State) : Place → State
  | .glob off => s.globClear off
  | .ptn p off => s.modP p fun q => q.readClear off
  | _ => s

/-- A read of a word or of two: both words are taken as they stand, then their RC fields clear. -/
def State.regRead (s : State) (fn : Fn) (off bytes : Nat) : State :=
  let at_ (o : Nat) : Place := s.place fn o
  -- a stall in progress counts up to now (05 R145)
  let s := s.each (List.finRange 32) State.noteStall
  let lo := s.wordAt (fnIo fn) (at_ off)
  if bytes = 8 then
    let hi := s.wordAt (fnIo fn) (at_ (off + 4))
    { (s.clearAt (at_ off)).clearAt (at_ (off + 4)) with readData := BitVec.ofNat 64 (lo + hi * 2 ^ 32) }
  else { s.clearAt (at_ off) with readData := BitVec.ofNat 64 lo }

/-- A read of GT_NOW by the owner function; by any other function zero. -/
def State.gtRead (s : State) (fn : Fn) (h : GtRead) : State :=
  if s.owner fn then
    let x := s.readGt h
    { x.1 with readData := x.2 }
  else { s with readData := 0 }

/-- GT_NOW_READ (15 R362). -/
def execGtNowRead (fn : Fn) (half : GtRead) (s : State) : Out := .next (if s.fnAlive fn then s.gtRead fn half else s)

/-- A read of a configuration-space field: a function that is there answers it (03 R56). -/
def State.configRead (s : State) (fn : Fn) (f : CfgField) : State :=
  if s.fnHere fn then { s with readData := BitVec.ofNat 64 (s.io[fnIo fn].cfgField fn f) } else s

/-- A read of the doorbell page returns zero (03 R61); one that is not naturally aligned leaves an S0 note as well (03 R60). -/
def State.dbRead (s : State) (fn : Fn) (off bytes : Nat) : State :=
  if !s.fnAlive fn then s else { (if aligned off bytes then s else s.accessNote fn off) with readData := 0 }

/-- A read of BAR0. An access that is not a naturally aligned one of 4 or 8 bytes returns zero with an S0 note (03 R60); one that no
function answers changes nothing. -/
def State.hostRead (s : State) (fn : Fn) (off bytes : Nat) : State :=
  if !s.fnAlive fn then s
  else if !aligned off bytes then { s.accessNote fn off with readData := 0 }
  else
    match s.place fn off, bytes with
    | .glob 0x10008, 8 => s.gtRead fn .full
    | .glob 0x10008, _ => s.gtRead fn .low
    | .glob 0x1000C, _ => s.gtRead fn .high
    | _, _ => s.regRead fn off bytes

/-- RC_REGISTER_READ: a read of a register, RC or any other (00 R7), of the doorbell page, or of configuration space. -/
def execRcRegisterRead (fn : Fn) (off : BitVec 25) (bytes : Nat) (s : State) (sp : Space := .bar0) : Out :=
  .next (match sp with
    | .bar0 => s.hostRead fn off.toNat bytes
    | .bar2 => s.dbRead fn off.toNat bytes
    | .config f => s.configRead fn f)

end Sys2Proof.Machine
end

