-- ==== Sys2Proof/Machine/RegWrite.lean ====
section
/-! DEFINITION. Writes to BAR0 (03 R60): what a 32-bit word written to each register does, under its access code (00 R7). A 64-bit write
acts as its low word and then its high word. A reserved value of a field leaves the field (log 26). -/

namespace Sys2Proof.Machine

/-- A 32-bit half of a 64-bit register replaced, in the bits of a mask. -/
def putHalf (x : W64) (o : Nat) (mask v : Nat) : W64 := BitVec.ofNat 64 (x.toNat &&& (2 ^ 64 - 1 - mask) ||| ((setFld x (8 * o) 32 v).toNat &&& mask))

/-- Bits [47:12], [47:3] and [63:12]. -/
def maskIova : Nat := 2 ^ 48 - 2 ^ 12
def maskMirror : Nat := 2 ^ 48 - 2 ^ 3
def maskPhys : Nat := 2 ^ 64 - 2 ^ 12

/-- A control write of a ring: SIZE while EN is 0, then EN (03 R77, R78; 18 R435). -/
def State.ctrlWrite (s : State) (p : Fin 16) (ring : RingRef) (v : Nat) : State :=
  let s := s.sizeRing p ring (BitVec.ofNat 3 (bits v 1 3))
  (if v.testBit 0 then s.enableRing p ring else s.disableRing p ring).pumpAll

/-! ## Partition blocks -/

/-- PTN_CTRL, its bits in order (log 26). -/
def State.ptnCtrl (s : State) (p : Fin 16) (v : Nat) : State :=
  let s := if v.testBit 0 then s.hostFence p else s
  let s := if v.testBit 1 then s.unfence p else s
  let s := if v.testBit 2 then s.resetPtn p else s
  let s := if v.testBit 3 then s.swapCmd p else s
  if v.testBit 4 then s.modP p Ptn.cancelSwap else s

/-- Job and completion ring registers. BASE is written only while EN is 0 (03 R77). -/
def State.jrWrite (s : State) (p : Fin 16) (r : Fin 8) (o v : Nat) : State :=
  match o with
  | 0x00 | 0x04 => s.modP p fun q => q.modJr r fun j => if j.en then j else { j with base := putHalf j.base o maskIova v }
  | 0x08 => s.ctrlWrite p (RingRef.jr r) v
  | 0x10 | 0x14 => s.modP p fun q => q.modJr r fun j => { j with mirror := putHalf j.mirror (o - 0x10) maskMirror v }
  | 0x20 | 0x24 => s.modP p fun q => q.modCr r fun c => if c.en then c else { c with base := putHalf c.base (o - 0x20) maskIova v }
  | 0x28 => s.ctrlWrite p (RingRef.cr r) v
  | _ => s

def State.srWrite (s : State) (p : Fin 16) (r : Fin 16) (o v : Nat) : State :=
  match o with
  | 0x00 | 0x04 => s.modP p fun q => q.modSr r fun c => if c.en then c else { c with base := putHalf c.base o maskIova v }
  | 0x08 => s.ctrlWrite p (RingRef.sr r) v
  | _ => s

/-- IOTLB_INV_CMD; ALL covers RANGE (07 R186). -/
def State.invCmd (s : State) (p : Fin 16) (v : Nat) : State :=
  if v.testBit 1 then s.invStart p fun _ => true
  else if v.testBit 0 then
    let lo := fld (s.P p).invAddr 12 36
    let n := (s.P p).invLen.toNat
    s.invStart p fun e => n != 0 && e.page < lo + n && lo < e.page + e.pages
  else s

/-- Memory registers. -/
def State.memWrite (s : State) (p : Fin 16) (off v : Nat) : State :=
  match off with
  | 0x6000 => s.tdOp p (v % 8)
  | 0x6004 => s.modP p fun q => { q with tdDropped := w1c q.tdDropped (v.testBit 8) }
  | 0x6008 | 0x600C => s.modP p fun q => { q with tdArg0 := putHalf q.tdArg0 (off - 0x6008) (2 ^ 64 - 1) v }
  | 0x6010 => s.modP p fun q => { q with tdArg1 := BitVec.ofNat 32 v }
  | 0x6018 | 0x601C => s.modP p fun q => { q with tdArg2 := putHalf q.tdArg2 (off - 0x6018) (2 ^ 64 - 1) v }
  | 0x6100 | 0x6104 => s.modP p fun q => { q with invAddr := putHalf q.invAddr (off - 0x6100) maskIova v }
  | 0x6108 => s.modP p fun q => { q with invLen := BitVec.ofNat 32 v }
  | 0x610C => s.invCmd p v
  | 0x6110 => s.modP p fun q => { q with invDropped := w1c q.invDropped (v.testBit 1) }
  | _ => s

/-- IDX_CTRL[i], TBL_CTRL[t] and TBL_HOT_THRESH. -/
def Ptn.srchWrite (q : Ptn) (off v : Nat) : Ptn :=
  if 0x8000 ≤ off ∧ off < 0x8080 then
    let i := (off - 0x8000) / 4
    { q with idxValid := setBit q.idxValid i (v.testBit 0), idxCur := setBit q.idxCur i (v.testBit 1) }
  else if 0x9000 ≤ off ∧ off < 0x9100 then
    let i := (off - 0x9000) / 4
    { q with tblValid := setBit q.tblValid i (v.testBit 0), tblCur := setBit q.tblCur i (v.testBit 1) }
  else if off = 0x9220 then { q with hotThresh := BitVec.ofNat 32 v }
  else q

/-- Channel and constraint registers; CS_CMD with a reserved OP does nothing. -/
def State.genWrite (s : State) (p : Fin 16) (off v : Nat) : State :=
  match off with
  | 0xA000 => kvPoolPut s p v
  | 0xA004 => kvGeomPut s p v
  | 0xA008 => s.modP p fun q => { q with kvWrDrop := w1c q.kvWrDrop (v.testBit 0) }
  | 0xB000 => if bits v 8 2 = 1 ∨ bits v 8 2 = 2 then csCmd s p (bits v 8 2) (BitVec.ofNat 8 v) else s
  | 0xB004 => s.modP p fun q => { q with csDropped := w1c q.csDropped (v.testBit 4) }
  | _ => s

/-- Error ring registers at offset `o` within the block's: a partition's or the global ring's. -/
def State.erWrite (s : State) (e : ErRef) (o v : Nat) : State :=
  match o with
  | 0x0 | 0x4 =>
    s.modEr e fun r => if r.en then r else { r with base := putHalf r.base o (if e.isSome then maskIova else maskPhys) v }
  | 0x8 => (if v.testBit 0 then s.modEr e ErrRing.enable else s.erDisable e).pumpAll
  | 0x10 => s.modEr e fun r => r.ack (BitVec.ofNat 32 v)
  | 0x18 => s.modEr e fun r => { r with ackDrop := w1c r.ackDrop (v.testBit (if e.isSome then 0 else 1)) }
  | _ => s

/-- A word written to a PTN block. -/
def State.ptnWrite (s : State) (fn : Fn) (p : Fin 16) (off v : Nat) : State :=
  if off = 0 then s.ptnCtrl p v
  else if off = 0x4 then s.modP p fun q => { q with unfenceDrop := w1c q.unfenceDrop (v.testBit 3) }
  else if off = 0x8 then s.modP p fun q =>
    { q with swap := { q.swap with collapsed := w1c q.swap.collapsed (v.testBit 8), wrDrop := w1c q.swap.wrDrop (v.testBit 9) } }
  else if 0x400 ≤ off ∧ off < 0x600 then s.cfgWrite fn p false (off - 0x400) 4 v
  else if 0x600 ≤ off ∧ off < 0x800 then s.cfgWrite fn p true (off - 0x600) 4 v
  else if 0x2000 ≤ off ∧ off < 0x2200 then s.jrWrite p (ix8 ((off - 0x2000) / 0x40)) (off % 0x40) v
  else if 0x2400 ≤ off ∧ off < 0x2600 then s.srWrite p (ix16 ((off - 0x2400) / 0x20)) (off % 0x20) v
  else if off = 0x4000 then s.modP p fun q => { q with waitLimit := BitVec.ofNat 32 v }
  else match off / 0x1000 with
    | 0x6 => s.memWrite p off v
    | 0x8 | 0x9 => s.modP p fun q => q.srchWrite off v
    | 0xA | 0xB => s.genWrite p off v
    | 0xE => s.erWrite (some p) (off - 0xE000) v
    | _ => s

/-! ## Global blocks -/

/-- GCR. -/
def State.gcrWrite (s : State) (off v : Nat) : State :=
  if off = 0x20 then { s with gcr := { s.gcr with led := v.testBit 0 } }
  else if 0x1000 ≤ off ∧ off < 0x1100 then s.gWrite false (off - 0x1000) 4 v
  else if 0x1100 ≤ off ∧ off < 0x1200 then s.gWrite true (off - 0x1100) 4 v
  else if off = 0x1200 then (if v.testBit 0 then s.gswapCmd else s)
  else if off = 0x1204 then
    { s with gcr := { s.gcr with collapsed := w1c s.gcr.collapsed (v.testBit 4), wrDrop := w1c s.gcr.wrDrop (v.testBit 5) } }
  else if 0x2000 ≤ off ∧ off < 0x3000 then s.dbgWrite (off - 0x2000) v
  else s

/-- CLK: each half of GT_SET acts on its half of the counter (03 R60, 15 R358). -/
def State.clkWrite (s : State) (off v : Nat) : State :=
  match off with
  | 0x10 => { s with clk := { s.clk with stepped := w1c s.clk.stepped (v.testBit 2), setDrop := w1c s.clk.setDrop (v.testBit 3) } }
  | 0x18 | 0x1C =>
    if s.clk.st = .free ∧ !s.anyActive then { s with clk := { s.clk with gt := putHalf s.clk.gt (off - 0x18) (2 ^ 64 - 1) v } }
    else { s with clk := { s.clk with setDrop := true } }
  | _ => s

/-- PWR. -/
def State.pwrWrite (s : State) (off v : Nat) : State :=
  let p := s.pwr
  if off = 0x0 then (if v.testBit 0 then s.shutdownCmd (v.testBit 1) else s)
  else if off = 0x14 then s.clrstCmd (BitVec.ofNat 32 v)
  else if off = 0x20 then (if v.testBit 0 then s.goCmd else s)
  else if off = 0x24 then { s with pwr := { p with recovLen := BitVec.ofNat 23 v } }
  else if off = 0x100 then { s with pwr := { p with flashAddr := BitVec.ofNat 26 v } }
  else if off = 0x104 then (if v % 4 = 0 then s else s.flashCmd (v % 4))
  else if off = 0x108 then { s with pwr := { p with flashErr := w1c p.flashErr (v.testBit 1), flashDropped := w1c p.flashDropped (v.testBit 2) } }
  else if 0x200 ≤ off ∧ off < 0x300 then { s with pwr := { p with flashBuf := setFld p.flashBuf (8 * (off - 0x200)) 32 v } }
  else s

/-- A timeout field; 0 is reserved. -/
def newTo (old : Byte) (v : Nat) : Byte := if v % 256 = 0 then old else BitVec.ofNat 8 v

/-- MBS/TBS. -/
def State.busWrite (s : State) (off v : Nat) : State :=
  let m := s.mbs
  let t := s.tbs
  match off with
  | 0x0 => { s with mbs := { m with filt := BitVec.ofNat 5 (bits v 8 5), sclTo := newTo m.sclTo (bits v 16 8), sdaTo := newTo m.sdaTo (bits v 24 8) } }
  | 0x4 => { s with mbs := { m with fScl := w1c m.fScl (v.testBit 3), fSda := w1c m.fSda (v.testBit 4), pecErr := w1c m.pecErr (v.testBit 5)
                                    badCmd := w1c m.badCmd (v.testBit 6) } }
  | 0x100 => { s with tbs := { t with
      en := v.testBit 0, speed := if bits v 1 2 = 3 then t.speed else BitVec.ofNat 2 (bits v 1 2), pecEn := v.testBit 3
      filt := BitVec.ofNat 5 (bits v 8 5), sclTo := newTo t.sclTo (bits v 16 8), sdaTo := newTo t.sdaTo (bits v 24 8) } }
  | 0x104 => { s with tbs := { t with addr := BitVec.ofNat 7 v } }
  | 0x108 => { s with tbs := { t with fScl := w1c t.fScl (v.testBit 0), fSda := w1c t.fSda (v.testBit 1), fRec := w1c t.fRec (v.testBit 2) } }
  | _ => s

/-- BYPASSn as written: 1 acts under 16 R380; a change from 1 to 0 lets the pair join again. -/
def State.bypassWrite (s : State) (k : Fin 2) (b : Bool) : State :=
  if k = 1 ∧ !s.fuses.i2 then s
  else if b then s.bypassOn k
  else if s.dlk.sw[k].bypass then (s.modSw k fun w => { w with bypass := false }).tryJoin k
  else s

/-- Port registers: AUTO, RETRAIN (acted on only in UP, 16 R381), flags and thresholds. -/
def State.portWrite (s : State) (k : Fin 4) (o v : Nat) : State :=
  match o with
  | 0x00 =>
    let s := s.modPort k fun p => { p with auto := v.testBit 0 }
    if v.testBit 1 && s.dlk.port[k].st == .up && s.running then s.enterRetrain k else s
  | 0x04 => s.modPort k fun p =>
    { p with spanFail := w1c p.spanFail (v.testBit 6), corrTh := w1c p.corrTh (v.testBit 7), uncorrTh := w1c p.uncorrTh (v.testBit 8)
             retryTh := w1c p.retryTh (v.testBit 9), flap := w1c p.flap (v.testBit 10) }
  | 0x0C => s.modPort k fun p => { p with corrThr := BitVec.ofNat 32 v }
  | 0x10 => s.modPort k fun p => { p with uncorrThr := BitVec.ofNat 16 v, retryThr := BitVec.ofNat 16 (v / 65536) }
  | _ => s

/-- DLK. -/
def State.dlkWrite (s : State) (off v : Nat) : State :=
  if off = 0x0 then
    let s := { s with dlk := { s.dlk with corrRetrain := v.testBit 2 } }
    (s.bypassWrite 0 (v.testBit 0)).bypassWrite 1 (v.testBit 1)
  else if off = 0x4 then
    let f (b : Bool) (w : Switch) : Switch := { w with fault := w1c w.fault b }
    let s := s.modSw 0 (f (v.testBit 4))
    if s.fuses.i2 then s.modSw 1 (f (v.testBit 5)) else s
  else if off = 0x8 then (if v % 65536 = 0 then s else { s with dlk := { s.dlk with errWin := BitVec.ofNat 16 v } })
  else if 0x100 ≤ off ∧ off < 0x200 then
    let k := ix4 ((off - 0x100) / 0x40)
    if s.portFitted k then s.portWrite k (off % 0x40) v else s
  else s

/-- A word written to a global block. -/
def State.globWrite (s : State) (off v : Nat) : State :=
  match off / 0x10000 with
  | 0x0 => s.gcrWrite off v
  | 0x1 => s.clkWrite (off % 0x10000) v
  | 0x2 => s.pwrWrite (off % 0x10000) v
  | 0x4 => s.busWrite (off % 0x10000) v
  | 0x5 => s.erWrite none (off % 0x10000) v
  | 0x6 => if off = 0x60100 then { s with ldg := { s.ldg with rebuilt := w1c s.ldg.rebuilt (v.testBit 1) } } else s
  | 0x8 => s.dlkWrite (off % 0x10000) v
  | _ => s

/-! ## Writes -/

/-- A 32-bit word written through a function at a BAR0 offset. -/
def State.wordWrite (s : State) (fn : Fn) (off v : Nat) : State :=
  match s.place fn off with
  | .nowhere => s
  | .glob o => s.globWrite o v
  | .ptn p o => s.ptnWrite fn p o v
  | .window o => { s with pwr := { s.pwr with window := wrLe s.pwr.window o 4 v } }

/-- A write to BAR0. One that is not a naturally aligned one of 4 or 8 bytes is discarded with an S0 note (03 R60). -/
def State.hostWrite (s : State) (fn : Fn) (off bytes : Nat) (val : W64) : State :=
  if !s.fnAlive fn then s
  else if !aligned off bytes then s.accessNote fn off
  else
    let s := s.wordWrite fn off (fld val 0 32)
    if bytes = 8 then s.wordWrite fn (off + 4) (fld val 32 32) else s

/-- A 32-bit write to an offset of the doorbell page (03 Table 3.3); elsewhere it is ignored. -/
def State.dbAt (s : State) (fn : Fn) (off : Nat) (v : W32) : Out :=
  match fn with
  | .pf _ => if off = 0 then execGerHeadDb fn v s else .next s
  | .vf _ _ =>
    if off < 0x40 ∧ off % 8 = 0 then execJrTailDb fn (ix8 (off / 8)) v s
    else if off < 0x80 ∧ off % 8 = 0 then execCrHeadDb fn (ix8 (off / 8)) v s
    else if off < 0x100 ∧ off % 8 = 0 then execSrHeadDb fn (ix16 (off / 8)) v s
    else if off = 0x100 then execErHeadDb fn v s
    else if off = 0x108 then execFaultResumeDb fn v s
    else if off = 0x110 then execCancelDb fn v s
    else .next s

/-- A write to the doorbell page: of a 64-bit one the low half acts (03 R61); one that is not naturally aligned is discarded with an S0 note
(03 R60). -/
def State.dbWrite (s : State) (fn : Fn) (off bytes : Nat) (val : W64) : Out :=
  if !s.fnAlive fn then .next s
  else if !aligned off bytes then .next (s.accessNote fn off)
  else s.dbAt fn (off % 4096) (val.truncate 32)

/-- REGISTER_WRITE: a write to a register of BAR0 with no row of its own, or to the doorbell page in a form no doorbell row has.
Configuration space is written by PCIE_CONFIG_WRITE. -/
def execRegisterWrite (fn : Fn) (off : BitVec 25) (bytes : Nat) (val : W64) (s : State) (sp : Space := .bar0) : Out :=
  match sp with
  | .bar0 => .next (s.hostWrite fn off.toNat bytes val)
  | .bar2 => s.dbWrite fn off.toNat bytes val
  | .config _ => .next s

/-- CFG_WINDOW_WRITE: a write into CFG_A or CFG_B of partition p, in the block as the function sees it (08 R201, R202, Table 8.7). A VF
reaches only its own partition's. -/
def execCfgWindowWrite (fn : Fn) (p : Fin 16) (cfg : Bool) (off : BitVec 9) (bytes : Nat) (val : W64) (s : State) : Out :=
  let o := (if cfg then 0x600 else 0x400) + off.toNat
  .next (match fn with
    | .pf _ => s.hostWrite fn (0x100000 + p.val * 0x10000 + o) bytes val
    | .vf _ n => if n = p then s.hostWrite fn o bytes val else s)

end Sys2Proof.Machine
end

