-- ==== Sys2Proof/Machine/Dispatch.lean ====
section
/-! DEFINITION. The dispatch: one arm for each command. -/

namespace Sys2Proof.Machine

def exec (i : Instr) (s : State) : Host.Outcome State Fault Refusal :=
  match i with
  | .registerWrite fn off bytes val sp => Sys2Proof.Machine.execRegisterWrite fn off bytes val s sp
  | .rcRegisterRead fn off bytes sp => Sys2Proof.Machine.execRcRegisterRead fn off bytes s sp
  | .gtNowRead fn half => Sys2Proof.Machine.execGtNowRead fn half s
  | .jrTailDb fn r val => Sys2Proof.Machine.execJrTailDb fn r val s
  | .fetchBatch p r => Sys2Proof.Machine.execFetchBatch p r s
  | .descriptorArrival p r d wait => Sys2Proof.Machine.execDescriptorArrival p r d s wait
  | .argBlockFetched job d => Sys2Proof.Machine.execArgBlockFetched job d s
  | .jobStart p m => Sys2Proof.Machine.execJobStart p s m
  | .deferPromote p cls => Sys2Proof.Machine.execDeferPromote p cls s
  | .deadlineExpiry job => Sys2Proof.Machine.execDeadlineExpiry job s
  | .jobFinalCompletion job => Sys2Proof.Machine.execJobFinalCompletion job s
  | .crHeadDb fn r val => Sys2Proof.Machine.execCrHeadDb fn r val s
  | .srHeadDb fn r val => Sys2Proof.Machine.execSrHeadDb fn r val s
  | .erHeadDb fn val => Sys2Proof.Machine.execErHeadDb fn val s
  | .gerHeadDb fn val => Sys2Proof.Machine.execGerHeadDb fn val s
  | .faultResumeDb fn val => Sys2Proof.Machine.execFaultResumeDb fn val s
  | .cancelDb fn val => Sys2Proof.Machine.execCancelDb fn val s
  | .ringEnable fn p ring size => Sys2Proof.Machine.execRingEnable fn p ring size s
  | .ringDisable fn p ring => Sys2Proof.Machine.execRingDisable fn p ring s
  | .errorRingDisable fn p => Sys2Proof.Machine.execErrorRingDisable fn p s
  | .functionLevelReset fn => Sys2Proof.Machine.execFunctionLevelReset fn s
  | .hostLinkDown io => Sys2Proof.Machine.execHostLinkDown io s
  | .linkLossTimeout io => Sys2Proof.Machine.execLinkLossTimeout io s
  | .perst1Assert => Sys2Proof.Machine.execPerst1Assert s
  | .add c o => Sys2Proof.Machine.execAdd c o s
  | .sub c o => Sys2Proof.Machine.execSub c o s
  | .and c o => Sys2Proof.Machine.execAnd c o s
  | .or c o => Sys2Proof.Machine.execOr c o s
  | .xor c o => Sys2Proof.Machine.execXor c o s
  | .sll c o => Sys2Proof.Machine.execSll c o s
  | .srl c o => Sys2Proof.Machine.execSrl c o s
  | .sra c o => Sys2Proof.Machine.execSra c o s
  | .mul c o => Sys2Proof.Machine.execMul c o s
  | .mulh c o => Sys2Proof.Machine.execMulh c o s
  | .mulhu c o => Sys2Proof.Machine.execMulhu c o s
  | .min c o => Sys2Proof.Machine.execMin c o s
  | .max c o => Sys2Proof.Machine.execMax c o s
  | .minu c o => Sys2Proof.Machine.execMinu c o s
  | .maxu c o => Sys2Proof.Machine.execMaxu c o s
  | .addi c o => Sys2Proof.Machine.execAddi c o s
  | .andi c o => Sys2Proof.Machine.execAndi c o s
  | .ori c o => Sys2Proof.Machine.execOri c o s
  | .xori c o => Sys2Proof.Machine.execXori c o s
  | .slli c o => Sys2Proof.Machine.execSlli c o s
  | .srli c o => Sys2Proof.Machine.execSrli c o s
  | .srai c o => Sys2Proof.Machine.execSrai c o s
  | .lui c o => Sys2Proof.Machine.execLui c o s
  | .ceq c o => Sys2Proof.Machine.execCeq c o s
  | .cne c o => Sys2Proof.Machine.execCne c o s
  | .clt c o => Sys2Proof.Machine.execClt c o s
  | .cltu c o => Sys2Proof.Machine.execCltu c o s
  | .cge c o => Sys2Proof.Machine.execCge c o s
  | .cgeu c o => Sys2Proof.Machine.execCgeu c o s
  | .pand c o => Sys2Proof.Machine.execPand c o s
  | .por c o => Sys2Proof.Machine.execPor c o s
  | .pxor c o => Sys2Proof.Machine.execPxor c o s
  | .pnot c o => Sys2Proof.Machine.execPnot c o s
  | .ldb c o => Sys2Proof.Machine.execLdb c o s
  | .ldh c o => Sys2Proof.Machine.execLdh c o s
  | .ldw c o => Sys2Proof.Machine.execLdw c o s
  | .ldd c o => Sys2Proof.Machine.execLdd c o s
  | .ldbu c o => Sys2Proof.Machine.execLdbu c o s
  | .ldhu c o => Sys2Proof.Machine.execLdhu c o s
  | .ldwu c o => Sys2Proof.Machine.execLdwu c o s
  | .ldx c o m => Sys2Proof.Machine.execLdx c o s m
  | .stb c o => Sys2Proof.Machine.execStb c o s
  | .sth c o => Sys2Proof.Machine.execSth c o s
  | .stw c o => Sys2Proof.Machine.execStw c o s
  | .std c o => Sys2Proof.Machine.execStd c o s
  | .stx c o => Sys2Proof.Machine.execStx c o s
  | .jal c o => Sys2Proof.Machine.execJal c o s
  | .jalr c o => Sys2Proof.Machine.execJalr c o s
  | .vadd c o => Sys2Proof.Machine.execVadd c o s
  | .vadds c o => Sys2Proof.Machine.execVadds c o s
  | .vsub c o => Sys2Proof.Machine.execVsub c o s
  | .vmul c o => Sys2Proof.Machine.execVmul c o s
  | .vmax c o => Sys2Proof.Machine.execVmax c o s
  | .vmin c o => Sys2Proof.Machine.execVmin c o s
  | .vand c o => Sys2Proof.Machine.execVand c o s
  | .vor c o => Sys2Proof.Machine.execVor c o s
  | .vxor c o => Sys2Proof.Machine.execVxor c o s
  | .vshl c o => Sys2Proof.Machine.execVshl c o s
  | .vshr c o => Sys2Proof.Machine.execVshr c o s
  | .vsplat c o => Sys2Proof.Machine.execVsplat c o s
  | .vext c o => Sys2Proof.Machine.execVext c o s
  | .vredadd c o => Sys2Proof.Machine.execVredadd c o s
  | .vredmax c o => Sys2Proof.Machine.execVredmax c o s
  | .vcmpgt c o => Sys2Proof.Machine.execVcmpgt c o s
  | .vsel c o => Sys2Proof.Machine.execVsel c o s
  | .vexp2 c o => Sys2Proof.Machine.execVexp2 c o s
  | .vlog2 c o => Sys2Proof.Machine.execVlog2 c o s
  | .vbsort c o => Sys2Proof.Machine.execVbsort c o s
  | .vmov c o => Sys2Proof.Machine.execVmov c o s
  | .vld c o m => Sys2Proof.Machine.execVld c o s m
  | .vst c o => Sys2Proof.Machine.execVst c o s
  | .dld c o => Sys2Proof.Machine.execDld c o s
  | .dst c o => Sys2Proof.Machine.execDst c o s
  | .dsetw c o => Sys2Proof.Machine.execDsetw c o s
  | .dgetw c o => Sys2Proof.Machine.execDgetw c o s
  | .daddo c o => Sys2Proof.Machine.execDaddo c o s
  | .dmov c o => Sys2Proof.Machine.execDmov c o s
  | .wait c o => Sys2Proof.Machine.execWait c o s
  | .waitTimeout c => Sys2Proof.Machine.execWaitTimeout c s
  | .signal c o => Sys2Proof.Machine.execSignal c o s
  | .tadd c o => Sys2Proof.Machine.execTadd c o s
  | .tread c o => Sys2Proof.Machine.execTread c o s
  | .pin c o => Sys2Proof.Machine.execPin c o s
  | .unpin c o => Sys2Proof.Machine.execUnpin c o s
  | .mig c o => Sys2Proof.Machine.execMig c o s
  | .rsend c o => Sys2Proof.Machine.execRsend c o s
  | .rrecv c o => Sys2Proof.Machine.execRrecv c o s
  | .rreduce c o => Sys2Proof.Machine.execRreduce c o s
  | .xmul c o => Sys2Proof.Machine.execXmul c o s
  | .mvmul c o => Sys2Proof.Machine.execMvmul c o s
  | .topk c o => Sys2Proof.Machine.execTopk c o s
  | .lscan c o => Sys2Proof.Machine.execLscan c o s
  | .gath c o => Sys2Proof.Machine.execGath c o s
  | .scat c o => Sys2Proof.Machine.execScat c o s
  | .kvcmpOpen c o => Sys2Proof.Machine.execKvcmpOpen c o s
  | .kvcmpReserve c o => Sys2Proof.Machine.execKvcmpReserve c o s
  | .kvcmpSetlen c o => Sys2Proof.Machine.execKvcmpSetlen c o s
  | .kvcmpCompact c o => Sys2Proof.Machine.execKvcmpCompact c o s
  | .kvcmpState c o => Sys2Proof.Machine.execKvcmpState c o s
  | .kvcmpClose c o => Sys2Proof.Machine.execKvcmpClose c o s
  | .samp c o => Sys2Proof.Machine.execSamp c o s
  | .mconv c o => Sys2Proof.Machine.execMconv c o s
  | .ttok c o => Sys2Proof.Machine.execTtok c o s
  | .tdtk c o => Sys2Proof.Machine.execTdtk c o s
  | .hrd c o => Sys2Proof.Machine.execHrd c o s
  | .hwr c o => Sys2Proof.Machine.execHwr c o s
  | .nop c o => Sys2Proof.Machine.execNop c o s
  | .endc c o => Sys2Proof.Machine.execEndc c o s
  | .drain c o => Sys2Proof.Machine.execDrain c o s
  | .time c o => Sys2Proof.Machine.execTime c o s
  | .csrr c o => Sys2Proof.Machine.execCsrr c o s
  | .trap c o => Sys2Proof.Machine.execTrap c o s
  | .engineOpStart c k m => Sys2Proof.Machine.execEngineOpStart c k s m
  | .xmulDone op parity m => Sys2Proof.Machine.execXmulDone op parity s m
  | .mvmulDone op parity m => Sys2Proof.Machine.execMvmulDone op parity s m
  | .topkDone op parity m => Sys2Proof.Machine.execTopkDone op parity s m
  | .lscanDone op parity m => Sys2Proof.Machine.execLscanDone op parity s m
  | .gathDone op parity m => Sys2Proof.Machine.execGathDone op parity s m
  | .scatDone op parity m => Sys2Proof.Machine.execScatDone op parity s m
  | .compactDone op parity m => Sys2Proof.Machine.execCompactDone op parity s m
  | .sampDone op parity m => Sys2Proof.Machine.execSampDone op parity s m
  | .mconvDone op parity src cb m => Sys2Proof.Machine.execMconvDone op parity src cb s m
  | .ttokDone op parity m => Sys2Proof.Machine.execTtokDone op parity s m
  | .tdtkDone op parity m => Sys2Proof.Machine.execTdtkDone op parity s m
  | .hrdDone op d m => Sys2Proof.Machine.execHrdDone op d s m
  | .hwrDone op m => Sys2Proof.Machine.execHwrDone op s m
  | .mgeLoadDone p base d m => Sys2Proof.Machine.execMgeLoadDone p base d s m
  | .writebackDone p base m => Sys2Proof.Machine.execWritebackDone p base s m
  | .moveDone p base m => Sys2Proof.Machine.execMoveDone p base s m
  | .pageWalkDone p cfg page w => Sys2Proof.Machine.execPageWalkDone p cfg page w s
  | .faultHoldExpiry p fid => Sys2Proof.Machine.execFaultHoldExpiry p fid s
  | .iotlbInvRange fn p => Sys2Proof.Machine.execIotlbInvRange fn p s
  | .iotlbInvAll fn p => Sys2Proof.Machine.execIotlbInvAll fn p s
  | .iotlbInvDone p => Sys2Proof.Machine.execIotlbInvDone p s
  | .create fn p => Sys2Proof.Machine.execCreate fn p s
  | .destroy fn p => Sys2Proof.Machine.execDestroy fn p s
  | .query fn p => Sys2Proof.Machine.execQuery fn p s
  | .flush fn p => Sys2Proof.Machine.execFlush fn p s
  | .zeroingComplete p => Sys2Proof.Machine.execZeroingComplete p s
  | .kvPoolWrite fn p val => Sys2Proof.Machine.execKvPoolWrite fn p val s
  | .kvGeomWrite fn p val => Sys2Proof.Machine.execKvGeomWrite fn p val s
  | .load fn p set => Sys2Proof.Machine.execLoad fn p set s
  | .unload fn p set => Sys2Proof.Machine.execUnload fn p set s
  | .csLoadDone p m => Sys2Proof.Machine.execCsLoadDone p s m
  | .csUnloadDone p => Sys2Proof.Machine.execCsUnloadDone p s
  | .cfgWindowWrite fn p cfg off bytes val => Sys2Proof.Machine.execCfgWindowWrite fn p cfg off bytes val s
  | .fence fn p => Sys2Proof.Machine.execFence fn p s
  | .unfence fn p => Sys2Proof.Machine.execUnfence fn p s
  | .partitionReset fn p => Sys2Proof.Machine.execPartitionReset fn p s
  | .swap fn p => Sys2Proof.Machine.execSwap fn p s
  | .swapCancel fn p => Sys2Proof.Machine.execSwapCancel fn p s
  | .swapValidationDone p img => Sys2Proof.Machine.execSwapValidationDone p img s
  | .swapTakeEffect p => Sys2Proof.Machine.execSwapTakeEffect p s
  | .gswap fn => Sys2Proof.Machine.execGswap fn s
  | .gswapTakeEffect => Sys2Proof.Machine.execGswapTakeEffect s
  | .gtSet fn val => Sys2Proof.Machine.execGtSet fn val s
  | .cclkStep => Sys2Proof.Machine.execCclkStep s
  | .timeExchange port => Sys2Proof.Machine.execTimeExchange port s
  | .timeMsg port neighbour delay => Sys2Proof.Machine.execTimeMsg port neighbour delay s
  | .holdoverTimeout => Sys2Proof.Machine.execHoldoverTimeout s
  | .pllLockLoss dom => Sys2Proof.Machine.execPllLockLoss dom s
  | .oscillatorStop => Sys2Proof.Machine.execOscillatorStop s
  | .fabricError link corrected => Sys2Proof.Machine.execFabricError link corrected s
  | .erAck fn p seq => Sys2Proof.Machine.execErAck fn p seq s
  | .gerAck fn seq => Sys2Proof.Machine.execGerAck fn seq s
  | .flitReceived port flit shared first bufErr => Sys2Proof.Machine.execFlitReceived port flit shared first s bufErr
  | .replayTimeout port => Sys2Proof.Machine.execReplayTimeout port s
  | .dlkErrThreshold port th => Sys2Proof.Machine.execDlkErrThreshold port th s
  | .signalLoss port => Sys2Proof.Machine.execSignalLoss port s
  | .trainingPatternDetected port => Sys2Proof.Machine.execTrainingPatternDetected port s
  | .autoTrainingTimer port => Sys2Proof.Machine.execAutoTrainingTimer port s
  | .retrainAttemptDone port r => Sys2Proof.Machine.execRetrainAttemptDone port r s
  | .fullTrainingDone port r => Sys2Proof.Machine.execFullTrainingDone port r s
  | .retrain fn port => Sys2Proof.Machine.execRetrain fn port s
  | .bypass fn sw => Sys2Proof.Machine.execBypass fn sw s
  | .joinWindowExpiry pair => Sys2Proof.Machine.execJoinWindowExpiry pair s
  | .switchSenseTimeout pair => Sys2Proof.Machine.execSwitchSenseTimeout pair s
  | .pairDownTimeout pair => Sys2Proof.Machine.execPairDownTimeout pair s
  | .req h len tag vc rop fmt rank => Sys2Proof.Machine.execReq h len tag vc rop fmt rank s
  | .reqRetry xid => Sys2Proof.Machine.execReqRetry xid s
  | .grantIssue src xid => Sys2Proof.Machine.execGrantIssue src xid s
  | .grant h first n => Sys2Proof.Machine.execGrant h first n s
  | .data h off payload => Sys2Proof.Machine.execData h off payload s
  | .xack h first n => Sys2Proof.Machine.execXack h first n s
  | .refuse h reason => Sys2Proof.Machine.execRefuse h reason s
  | .tally h t signal val => Sys2Proof.Machine.execTally h t signal val s
  | .topo port kind dev lport => Sys2Proof.Machine.execTopo port kind dev lport s
  | .state port src ports => Sys2Proof.Machine.execState port src ports s
  | .stateBroadcast => Sys2Proof.Machine.execStateBroadcast s
  | .xferTimeout xid sender partner => Sys2Proof.Machine.execXferTimeout xid sender partner s
  | .hopAudit port peerFree inFlight => Sys2Proof.Machine.execHopAudit port peerFree inFlight s
  | .creditReclaim port => Sys2Proof.Machine.execCreditReclaim port s
  | .leaveTimeout pair => Sys2Proof.Machine.execLeaveTimeout pair s
  | .vsbUp addr autoOn testMode pwrEn pwrWarn => Sys2Proof.Machine.execVsbUp addr autoOn testMode pwrEn pwrWarn s
  | .vsbLoss => Sys2Proof.Machine.execVsbLoss s
  | .startCondition recovery => Sys2Proof.Machine.execStartCondition recovery s
  | .startupStageDone r => Sys2Proof.Machine.execStartupStageDone r s
  | .pwrEnRise => Sys2Proof.Machine.execPwrEnRise s
  | .pwrEnFall => Sys2Proof.Machine.execPwrEnFall s
  | .pwrWarnAssert => Sys2Proof.Machine.execPwrWarnAssert s
  | .pwrWarnDeassert => Sys2Proof.Machine.execPwrWarnDeassert s
  | .vinOutOfRange v => Sys2Proof.Machine.execVinOutOfRange v s
  | .shutdown fn stayOff => Sys2Proof.Machine.execShutdown fn stayOff s
  | .offHoldExpiry => Sys2Proof.Machine.execOffHoldExpiry s
  | .perst0Assert => Sys2Proof.Machine.execPerst0Assert s
  | .perst0Deassert => Sys2Proof.Machine.execPerst0Deassert s
  | .pwrClrst fn mask => Sys2Proof.Machine.execPwrClrst fn mask s
  | .go fn => Sys2Proof.Machine.execGo fn s
  | .flashRead fn => Sys2Proof.Machine.execFlashRead fn s
  | .flashProgram fn => Sys2Proof.Machine.execFlashProgram fn s
  | .flashErase fn => Sys2Proof.Machine.execFlashErase fn s
  | .flashCmdDone ok => Sys2Proof.Machine.execFlashCmdDone ok s
  | .identity pec => Sys2Proof.Machine.execIdentity pec s
  | .health pec => Sys2Proof.Machine.execHealth pec s
  | .temps pec => Sys2Proof.Machine.execTemps pec s
  | .power pec => Sys2Proof.Machine.execPower pec s
  | .bypassStatus pec => Sys2Proof.Machine.execBypassStatus pec s
  | .ring pec => Sys2Proof.Machine.execRing pec s
  | .logHead pec => Sys2Proof.Machine.execLogHead pec s
  | .logSelect val pec => Sys2Proof.Machine.execLogSelect val pec s
  | .logSelectRead pec => Sys2Proof.Machine.execLogSelectRead pec s
  | .logRead pec => Sys2Proof.Machine.execLogRead pec s
  | .busStatus pec => Sys2Proof.Machine.execBusStatus pec s
  | .scratchWrite bs pec => Sys2Proof.Machine.execScratchWrite bs pec s
  | .scratchRead pec => Sys2Proof.Machine.execScratchRead pec s
  | .mbSclTimeout cmd => Sys2Proof.Machine.execMbSclTimeout cmd s
  | .mbSdaTimeout => Sys2Proof.Machine.execMbSdaTimeout s
  | .mirrorUpdate => Sys2Proof.Machine.execMirrorUpdate s
  | .tbSampleSlot scl sda => Sys2Proof.Machine.execTbSampleSlot scl sda s
  | .tbSampleDone r pin => Sys2Proof.Machine.execTbSampleDone r pin s
  | .tbSclTimeout scl freedAt => Sys2Proof.Machine.execTbSclTimeout scl freedAt s
  | .tbSdaTimeout scl freedAt => Sys2Proof.Machine.execTbSdaTimeout scl freedAt s
  | .dieSensorRead die t => Sys2Proof.Machine.execDieSensorRead die t s
  | .ladderRise => Sys2Proof.Machine.execLadderRise s
  | .ladderFall => Sys2Proof.Machine.execLadderFall s
  | .monthBoundary die => Sys2Proof.Machine.execMonthBoundary die s
  | .rotationStep die k => Sys2Proof.Machine.execRotationStep die k s
  | .rotHoldExpiry die k => Sys2Proof.Machine.execRotHoldExpiry die k s
  | .idcode => Sys2Proof.Machine.execIdcode s
  | .samplePreload capture => Sys2Proof.Machine.execSamplePreload capture s
  | .extest => Sys2Proof.Machine.execExtest s
  | .extestPulse => Sys2Proof.Machine.execExtestPulse s
  | .extestTrain => Sys2Proof.Machine.execExtestTrain s
  | .clamp => Sys2Proof.Machine.execClamp s
  | .highz => Sys2Proof.Machine.execHighz s
  | .dbg write off val => Sys2Proof.Machine.execDbg write off val s
  | .tapBypass code => Sys2Proof.Machine.execTapBypass code s
  | .tapReset => Sys2Proof.Machine.execTapReset s
  | .dbgHalt fn mask => Sys2Proof.Machine.execDbgHalt fn mask s
  | .dbgStep fn mask => Sys2Proof.Machine.execDbgStep fn mask s
  | .dbgGo fn => Sys2Proof.Machine.execDbgGo fn s
  | .relock fn => Sys2Proof.Machine.execRelock fn s
  | .dbgVerifyDone => Sys2Proof.Machine.execDbgVerifyDone s
  | .hostLinkUp io width rate => Sys2Proof.Machine.execHostLinkUp io width rate s
  | .perst1Deassert => Sys2Proof.Machine.execPerst1Deassert s
  | .pcieConfigWrite fn w => Sys2Proof.Machine.execPcieConfigWrite fn w s
  | .gswapCheckDone => Sys2Proof.Machine.execGswapCheckDone s
  | .mainRailsDown => Sys2Proof.Machine.execMainRailsDown s
  | .vinInRange v => Sys2Proof.Machine.execVinInRange v s
  | .clusterResetDone c => Sys2Proof.Machine.execClusterResetDone c s
  | .engineSliceExpiry k unit => Sys2Proof.Machine.execEngineSliceExpiry k unit s
  | .dlkErrWindowEnd port => Sys2Proof.Machine.execDlkErrWindowEnd port s
  | .pllLockRegained dom => Sys2Proof.Machine.execPllLockRegained dom s
  | .mbBadCommand code => Sys2Proof.Machine.execMbBadCommand code s

end Sys2Proof.Machine
end

