-- ==== Sys2Proof/Machine/Tick.lean ====
section
/-! DEFINITION. What passes when no command waits: 1 ns of time (log 5). Global time advances while GCLK is locked, with at most
one increment added or omitted in 2,000 cycles while an offset is left to slew (15 R357); CCLK cycles accrue while CCLK is locked
(15 R356). -/

namespace Sys2Proof.Machine

/-- One GCLK cycle of the global time counter. An offset slews at the full rate until it is used up, which the spec leaves open (DESIGN
CHOICE, log 76); HOLDOVER keeps the rate it had (15 R358). -/
def Clk.gtCycle (c : Clk) : Clk :=
  let left (n : Int) : Int := if c.st = .holdover then c.slew else n
  if c.slew ≠ 0 ∧ 1999 ≤ c.slewCnt then
    if 0 < c.slew then { c with gt := c.gt + 2, slew := left (c.slew - 1), slewCnt := 0 }
    else { c with slew := left (c.slew + 1), slewCnt := 0 }
  else { c with gt := c.gt + 1, slewCnt := min 1999 (c.slewCnt + 1) }

def Clk.tick (c : Clk) : Clk :=
  let c := { c with ns := c.ns + 1 }
  let c := if bit c.lock 4 then c.gtCycle else c
  if bit c.lock 0 then { c with cyc10 := c.cyc10 + c.cur.toNat } else c

def tick (s : State) : State := { s with clk := s.clk.tick }

end Sys2Proof.Machine
end

