-- ==== Sys2Proof/Safety.lean ====
section
/-! DEFINITION. The terms statements use: when a conductor issues, and what a step leaves unchanged. -/

namespace Sys2Proof

open Machine

/-- An outcome is a next state. -/
def completes (o : Host.Outcome State Fault Refusal) : Prop := ∃ t, o = .next t

/-- Conductor `c` issues an instruction of `n` bytes whose PRED field is `p`, for job `j`: the job runs there, nothing stalls,
halts or resets the conductor, the device runs, the instruction lies within TEXT, and its predicate reads 1. -/
structure Ready (s : State) (c : Fin 32) (p : Fin 8) (n : Nat) (j : Job) : Prop where
  job : s.cl[c].job.bind s.job? = some j
  can : s.canIssue c = true
  text : s.cl[c].pc.toNat + n ≤ s.cl[c].textEnd
  pred : s.cl[c].rp p = true

/-- `t` differs from `s` at most in conductor `c`. -/
def OnlyC (c : Fin 32) (s t : State) : Prop := { t with cl := s.cl } = s ∧ ∀ d : Fin 32, d ≠ c → t.cl[d] = s.cl[d]

/-- `t` differs from `s` at most in partition `p`'s block. -/
def OnlyP (p : Fin 16) (s t : State) : Prop := { t with ptn := s.ptn } = s ∧ ∀ q : Fin 16, q ≠ p → t.P q = s.P q

/-- Scalar register `rd` takes `v` (nothing is written where it is s0), the PC goes to `pc`, and nothing else in the device changes: no other
register, predicate, memory, tally, counter or status. -/
def WritesS (s t : State) (c rd : Fin 32) (v : W64) (pc : W16) : Prop :=
  OnlyC c s t ∧ t.cl[c] = { s.cl[c] with s := t.cl[c].s, pc := pc } ∧
    (∀ r : Fin 32, t.cl[c].s[r] = if r = rd ∧ r ≠ 0 then v else s.cl[c].s[r])

/-- Predicate `pd` takes `v` (nothing is written where it is p0), the PC moves on by 4, and nothing else changes. -/
def WritesP (s t : State) (c : Fin 32) (pd : Fin 8) (v : Bool) : Prop :=
  OnlyC c s t ∧ t.cl[c] = { s.cl[c] with p := t.cl[c].p, pc := s.cl[c].pc + 4 } ∧
    (∀ r : Fin 8, t.cl[c].p[r] = if r = pd ∧ r ≠ 0 then v else s.cl[c].p[r])

/-- Vector register `rd` takes `v`, the PC moves on by 4, and nothing else changes. -/
def WritesV (s t : State) (c rd : Fin 32) (v : BitVec 2048) : Prop :=
  OnlyC c s t ∧ t.cl[c] = { s.cl[c] with v := t.cl[c].v, pc := s.cl[c].pc + 4 } ∧
    (∀ r : Fin 32, t.cl[c].v[r] = if r = rd then v else s.cl[c].v[r])

/-- Descriptor register `rd` takes `v`, the PC moves on by 4, and nothing else changes. -/
def WritesD (s t : State) (c : Fin 32) (rd : Fin 16) (v : BitVec 256) : Prop :=
  OnlyC c s t ∧ t.cl[c] = { s.cl[c] with d := t.cl[c].d, pc := s.cl[c].pc + 4 } ∧
    (∀ r : Fin 16, t.cl[c].d[r] = if r = rd then v else s.cl[c].d[r])

/-- The `n` bytes of the scalar data store from `a` up become the low bytes of `v`, little-endian, every other byte reads as before, the PC
moves on by 4, and nothing else changes. -/
def WritesSds (s t : State) (c : Fin 32) (a n v : Nat) : Prop :=
  OnlyC c s t ∧ t.cl[c] = { s.cl[c] with sds := t.cl[c].sds, pc := s.cl[c].pc + 4 } ∧
    (∀ b : Nat, sget 0 t.cl[c].sds b = if a ≤ b ∧ b < a + n then BitVec.ofNat 8 (v / 256 ^ (b - a)) else sget 0 s.cl[c].sds b)

/-- Only the PC of conductor `c` changes: it moves on by `n`. -/
def OnlyPc (s t : State) (c : Fin 32) (n : W16) : Prop := t = s.modC c fun k => { k with pc := k.pc + n }

end Sys2Proof
end

