-- ==== Sys2Proof/Certificates/Slice0/Obligations.lean ====
section
/-! DEFINITION. The statements about the PN-416 model. Each docstring cites the rule of spec/ it formalises; a statement that rests on a choice of the
model says so and names the log entry. -/

open Sys2Proof Sys2Proof.Machine

/-! ## The block's form -/

/-- A step takes the command at the front of the queue and runs it on the state with the queue's rest (the block's form, task). -/
def Obligations.StepRunsFront : Prop :=
  ∀ (i : Instr) (rest : List Instr) (s : State), step { s with pending := i :: rest } = exec i { s with pending := rest }

/-- With nothing queued a step is one nanosecond of time (the model's choice, log 5), after what waits for its decision has been decided. With no
descriptor undecided nothing but the clocks changes: global time stands still while GCLK is not locked; otherwise it moves on by 1, or by 0 or 2
where an increment is left out or added, which happens at most once in 2,000 cycles and with an offset to slew (R357); CCLK cycles accrue only while
CCLK is locked (R356). -/
def Obligations.EmptyQueueTicks : Prop :=
  ∀ s : State, s.pending = [] → step s = .next (tick s.decideWaiting) ∧ ((∀ p, (s.P p).undec = []) → ∃ t, step s = .next t ∧
    { t with clk := s.clk } = s ∧
    { t.clk with gt := s.clk.gt, slew := s.clk.slew, slewCnt := s.clk.slewCnt, cyc10 := s.clk.cyc10, ns := s.clk.ns } = s.clk ∧
    t.clk.ns = s.clk.ns + 1 ∧
    (s.clk.lock.getLsbD 4 = false → t.clk.gt = s.clk.gt) ∧
    (s.clk.lock.getLsbD 4 = true → t.clk.gt = s.clk.gt ∨ t.clk.gt = s.clk.gt + 1 ∨ t.clk.gt = s.clk.gt + 2) ∧
    (s.clk.lock.getLsbD 4 = true → t.clk.gt ≠ s.clk.gt + 1 → s.clk.slew ≠ 0 ∧ 1999 ≤ s.clk.slewCnt ∧ t.clk.slewCnt = 0) ∧
    (t.clk.cyc10 = if s.clk.lock.getLsbD 0 then s.clk.cyc10 + s.clk.cur.toNat else s.clk.cyc10))

/-! ## Folainar: scalar and predicate instructions (05 R111-R115, Table 5.5) -/

/-- The ALU class: rd takes ra op rb modulo 2^64, nothing else changes, and a write to s0 is discarded. The ALUI class and LUI: IMM12 and IMM20 are
sign-extended; a shift takes IMM12[5:0] and runs when IMM12[11:6] is zero. The PRED class: pd takes the comparison of two scalars or the logic of
two predicates; a write to p0 is discarded. -/
def Obligations.ScalarArithmetic : Prop :=
  (∀ (s : State) (c : Fin 32) (o : R3) (j : Job), Ready s c o.p 4 j →
    ∀ e ∈ ([ (.add c o, fun a b => a + b), (.sub c o, fun a b => a - b), (.and c o, fun a b => a &&& b), (.or c o, fun a b => a ||| b)
           , (.xor c o, fun a b => a ^^^ b), (.sll c o, fun a b => a <<< (b.toNat % 64)), (.srl c o, fun a b => a >>> (b.toNat % 64))
           , (.sra c o, fun a b => a.sshiftRight (b.toNat % 64)), (.mul c o, fun a b => a * b)
           , (.mulh c o, fun a b => BitVec.ofInt 64 (a.toInt * b.toInt / 2 ^ 64))
           , (.mulhu c o, fun a b => BitVec.ofNat 64 (a.toNat * b.toNat / 2 ^ 64))
           , (.min c o, fun a b => if a.slt b then a else b), (.max c o, fun a b => if a.slt b then b else a)
           , (.minu c o, fun a b => if a.ult b then a else b), (.maxu c o, fun a b => if a.ult b then b else a) ]
          : List (Instr × (W64 → W64 → W64))),
      ∃ t, exec e.1 s = .next t ∧ WritesS s t c o.rd (e.2 (s.cl[c].rs o.ra) (s.cl[c].rs o.rb)) (s.cl[c].pc + 4)) ∧
  ((∀ (s : State) (c : Fin 32) (o : I12) (j : Job), Ready s c o.p 4 j →
    (∀ e ∈ ([ (.addi c o, fun a b => a + b), (.andi c o, fun a b => a &&& b), (.ori c o, fun a b => a ||| b), (.xori c o, fun a b => a ^^^ b) ]
            : List (Instr × (W64 → W64 → W64))),
      ∃ t, exec e.1 s = .next t ∧ WritesS s t c o.rd (e.2 (s.cl[c].rs o.ra) (o.imm.signExtend 64)) (s.cl[c].pc + 4)) ∧
    (o.imm.toNat < 64 →
      ∀ e ∈ ([ (.slli c o, fun a n => a <<< n), (.srli c o, fun a n => a >>> n), (.srai c o, fun a n => a.sshiftRight n) ]
              : List (Instr × (W64 → Nat → W64))),
        ∃ t, exec e.1 s = .next t ∧ WritesS s t c o.rd (e.2 (s.cl[c].rs o.ra) o.imm.toNat) (s.cl[c].pc + 4))) ∧
  (∀ (s : State) (c : Fin 32) (o : U20) (j : Job), Ready s c o.p 4 j →
    ∃ t, exec (.lui c o) s = .next t ∧ WritesS s t c o.rd (o.imm.signExtend 64 <<< 12) (s.cl[c].pc + 4))) ∧
  (∀ (s : State) (c : Fin 32) (o : R3) (j : Job) (d : Fin 8), Ready s c o.p 4 j → o.rd.val = d.val →
    (∀ e ∈ ([ (.ceq c o, fun a b => a == b), (.cne c o, fun a b => a != b), (.clt c o, fun a b => a.slt b), (.cltu c o, fun a b => a.ult b)
            , (.cge c o, fun a b => !a.slt b), (.cgeu c o, fun a b => !a.ult b) ] : List (Instr × (W64 → W64 → Bool))),
      ∃ t, exec e.1 s = .next t ∧ WritesP s t c d (e.2 (s.cl[c].rs o.ra) (s.cl[c].rs o.rb))) ∧
    (∀ a b : Fin 8, o.ra.val = a.val →
      (o.rb.val = b.val → ∀ e ∈ ([ (.pand c o, fun x y => x && y), (.por c o, fun x y => x || y), (.pxor c o, fun x y => x ^^ y) ]
                                  : List (Instr × (Bool → Bool → Bool))),
        ∃ t, exec e.1 s = .next t ∧ WritesP s t c d (e.2 (s.cl[c].rp a) (s.cl[c].rp b))) ∧
      (o.rb = 0 → ∃ t, exec (.pnot c o) s = .next t ∧ WritesP s t c d (!s.cl[c].rp a))))

/-- Loads from the scalar data store: rd takes 1, 2, 4 or 8 bytes at ra + IMM12, sign- or zero-extended, where the access is naturally aligned and
below 32 KiB. Stores to the scalar data store: the low 1, 2, 4 or 8 bytes of rd go to ra + IMM12 and every other byte reads as before. -/
def Obligations.ScalarMemory : Prop :=
  (∀ (s : State) (c : Fin 32) (o : I12) (j : Job), Ready s c o.p 4 j →
    ∀ e ∈ ([ (.ldb c o, 1, fun v => (BitVec.ofNat 8 v).signExtend 64), (.ldh c o, 2, fun v => (BitVec.ofNat 16 v).signExtend 64)
           , (.ldw c o, 4, fun v => (BitVec.ofNat 32 v).signExtend 64), (.ldd c o, 8, fun v => BitVec.ofNat 64 v)
           , (.ldbu c o, 1, fun v => BitVec.ofNat 64 v), (.ldhu c o, 2, fun v => BitVec.ofNat 64 v)
           , (.ldwu c o, 4, fun v => BitVec.ofNat 64 v) ] : List (Instr × Nat × (Nat → W64))),
      ∀ a : Nat, (s.cl[c].rs o.ra + o.imm.signExtend 64).toNat = a → a % e.2.1 = 0 → a + e.2.1 ≤ 32768 →
        ∃ t, exec e.1 s = .next t ∧ WritesS s t c o.rd (e.2.2 (rdLe s.cl[c].sds a e.2.1)) (s.cl[c].pc + 4)) ∧
  (∀ (s : State) (c : Fin 32) (o : I12) (j : Job), Ready s c o.p 4 j →
    ∀ e ∈ ([ (.stb c o, 1), (.sth c o, 2), (.stw c o, 4), (.std c o, 8) ] : List (Instr × Nat)),
      ∀ a : Nat, (s.cl[c].rs o.ra + o.imm.signExtend 64).toNat = a → a % e.2 = 0 → a + e.2 ≤ 32768 →
        ∃ t, exec e.1 s = .next t ∧ WritesSds s t c a e.2 (s.cl[c].rs o.rd).toNat)

/-- JAL and JALR: rd takes PC + 4 and the PC goes to the target; with the trace of the conductor off nothing else changes. -/
def Obligations.JumpResult : Prop :=
  (∀ (s : State) (c : Fin 32) (o : U20) (j : Job), Ready s c o.p 4 j → s.dbg.traceEn.getLsbD c.val = false →
    ∃ t, exec (.jal c o) s = .next t ∧
      WritesS s t c o.rd (BitVec.ofNat 64 (s.cl[c].pc.toNat + 4)) (s.cl[c].pc + BitVec.ofInt 16 (4 * o.imm.toInt))) ∧
  (∀ (s : State) (c : Fin 32) (o : I12) (j : Job), Ready s c o.p 4 j → s.dbg.traceEn.getLsbD c.val = false →
    ∃ t, exec (.jalr c o) s = .next t ∧ WritesS s t c o.rd (BitVec.ofNat 64 (s.cl[c].pc.toNat + 4))
      (BitVec.ofNat 16 ((s.cl[c].rs o.ra + o.imm.signExtend 64).toNat / 4 * 4)))

/-! ## Folainar: vector instructions (05 Table 5.6; 06 R157, R158; 10 R255) -/

/-- The lane-wise vector functions of two registers: each lane of vd is the function of the same lanes of va and vb, 8 bits for W 0 and 32 for W 1,
and nothing else changes. VSPLAT, VSEL, VMOV, VEXP2 and VLOG2 write one vector register; VEXT, VREDADD and VREDMAX write one scalar register from
the signed lanes of va. -/
def Obligations.VectorRegisters : Prop :=
  (∀ (s : State) (c : Fin 32) (o : V3) (j : Job), Ready s c o.p 4 j → ∀ w : Nat, w = (if o.w then 32 else 8) →
    ∀ e ∈ ([ (.vadd c o, fun a b => a + b), (.vsub c o, fun a b => a - b), (.vmul c o, fun a b => a * b)
           , (.vadds c o, fun a b => BitVec.ofInt w (max (-(2 ^ (w - 1))) (min (2 ^ (w - 1) - 1) (a.toInt + b.toInt))))
           , (.vmax c o, fun a b => if a.slt b then b else a), (.vmin c o, fun a b => if a.slt b then a else b)
           , (.vand c o, fun a b => a &&& b), (.vor c o, fun a b => a ||| b), (.vxor c o, fun a b => a ^^^ b)
           , (.vshl c o, fun a b => a <<< (b.toNat % w)), (.vshr c o, fun a b => a.sshiftRight (b.toNat % w))
           , (.vcmpgt c o, fun a b => if b.slt a then BitVec.allOnes w else 0) ] : List (Instr × (BitVec w → BitVec w → BitVec w))),
      ∃ t v, exec e.1 s = .next t ∧ WritesV s t c o.rd v ∧
        ∀ i < 2048 / w, v.extractLsb' (w * i) w = e.2 (s.cl[c].v[o.ra].extractLsb' (w * i) w) (s.cl[c].v[o.rb].extractLsb' (w * i) w)) ∧
  (∀ (s : State) (c : Fin 32) (o : V3) (j : Job), Ready s c o.p 4 j → ∀ w : Nat, w = (if o.w then 32 else 8) →
    let lane := fun (i : Nat) => (s.cl[c].v[o.ra].extractLsb' (w * i) w).toInt
    (o.ra = 0 → ∃ t v, exec (.vsplat c o) s = .next t ∧ WritesV s t c o.rd v ∧
      ∀ i < 2048 / w, v.extractLsb' (w * i) w = BitVec.ofNat w (s.cl[c].rs o.rb).toNat) ∧
    (∃ t, exec (.vsel c o) s = .next t ∧
      WritesV s t c o.rd ((s.cl[c].v[o.ra] &&& s.cl[c].v[o.rd]) ||| (s.cl[c].v[o.rb] &&& ~~~s.cl[c].v[o.rd]))) ∧
    (o.rb = 0 → ∃ t, exec (.vmov c o) s = .next t ∧ WritesV s t c o.rd s.cl[c].v[o.ra]) ∧
    (o.rb = 0 → o.w = true →
      (∃ t v, exec (.vexp2 c o) s = .next t ∧ WritesV s t c o.rd v ∧
        ∀ i < 64, v.extractLsb' (32 * i) 32 = BitVec.ofNat 32 (exp2Q ((s.cl[c].v[o.ra].extractLsb' (32 * i) 32).toNat % 4096))) ∧
      (∃ t v, exec (.vlog2 c o) s = .next t ∧ WritesV s t c o.rd v ∧
        ∀ i < 64, v.extractLsb' (32 * i) 32 = BitVec.ofNat 32 (log2Q (s.cl[c].v[o.ra].extractLsb' (32 * i) 32).toNat))) ∧
    ((s.cl[c].rs o.rb).toNat < 2048 / w →
      ∃ t, exec (.vext c o) s = .next t ∧ WritesS s t c o.rd (BitVec.ofInt 64 (lane (s.cl[c].rs o.rb).toNat)) (s.cl[c].pc + 4)) ∧
    (o.rb = 0 → ∃ t, exec (.vredadd c o) s = .next t ∧
      WritesS s t c o.rd (BitVec.ofInt 64 ((List.range (2048 / w)).map lane).sum) (s.cl[c].pc + 4)) ∧
    (o.rb = 0 → ∃ t m, exec (.vredmax c o) s = .next t ∧ WritesS s t c o.rd (BitVec.ofInt 64 m) (s.cl[c].pc + 4) ∧
      (∃ i < 2048 / w, m = lane i) ∧ ∀ i < 2048 / w, lane i ≤ m))

/-- The helpers of 06 R158: for Q below 4,095, EXP2 is the whole number nearest to 2^(−Q ÷ 256) × 2^24 (no tie arises), and 0 for 4,095; LOG2 is
4,095 for 0 and otherwise a Q whose power brackets the lane. -/
def Obligations.LogHelpers : Prop :=
  (∀ q < 4095, (2 * exp2Q q - 1) ^ 256 < 2 ^ (6400 - q) ∧ 2 ^ (6400 - q) < (2 * exp2Q q + 1) ^ 256) ∧ exp2Q 4095 = 0 ∧
  log2Q 0 = 4095 ∧ (∀ u, 2 ^ 24 ≤ u → log2Q u = 0) ∧
  (∀ u, 0 < u → u < 2 ^ 24 → log2Q u < 4094 →
    u ^ 512 * 2 ^ (2 * log2Q u) < 2 ^ 12288 * 2 ∧ 2 ^ 12288 < u ^ 512 * 2 ^ (2 * log2Q u + 1))

/-- VBSORT: vd to vd + 7 take the indices of the 512 keys of va to va + 7, largest key first and the lower index first among equal keys (10 R255);
no other register changes. A register range that does not begin at a multiple of 8, ranges that overlap, RB not zero and W 0 raise ILLEGAL_INSN. -/
def Obligations.VectorSort : Prop :=
  ∀ (s : State) (c : Fin 32) (o : V3) (j : Job), Ready s c o.p 4 j →
    (o.rb ≠ 0 ∨ o.w = false ∨ o.rd.val % 8 ≠ 0 ∨ o.ra.val % 8 ≠ 0 ∨ o.rd = o.ra → ∃ w, encodeWord (.vbsort c o) = some w ∧
      exec (.vbsort c o) s = .next (s.except j.id j.ptn c.val c s.cl[c].pc w.1 w.2 exIllegal)) ∧
    (o.rb = 0 → o.w = true → o.rd.val % 8 = 0 → o.ra.val % 8 = 0 → o.rd ≠ o.ra →
    let key := fun (n : Nat) => ((s.cl[c].v.toList.getD (o.ra.val + n / 64) 0).extractLsb' (32 * (n % 64)) 32).toInt
    ∃ t, ∃ l : List Nat, exec (.vbsort c o) s = .next t ∧ l.Perm (List.range 512) ∧
      l.Pairwise (fun a b => key b < key a ∨ key a = key b ∧ a < b) ∧
      (∀ n < 512, ((t.cl[c].v.toList.getD (o.rd.val + n / 64) 0).extractLsb' (32 * (n % 64)) 32).toNat = l.getD n 0) ∧
      OnlyC c s t ∧ t.cl[c] = { s.cl[c] with v := t.cl[c].v, pc := s.cl[c].pc + 4 } ∧
      ∀ r : Fin 32, (r.val < o.rd.val ∨ o.rd.val + 8 ≤ r.val) → t.cl[c].v[r] = s.cl[c].v[r])

/-! ## Folainar: tensor access, descriptors, tallies, control (05 R115-R122, R134-R136) -/

/-- `n` bytes stored in partition `p`'s resident tensor at `base` from UTA address `u` on: those bytes take the value, every other byte reads as
before, the tensor becomes dirty, units wholly written are good again, what an incomplete operation has had overwritten is noted with it, the PC
of `c` moves on by 4, and nothing else changes. -/
def StoresTensor (s t : State) (c : Fin 32) (p : Fin 16) (u base n v : Nat) : Prop :=
  { t with ptn := s.ptn, cl := s.cl, ops := s.ops, xfers := s.xfers, free := s.free } = s ∧
    OnlyPc { s with ptn := t.ptn, ops := t.ops, xfers := t.xfers, free := t.free } t c 4 ∧
    (∀ q : Fin 16, q ≠ p → t.P q = s.P q) ∧
    { t.P p with mem := (s.P p).mem, dir := (s.P p).dir, bad := (s.P p).bad } = s.P p ∧
    (t.P p).dir = (s.P p).dir.map (fun x => if x.base = base then { x with dirty := true } else x) ∧
    (∀ x, x ∈ (t.P p).bad ↔ x ∈ (s.P p).bad ∧ ¬ (u ≤ x * 64 ∧ x * 64 + 64 ≤ u + n)) ∧
    t.ops.map (fun x => { x with stale := [] }) = s.ops.map (fun x => { x with stale := [] }) ∧
    t.xfers.map (fun x => { x with data := [] }) = s.xfers.map (fun x => { x with data := [] }) ∧
    (∀ a : Nat, sget 0 (t.P p).mem a = if u ≤ a ∧ a < u + n then BitVec.ofNat 8 (v / 256 ^ (a - u)) else sget 0 (s.P p).mem a)

/-- No running operation writes the place, or holds its rows under COMPACT (12 R302). -/
def Settled (s : State) (j : Job) (l : Loc) (n : Nat) : Prop := ∀ u b, l = .mem u b → ∀ r ∈ s.unsettled j.ptn, meets (u, n) r = false

/-- What an access of a memory, store or cache meets comes before it: a corrected error and a refetched entry leave an S1 record with the
granule's holder, an uncorrectable unit of a resident tensor is bad from then on, and an error in a directory granule leaves the S3 record of its
partition (07 R167, R197; 09 R241). LDX and VLD: where the descriptor is whole, the access aligned, its checks pass, its tensor is not still being
zeroed and its data is good, the register takes the bytes at OFFSET + s of the tensor; nothing else changes. Of bytes that a running operation is
to write the contents are open (12 R302; log 55): the register is written all the same. STX and VST: the bytes of the register go to OFFSET + s of
the tensor, at the address `locate` gives; every other byte of memory reads as before. An access of a tensor still being zeroed stalls (07 R191).
-/
def Obligations.TensorMemory : Prop :=
  ((∀ (s : State) (c : Fin 32) (o : I12) (j : Job) (d : Fin 16) (r : Fin 32) (l : Loc), Ready s c o.p 4 j → o.ra.val = d.val →
    o.imm.toNat = 128 * r.val → tOk s.cl[c].d[d] = true → (tOff s.cl[c].d[d] + (s.cl[c].rs r).toNat) % 8 = 0 →
    s.locate j.cnd d s.cl[c].d[d] (s.cl[c].rs r).toNat 8 true false = .ok l →
    (∀ b, s.zeroingAt j l = some b → exec (.ldx c o []) s = .next (s.modC c fun k => { k with stall := .zeroing b s.clk.cyc10 }).settle) ∧
    (s.zeroingAt j l = none → s.badIn j.cnd l 8 = false →
      (∃ t v, exec (.ldx c o []) s = .next t ∧ WritesS { s with free := t.free } t c o.rd v (s.cl[c].pc + 4)) ∧
      (Settled s j l 8 → ∃ t, exec (.ldx c o []) s = .next t ∧
        WritesS s t c o.rd (BitVec.ofNat 64 (ofLe (s.readLoc j.cnd l 8))) (s.cl[c].pc + 4)))) ∧
  (∀ (s : State) (c : Fin 32) (o : R3) (j : Job) (d : Fin 16) (l : Loc), Ready s c o.p 4 j → o.ra.val = d.val →
    tOk s.cl[c].d[d] = true → (s.cl[c].rs o.rb).toNat % 64 = 0 →
    s.locate j.cnd d s.cl[c].d[d] (s.cl[c].rs o.rb).toNat 256 true false = .ok l → s.zeroingAt j l = none → s.badIn j.cnd l 256 = false →
    (∃ t v, exec (.vld c o []) s = .next t ∧ WritesV { s with free := t.free } t c o.rd v) ∧
    (Settled s j l 256 → ∃ t, exec (.vld c o []) s = .next t ∧ WritesV s t c o.rd (BitVec.ofNat 2048 (ofLe (s.readLoc j.cnd l 256)))))) ∧
  ((∀ (s : State) (c : Fin 32) (o : I12) (j : Job) (d : Fin 16) (r : Fin 32) (u base : Nat), Ready s c o.p 4 j → o.ra.val = d.val →
    o.imm.toNat = 128 * r.val → tOk s.cl[c].d[d] = true → (tOff s.cl[c].d[d] + (s.cl[c].rs r).toNat) % 8 = 0 →
    s.locate j.cnd d s.cl[c].d[d] (s.cl[c].rs r).toNat 8 false true = .ok (.mem u base) →
    ((s.P j.ptn).zeroing base = true →
      exec (.stx c o) s = .next (s.modC c fun k => { k with stall := .zeroing base s.clk.cyc10 }).settle) ∧
    ((s.P j.ptn).zeroing base = false → s.badEdge j.cnd (.mem u base) 8 = false →
      ∃ t, exec (.stx c o) s = .next t ∧ StoresTensor s t c j.ptn u base 8 (s.cl[c].rs o.rd).toNat)) ∧
  (∀ (s : State) (c : Fin 32) (o : R3) (j : Job) (d : Fin 16) (u base : Nat), Ready s c o.p 4 j → o.ra.val = d.val →
    tOk s.cl[c].d[d] = true → (s.cl[c].rs o.rb).toNat % 64 = 0 →
    s.locate j.cnd d s.cl[c].d[d] (s.cl[c].rs o.rb).toNat 256 false true = .ok (.mem u base) → (s.P j.ptn).zeroing base = false →
    s.badEdge j.cnd (.mem u base) 256 = false →
    ∃ t, exec (.vst c o) s = .next t ∧ StoresTensor s t c j.ptn u base 256 s.cl[c].v[o.rd].toNat)) ∧
  (∀ (s : State) (c : Fin 32) (m : List MemEv), s.canIssue c = true →
    (∀ o : I12, s.cl[c].rp o.p = true → exec (.ldx c o m) s = exec (.ldx c o []) (s.meet m)) ∧
    (∀ o : R3, s.cl[c].rp o.p = true → exec (.vld c o m) s = exec (.vld c o []) (s.meet m))) ∧
  (∀ s : State, s.running = true →
    (∀ t1 g off, s.granOk t1 g.val off.toNat = true → s.meet [.corrected t1 g off] =
      s.report (memRec 1 (if t1 then 2 else 1) (0x50 + s.dieOf (t1, g.val)) (memDetail t1 g.val off.toNat) (s.granHolder t1 g.val)) none 0) ∧
    (∀ u t1 g off, s.granOk t1 g.val off.toNat = true → s.meet [.refetched u t1 g off] =
      s.report (memRec 1 3 u.toNat (memDetail t1 g.val off.toNat) (s.granHolder t1 g.val)) none 0) ∧
    (∀ p u t, (s.P p).tensorAt (u * 64) = some t → t.tier ≠ 2 → ∃ b, s.meet [.uncorrectable p u] = s.modP p (fun q => { q with bad := b }) ∧
      ∀ x, x ∈ b ↔ x = u ∨ x ∈ (s.P p).bad) ∧
    (∀ p off, (s.P p).activeValid = true → off.toNat < 32 * csTdCap (s.P p).act → s.meet [.directory p off] =
      s.report (memRec 3 4 (0x50 + s.dieOf (true, csTdGranule (s.P p).act)) (memDetail true (csTdGranule (s.P p).act) off.toNat) (some p)) none 0))

/-- The DESC class (05 Table 5.7): DLD loads a d register from 32 bytes of the scalar data store, and DST stores one there and changes no
other byte; DSETW replaces one 64-bit word of a d register, DADDO adds rs to its low 48 bits, DGETW copies a word of one into a scalar
register, and DMOV copies a d register. Nothing else changes. -/
def Obligations.DescriptorResult : Prop :=
  (∀ (s : State) (c : Fin 32) (o : DMem) (j : Job) (d : Fin 16) (a : Nat), Ready s c o.p 4 j → o.rd.val = d.val →
    (s.cl[c].rs o.ra + BitVec.ofNat 64 (32 * o.off.toNat)).toNat = a → a % 32 = 0 → a + 32 ≤ 32768 →
    (∃ t, exec (.dld c o) s = .next t ∧ WritesD s t c d (BitVec.ofNat 256 (rdLe s.cl[c].sds a 32))) ∧
    (∃ t, exec (.dst c o) s = .next t ∧ WritesSds s t c a 32 s.cl[c].d[d].toNat)) ∧
  (∀ (s : State) (c : Fin 32) (o : DReg) (j : Job), Ready s c o.p 4 j →
    (∀ d : Fin 16, o.rd.val = d.val → o.ra = 0 →
      (∃ t v, exec (.dsetw c o) s = .next t ∧ WritesD s t c d v ∧
        ∀ w : Fin 4, v.extractLsb' (64 * w.val) 64 = if w = o.w then s.cl[c].rs o.rs else s.cl[c].d[d].extractLsb' (64 * w.val) 64) ∧
      (o.w = 0 → ∃ t v, exec (.daddo c o) s = .next t ∧ WritesD s t c d v ∧
        v.extractLsb' 0 48 = s.cl[c].d[d].extractLsb' 0 48 + (s.cl[c].rs o.rs).extractLsb' 0 48 ∧
        v.extractLsb' 48 208 = s.cl[c].d[d].extractLsb' 48 208)) ∧
    (∀ a : Fin 16, o.ra.val = a.val → o.rs = 0 →
      (∃ t, exec (.dgetw c o) s = .next t ∧ WritesS s t c o.rd (s.cl[c].d[a].extractLsb' (64 * o.w.val) 64) (s.cl[c].pc + 4)) ∧
      (∀ d : Fin 16, o.rd.val = d.val → o.w = 0 → ∃ t, exec (.dmov c o) s = .next t ∧ WritesD s t c d s.cl[c].d[a])))

/-- A tally word in s[RA] that names tally `y` of this device, in a block that the job's set grants (05 R119, R120; 01 R12; 08 R208). -/
def NamesTally (s : State) (c : Fin 32) (j : Job) (ra : Fin 32) (y : Nat) : Prop :=
  (s.cl[c].rs ra).toNat < 2 ^ 34 ∧ (s.cl[c].rs ra).toNat % 2 ^ 17 = y ∧ (csTallies (s.jobSet j)).testBit (y / 1024) = true

/-- The TALLY class on a local tally: WAIT goes on when (tally − value) is at least 0 as a signed 32-bit number and stalls otherwise; SIGNAL writes,
TADD adds modulo 2^32, TREAD reads; what a change releases follows in `settle`. A tally holds what was written to it, and no other tally changes (05
R119). A stalled WAIT goes on, past its instruction, as soon as its tally has reached the value, and not before (05 R119, R142). A WAIT that has
stalled longer than CND_WAIT_LIMIT raises WAIT_TIMEOUT at its PC; within the limit, with the limit 0, or satisfied, it does not. -/
def Obligations.TallyResult : Prop :=
  (∀ (s : State) (c : Fin 32) (o : R3) (j : Job) (y : Nat), Ready s c o.p 4 j → NamesTally s c j o.ra y →
    let v : W32 := (s.cl[c].rs o.rb).truncate 32
    let next := fun (u : State) => u.modC c fun k => { k with pc := k.pc + 4 }
    (o.rd = 0 → 0 ≤ (s.tallyGet y - v).toInt → exec (.wait c o) s = .next (next s)) ∧
    (o.rd = 0 → (s.tallyGet y - v).toInt < 0 →
      exec (.wait c o) s = .next (s.modC c fun k => { k with stall := .wait y v s.clk.gt }).settle) ∧
    (o.rd = 0 → exec (.signal c o) s = .next (next (s.tallyPut y v).settle)) ∧
    (o.rd = 0 → exec (.tadd c o) s = .next (next (s.tallyPut y (s.tallyGet y + v)).settle)) ∧
    (o.rb = 0 → ∃ t, exec (.tread c o) s = .next t ∧ WritesS s t c o.rd ((s.tallyGet y).zeroExtend 64) (s.cl[c].pc + 4))) ∧
  (∀ (s : State) (y z : Nat) (v : W32), (s.tallyPut y v).tallyGet z = (if z = y then v else s.tallyGet z) ∧
    { s.tallyPut y v with tallies := s.tallies } = s) ∧
  (∀ (s : State) (c : Fin 32) (y : Nat) (v : W32) (since : W64), s.cl[c].stall = .wait y v since →
    (0 ≤ (s.tallyGet y - v).toInt → s.settleC c = s.modC c fun k => { k with stall := .none, pc := k.pc + 4 }) ∧
    ((s.tallyGet y - v).toInt < 0 → s.settleC c = s)) ∧
  (∀ (s : State) (c : Fin 32) (j : Job) (y : Nat) (v : W32) (since : W64), s.cl[c].job.bind s.job? = some j → s.running = true →
    s.cl[c].stall = .wait y v since → s.dbg.halt.getLsbD c.val = false →
    (since.toNat + 1000 * (s.P j.ptn).waitLimit.toNat < s.clk.gt.toNat → (s.P j.ptn).waitLimit ≠ 0 → (s.tallyGet y - v).toInt < 0 →
      exec (.waitTimeout c) s =
        .next (s.except j.id j.ptn c.val c s.cl[c].pc (BitVec.ofNat 32 (rdLe s.cl[c].istore s.cl[c].pc.toNat 4)) 0 exWait)) ∧
    ((s.clk.gt.toNat ≤ since.toNat + 1000 * (s.P j.ptn).waitLimit.toNat ∨ (s.P j.ptn).waitLimit = 0 ∨ 0 ≤ (s.tallyGet y - v).toInt) →
      exec (.waitTimeout c) s = .next s))

/-- NOP and a DRAIN with nothing outstanding move the PC alone; TIME and CSRR write rd; a DRAIN with operations outstanding stalls; TRAP raises its
exception; END stalls until its conductor's operations have drained and, on rank 0, leaves the fields of the final record. -/
def Obligations.ControlResult : Prop :=
  (∀ (s : State) (c : Fin 32) (o : CtlF) (j : Job), Ready s c o.p 4 j →
    (o.rd = 0 → o.imm = 0 → ∃ t, exec (.nop c o) s = .next t ∧ OnlyPc s t c 4) ∧
    (o.rd = 0 → o.imm = 0 → s.pendingOf c = [] → ∃ t, exec (.drain c o) s = .next t ∧ OnlyPc s t c 4) ∧
    (o.rd = 0 → o.imm = 0 → s.pendingOf c ≠ [] → exec (.drain c o) s = .next (s.modC c fun k => { k with stall := .drain }).settle) ∧
    (o.imm = 0 → ∃ t, exec (.time c o) s = .next t ∧ WritesS s t c o.rd s.clk.gt (s.cl[c].pc + 4)) ∧
    (∀ n v, (n, v) ∈ ([ (0x000, BitVec.ofNat 64 c.val), (0x001, BitVec.ofNat 64 j.ptn.val), (0x002, BitVec.ofNat 64 s.cl[c].rank)
                      , (0x003, BitVec.ofNat 64 j.k), (0x004, BitVec.ofNat 64 (dTag j.desc))
                      , (0x005, BitVec.ofNat 64 ((s.clk.cyc10 - s.cl[c].startCyc) / 10)), (0x006, if j.cfg then 1 else 0)
                      , (0x010, BitVec.ofNat 64 s.devId) ] : List (Nat × W64)) →
      o.imm.toNat = n → ∃ t, exec (.csrr c o) s = .next t ∧ WritesS s t c o.rd v (s.cl[c].pc + 4)) ∧
    (o.rd = 0 → exec (.trap c o) s =
      .next (s.except j.id j.ptn c.val c s.cl[c].pc ((encodeWord (.trap c o)).getD (0, 0)).1 ((encodeWord (.trap c o)).getD (0, 0)).2 exTrap))) ∧
  (∀ (s : State) (c : Fin 32) (o : EndF) (j : Job), Ready s c o.p 4 j → s.dbg.traceEn.getLsbD c.val = false →
    exec (.endc c o) s = .next
      ((if s.cl[c].rank = 0 then
          s.modJob j.id fun x => { x with trunc := o.t, resultLen := (s.cl[c].rs o.rd).truncate 32
                                          result := s.cl[c].rs o.rb ++ s.cl[c].rs o.ra }
        else s).modC c fun k => { k with stall := .endDrain }).settle)

/-- An instruction whose predicate reads 0 changes nothing but the PC, whatever its fields hold (05 R113): the ALU, load, vector, tally, tensor,
ring and engine-issue classes. The exceptions of an instruction that is fetched past TEXT, holds a reserved value, or reaches the scalar data store
out of its rule: the job fails with the cause of Table 5.19 at that PC. -/
def Obligations.PredicateAndExceptions : Prop :=
  (∀ (s : State) (c : Fin 32) (j : Job) (p : Fin 8), s.cl[c].job.bind s.job? = some j → s.canIssue c = true → s.cl[c].rp p = false →
    s.cl[c].pc.toNat + 8 ≤ s.cl[c].textEnd →
    (∀ o : R3, o.p = p → ∀ i ∈ [Instr.add c o, .ceq c o, .vld c o [], .vst c o, .wait c o, .signal c o],
      ∃ t, exec i s = .next t ∧ OnlyPc s t c 4) ∧
    (∀ o : I12, o.p = p → ∀ i ∈ [Instr.slli c o, .ldw c o, .stx c o, .jalr c o], ∃ t, exec i s = .next t ∧ OnlyPc s t c 4) ∧
    (∀ o : V3, o.p = p → ∃ t, exec (.vbsort c o) s = .next t ∧ OnlyPc s t c 4) ∧
    (∀ o : Ten, o.p = p → ∃ t, exec (.pin c o) s = .next t ∧ OnlyPc s t c 4) ∧
    (∀ o : Rng, o.p = p → ∃ t, exec (.rsend c o) s = .next t ∧ OnlyPc s t c 4) ∧
    (∀ o : CtlF, o.p = p → ∃ t, exec (.trap c o) s = .next t ∧ OnlyPc s t c 4) ∧
    (∀ o : EngF, o.p = p → ∃ t, exec (.xmul c o) s = .next t ∧ OnlyPc s t c 8)) ∧
  ((∀ (s : State) (c : Fin 32) (o : R3) (j : Job), s.cl[c].job.bind s.job? = some j → s.canIssue c = true →
    s.cl[c].textEnd < s.cl[c].pc.toNat + 4 →
    exec (.add c o) s = .next (s.except j.id j.ptn c.val c s.cl[c].pc 0 0 exPcRange)) ∧
  (∀ (s : State) (c : Fin 32) (o : R3) (j : Job), Ready s c o.p 4 j → 8 ≤ o.rd.val →
    ∃ w, encodeWord (.ceq c o) = some w ∧ exec (.ceq c o) s = .next (s.except j.id j.ptn c.val c s.cl[c].pc w.1 w.2 exIllegal)) ∧
  (∀ (s : State) (c : Fin 32) (o : I12) (j : Job), Ready s c o.p 4 j → 32768 ≤ (s.cl[c].rs o.ra + o.imm.signExtend 64).toNat →
    ∃ w, encodeWord (.stb c o) = some w ∧ exec (.stb c o) s = .next (s.except j.id j.ptn c.val c s.cl[c].pc w.1 w.2 exSds)) ∧
  (∀ (s : State) (job : Nat) (p : Fin 16) (unit : Nat) (c : Fin 32) (pc : W16) (w1 w2 : W32) (e : Exc), s.dbg.traceEn.getLsbD c.val = false →
    ∃ u : State, s.except job p unit c pc w1 w2 e = u.failJob job (excRec unit c pc w1 w2 e) ∧ { u with ptn := s.ptn } = s ∧
      (∀ q : Fin 16, q ≠ p → u.P q = s.P q) ∧
      (u.P p).excCause.toNat = e.cause % 256 ∧ (u.P p).excCluster.toNat = c.val ∧ (u.P p).excPc = pc ∧
      (u.P p).cnt[Ctr.cndExc.ix] = satAdd (s.P p).cnt[Ctr.cndExc.ix] 1))

/-! ## Engine, ring and tensor issue (05 R123-R130) -/

/-- An engine operation that its queue has room for joins it with copies of its descriptors and of s[SP]; with 16 queued the conductor stalls.
KVCMP: the command of the function that s[SP] names joins the GSE queue, and a function other than COMPACT starts at once where the head of the
queue can; with 16 queued the conductor stalls; the command of another function of Table 12.1 changes nothing (12 R285, R286; 05 R128). -/
def Obligations.EngineIssue : Prop :=
  (∀ (s : State) (c : Fin 32) (o : EngF) (j : Job), Ready s c o.p 8 j → (o.notally = true ∧ o.tally = 0 ∨ o.notally = false) →
    (o.notally = false → (csTallies (s.jobSet j)).testBit (o.tally.toNat / 1024) = true) →
    ∀ e ∈ ([ (.xmul c o, .mxa, .xmul, !o.den && o.dD == 0), (.mvmul c o, .mvp, .mvmul, !o.den && o.dD == 0)
           , (.topk c o, .ssu, .topk, !o.den && o.dD == 0 && o.dB == 0 && !o.accum)
           , (.lscan c o, .lse, .lscan, (o.den || o.dD == 0) && !o.accum)
           , (.gath c o, .gse, .gath, !o.den && o.dD == 0 && !o.accum), (.scat c o, .gse, .scat, !o.den && o.dD == 0 && !o.accum)
           , (.samp c o, .smu, .samp, (o.den || o.dD == 0) && !o.accum)
           , (.mconv c o, .mge, .mconv, !o.den && o.dD == 0 && o.dB == 0 && !o.accum)
           , (.ttok c o, .txu, .ttok, !o.den && o.dD == 0 && !o.accum), (.tdtk c o, .txu, .tdtk, !o.den && o.dD == 0 && o.dC == 0 && !o.accum)
           , (.hrd c o, .hdma, .hrd, !o.den && o.dD == 0 && o.dA == 0 && o.dB == 0 && !o.accum)
           , (.hwr c o, .hdma, .hwr, !o.den && o.dD == 0 && o.dB == 0 && o.dC == 0 && !o.accum) ] : List (Instr × QKind × EngOp × Bool)),
      e.2.2.2 = true →
        ∃ x : Op, (x.id = s.nextOp ∧ x.k = e.2.1 ∧ x.mn = e.2.2.1 ∧ x.c = c ∧ x.job = j.id ∧ x.ptn = j.ptn ∧ x.pc = s.cl[c].pc ∧
            x.dA = s.cl[c].d[o.dA] ∧ x.dB = s.cl[c].d[o.dB] ∧ x.dC = s.cl[c].d[o.dC] ∧ x.dD = s.cl[c].d[o.dD] ∧ x.den = o.den ∧
            x.accum = o.accum ∧ x.sp = s.cl[c].rs o.sp ∧ x.notally = o.notally ∧ x.tally = o.tally.toNat ∧ x.run = none ∧ x.cbs = []) ∧
          ((s.queued c e.2.1).length < 16 →
            exec e.1 s = .next ({ s with ops := s.ops ++ [x], nextOp := s.nextOp + 1 }.modC c fun k => { k with pc := k.pc + 8 })) ∧
          (16 ≤ (s.queued c e.2.1).length →
            exec e.1 s = .next ({ s with nextOp := s.nextOp + 1 }.modC c fun k => { k with stall := .queue x s.clk.cyc10 }).settle)) ∧
  (∀ (s : State) (c : Fin 32) (o : EngF) (j : Job), Ready s c o.p 8 j → (o.notally = true ∧ o.tally = 0 ∨ o.notally = false) →
    (o.notally = false → (csTallies (s.jobSet j)).testBit (o.tally.toNat / 1024) = true) → o.den = false → o.dD = 0 → o.dC = 0 → o.accum = false →
    ∀ e ∈ ([ (.kvcmpOpen c o, 0), (.kvcmpReserve c o, 1), (.kvcmpSetlen c o, 2), (.kvcmpCompact c o, 3), (.kvcmpState c o, 4), (.kvcmpClose c o, 5) ]
          : List (Instr × Nat)),
      (fld (s.cl[c].rs o.sp) 12 3 ≠ e.2 → fld (s.cl[c].rs o.sp) 12 3 ≤ 5 → exec e.1 s = .next s) ∧
      (fld (s.cl[c].rs o.sp) 12 3 = e.2 →
        ∃ x : Op, (x.id = s.nextOp ∧ x.k = .gse ∧ x.mn = .kvcmp ∧ x.c = c ∧ x.job = j.id ∧ x.ptn = j.ptn ∧ x.pc = s.cl[c].pc ∧
            x.dA = s.cl[c].d[o.dA] ∧ x.dB = s.cl[c].d[o.dB] ∧ x.sp = s.cl[c].rs o.sp ∧ x.notally = o.notally ∧ x.tally = o.tally.toNat ∧
            x.run = none ∧ x.cbs = []) ∧
          ((s.queued c .gse).length < 16 →
            let t := { s with ops := s.ops ++ [x], nextOp := s.nextOp + 1 }.modC c fun k => { k with pc := k.pc + 8 }
            exec e.1 s = .next (if e.2 = 3 then t else t.startHead c .gse)) ∧
          (16 ≤ (s.queued c .gse).length →
            let t := ({ s with nextOp := s.nextOp + 1 }.modC c fun k => { k with stall := .queue x s.clk.cyc10 }).settle
            exec e.1 s = .next (if e.2 = 3 then t else t.startHead c .gse))))

/-- RSEND, RRECV and RREDUCE join the queue of their VC with the data descriptor, the peer word and the tally of s[RD]. -/
def Obligations.RingIssue : Prop :=
  ∀ (s : State) (c : Fin 32) (o : Rng) (j : Job) (d : Fin 16) (y : Nat), Ready s c o.p 4 j → o.ra.val = d.val → (o.vc = 1 ∨ o.vc = 2) →
    NamesTally s c j o.rd y →
    ∀ e ∈ ([ (.rsend c o, .rsend, o.rop == 0), (.rrecv c o, .rrecv, o.rop == 0)
           , (.rreduce c o, .rreduce, decide (o.rop.val ≤ 2) && (tFmt s.cl[c].d[d] == 4 || tFmt s.cl[c].d[d] == 6)) ] : List (Instr × EngOp × Bool)),
      e.2.2 = true → (s.queued c (if o.vc = 1 then .vc1 else .vc2)).length < 16 →
        ∃ x : Op, (x.id = s.nextOp ∧ x.k = (if o.vc = 1 then .vc1 else .vc2) ∧ x.mn = e.2.1 ∧ x.c = c ∧ x.job = j.id ∧ x.ptn = j.ptn ∧
            x.dA = s.cl[c].d[d] ∧ x.sp = s.cl[c].rs o.rb ∧ x.tally = y ∧ x.run = none) ∧
          exec e.1 s = .next ({ s with ops := s.ops ++ [x], nextOp := s.nextOp + 1 }.modC c fun k => { k with pc := k.pc + 4 })

/-- The tally of a tensor instruction: none with NT 1, else the local tally of s[RB]. -/
def TensorTally (s : State) (c : Fin 32) (j : Job) (o : Ten) (y : Option Nat) : Prop :=
  (o.nt = true ∧ o.rb = 0 ∧ y = none) ∨ (o.nt = false ∧ ∃ z, NamesTally s c j o.rb z ∧ y = some z)

/-- PIN, UNPIN and MIG write their status of Table 5.11 to s[RD]; a status other than OK leaves every tensor as it was, and an accepted set waits
for its tally as `settleWaits` releases it (05 R123, R124). -/
def Obligations.TensorIssue : Prop :=
  ∀ (s : State) (c : Fin 32) (o : Ten) (j : Job) (y : Option Nat), Ready s c o.p 4 j → o.ra.val + o.cnt.val ≤ 31 → TensorTally s c j o y →
    let q := s.P j.ptn
    let die := dieOfCluster c
    -- pins of accepted PINs that wait for a move
    let coming := fun (t : Tensor) => (t.next.filter (·.pinJob.isSome)).length
    let adv := fun (u : State) (st : Nat) => u.modC c fun k => { k.ws o.rd (BitVec.ofNat 64 st) with pc := k.pc + 4 }
    let pend := fun (u : State) (b : List Nat) (ops : List Nat) (un : Bool) =>
      (u.modP j.ptn fun x => { x with waits := x.waits ++ [{ job := j.id, bases := b, ops := ops, unpin := un, tally := y }] }).settleWaits j.ptn
    (tenBases q s.cl[c] o = none →
      (o.tier = 0 → exec (.pin c o) s = .next (adv s 2)) ∧ (o.tier = 0 → exec (.unpin c o) s = .next (adv s 2)) ∧
      (o.tier.val ≤ 2 → exec (.mig c o) s = .next (adv s 2))) ∧
    ∀ b, tenBases q s.cl[c] o = some b →
      let l := b.filterMap q.tensor
      (o.tier = 0 → (∃ t ∈ l, 65535 ≤ t.pins + coming t) → exec (.pin c o) s = .next (adv s 3)) ∧
      (o.tier = 0 → (∀ t ∈ l, t.pins + coming t < 65535) → (s.pinSet j die l = none → exec (.pin c o) s = .next (adv (s.bump j.ptn .noRoom 1) 1)) ∧
        ∀ u, s.pinSet j die l = some u → exec (.pin c o) s = .next (adv (pend u b [] false) 0)) ∧
      (o.tier = 0 → (∃ t ∈ l, q.pinsLeft t = 0) → exec (.unpin c o) s = .next (adv s 5)) ∧
      (o.tier = 0 → (∀ t ∈ l, q.pinsLeft t ≠ 0) →
        exec (.unpin c o) s = .next (adv (pend s b ((s.ops.filter (·.job == j.id)).map (·.id)) true) 0)) ∧
      (o.tier.val ≤ 2 → (∃ t ∈ l, 0 < t.pins) → exec (.mig c o) s = .next (adv s 4)) ∧
      (o.tier.val ≤ 2 → (∀ t ∈ l, t.pins = 0 ∧ t.next.all (·.pinJob.isNone) = true) →
        (s.migSet j die o.tier.val l = none → exec (.mig c o) s = .next (adv (s.bump j.ptn .noRoom 1) 1)) ∧
        ∀ u, s.migSet j die o.tier.val l = some u → exec (.mig c o) s = .next (adv (pend u b [] false) 0))

/-! ## The host link, its rings and doorbells (03) -/

/-- Doorbells through the bound VF act on their ring (an index at or above the ring's size is taken modulo the size: the model's choice, log 65);
a tail doorbell of a job ring whose EN is 0 is counted in HL_DB_DROP; through the unbound VF every doorbell is discarded and counted (03 R58, R61,
R66, R75, R76; 18 R419). What a freed slot lets the device write follows in `pump`. -/
def Obligations.Doorbells : Prop :=
  (∀ (s : State) (io : Fin 2) (n : Fin 16) (v : W32), s.fnAlive (.vf io n) = true → s.up = true →
    (s.ioOf n = some io →
      (∀ r : Fin 8,
        ((s.P n).jr[r].en = true → exec (.jrTailDb (.vf io n) r v) s =
          .next (s.modP n fun q => q.modJr r fun j => { j with tail := BitVec.ofNat 12 (v.toNat % 4096 % (64 * 2 ^ j.size.toNat)) })) ∧
        ((s.P n).jr[r].en = false → exec (.jrTailDb (.vf io n) r v) s = .next (s.bump n .hlDbDrop 1)) ∧
        ((s.P n).cr[r].en = true → exec (.crHeadDb (.vf io n) r v) s =
          .next (s.modP n fun q => q.modCr r fun c => { c with head := BitVec.ofNat 12 (v.toNat % 4096 % (64 * 2 ^ c.size.toNat)) }))) ∧
      (∀ r : Fin 16, (s.P n).sr[r].en = true → exec (.srHeadDb (.vf io n) r v) s =
        .next ((s.modP n fun q => q.modSr r fun c => { c with head := BitVec.ofNat 12 (v.toNat % 4096 % (64 * 2 ^ c.size.toNat)) }).pump n)) ∧
      exec (.erHeadDb (.vf io n) v) s =
        .next ((s.modP n fun q => { q with er := { q.er with head := BitVec.ofNat 10 (v.toNat % 256) } }).pump n)) ∧
    (∀ b, s.ioOf n = some b → b ≠ io →
      (∀ r : Fin 8, exec (.jrTailDb (.vf io n) r v) s = .next (s.bump n .hlDbDrop 1) ∧
        exec (.crHeadDb (.vf io n) r v) s = .next (s.bump n .hlDbDrop 1)) ∧
      (∀ r : Fin 16, exec (.srHeadDb (.vf io n) r v) s = .next (s.bump n .hlDbDrop 1)) ∧
      exec (.erHeadDb (.vf io n) v) s = .next (s.bump n .hlDbDrop 1) ∧
      exec (.faultResumeDb (.vf io n) v) s = .next (s.bump n .hlDbDrop 1) ∧
      exec (.cancelDb (.vf io n) v) s = .next (s.bump n .hlDbDrop 1))) ∧
  (∀ (s : State) (fn : Fn) (v : W32), s.owner fn = true → exec (.gerHeadDb fn v) s =
    .next ({ s with err := { s.err with ger := { s.err.ger with head := BitVec.ofNat 10 (v.toNat % 1024) } } }.pumpAll))

/-- Enabling a ring whose EN reads 0 starts it afresh: the job ring's head and tail, or the completion or stream ring's write and consumer indices,
are 0, the next PHASE is 1, HALT and WFAIL clear, and SIZE takes the value written (03 R77, R81, R523; the reserved SIZE 7 leaves it, log 26); no
other ring and no other partition changes. Clearing EN: a job ring stops at once; a completion or stream ring reads EN 1 until nothing is left to
write to it; an error ring stops at once and what waited for it is dropped (03 R78; 18 R435). -/
def Obligations.RingControl : Prop :=
  (∀ (s : State) (fn : Fn) (p : Fin 16) (z : BitVec 3), s.reach fn p = true →
    (∀ r : Fin 8, (s.P p).jr[r].en = false → ∃ u, exec (.ringEnable fn p (RingRef.jr r) z) s = .next u.pumpAll ∧
      { u with ptn := s.ptn, xfers := s.xfers } = s ∧ OnlyP p { s with xfers := u.xfers } u ∧ { u.P p with jr := (s.P p).jr } = s.P p ∧
      (∀ x : Fin 8, x ≠ r → (u.P p).jr[x] = (s.P p).jr[x]) ∧
      (u.P p).jr[r] = { (s.P p).jr[r] with en := true, halt := false, head := 0, tail := 0, fetched := 0
                                           size := if z = 7 then (s.P p).jr[r].size else z } ∧
      u.xfers.map (fun x => { x with live := true }) = s.xfers.map (fun x => { x with live := true })) ∧
    (∀ r : Fin 8, (s.P p).cr[r].en = false → ∃ u, exec (.ringEnable fn p (.cr r) z) s = .next u.pumpAll ∧ OnlyP p s u ∧
      { u.P p with cr := (s.P p).cr } = s.P p ∧ (∀ x : Fin 8, x ≠ r → (u.P p).cr[x] = (s.P p).cr[x]) ∧
      (u.P p).cr[r] = { base := (s.P p).cr[r].base, en := true, size := if z = 7 then (s.P p).cr[r].size else z, stall := false, wfail := false
                        tail := 0, phase := true, head := 0, resv := 0, clearing := false, outq := [] }) ∧
    (∀ r : Fin 16, (s.P p).sr[r].en = false → ∃ u, exec (.ringEnable fn p (.sr r) z) s = .next u.pumpAll ∧ OnlyP p s u ∧
      { u.P p with sr := (s.P p).sr } = s.P p ∧ (∀ x : Fin 16, x ≠ r → (u.P p).sr[x] = (s.P p).sr[x]) ∧
      (u.P p).sr[r] = { base := (s.P p).sr[r].base, en := true, size := if z = 7 then (s.P p).sr[r].size else z, stall := false, wfail := false
                        tail := 0, phase := true, head := 0, resv := 0, clearing := false, outq := [] }) ∧
    ((s.P p).er.en = false → exec (.ringEnable fn p .er z) s =
      .next ((s.modP p fun q => { q with er := { q.er with en := true, tail := 0, head := 0, phase := true, wfail := false } }).pumpAll))) ∧
  ((∀ (s : State) (fn : Fn) (p : Fin 16), s.reach fn p = true →
    (∀ r : Fin 8, exec (.ringDisable fn p (RingRef.jr r)) s = .next ((s.modP p fun q => q.modJr r fun j => { j with en := false }).pumpAll) ∧
      ((s.P p).cr[r].en = true →
        ((s.P p).cr[r].resv = 0 ∧ (s.P p).cr[r].outq = [] → exec (.ringDisable fn p (.cr r)) s =
          .next ((s.modP p fun q => q.modCr r fun c => { c with en := false, clearing := false }).pumpAll)) ∧
        ((s.P p).cr[r].resv ≠ 0 ∨ (s.P p).cr[r].outq ≠ [] → exec (.ringDisable fn p (.cr r)) s =
          .next ((s.modP p fun q => q.modCr r fun c => { c with clearing := true }).pumpAll)))) ∧
    (∀ r : Fin 16, (s.P p).sr[r].en = true → (s.P p).sr[r].resv = 0 →
      ((s.P p).sr[r].outq = [] → exec (.ringDisable fn p (.sr r)) s =
        .next ((s.modP p fun q => q.modSr r fun c => { c with en := false, clearing := false }).pumpAll)) ∧
      ((s.P p).sr[r].outq ≠ [] → exec (.ringDisable fn p (.sr r)) s =
        .next ((s.modP p fun q => q.modSr r fun c => { c with clearing := true }).pumpAll))) ∧
    ((s.P p).er.en = true → (∀ x ∈ s.xfers, x.ptn ≠ p) →
      ∃ u : State, exec (.errorRingDisable fn (some p)) s = .next u.pumpAll ∧ { u with ptn := s.ptn, err := s.err } = s ∧
        (∀ q : Fin 16, q ≠ p → u.P q = s.P q) ∧ (u.P p) = { s.P p with er := (u.P p).er } ∧
        (u.P p).er = { (s.P p).er with en := false, waitq := [], ovf := (u.P p).er.ovf } ∧ u.err.ger = s.err.ger ∧
        ((s.P p).er.waitq = [] → u = s.modP p fun q => { q with er := { q.er with en := false } }))) ∧
  (∀ (s : State) (fn : Fn), s.owner fn = true → s.err.ger.en = true →
    ∃ u : State, exec (.errorRingDisable fn none) s = .next u.pumpAll ∧ { u with err := s.err } = s ∧
      u.err.ger = { s.err.ger with en := false, waitq := [], ovf := u.err.ger.ovf } ∧
      (s.err.ger.waitq = [] → u = { s with err := { s.err with ger := { s.err.ger with en := false } } })))

/-- The host links: a link that leaves L0 reads down with the time noted; one that has been out of L0 for 100 ms is reported in the ring of every
partition bound to its die by an S3 record, contained as a fence of cause 3; a link that comes up at a width and rate of its form takes them and lets
what waited go on; PERST1# resets IO1 alone (03 R56, R80, R82, R83; 18 R436; 20 R466). -/
def Obligations.HostLinks : Prop :=
  (∀ (s : State) (io : Fin 2),
    (s.io[io].link = true → exec (.hostLinkDown io) s =
      .next (s.modIo io fun d => { d with link := false, width := 0, rate := 0, downAt := some s.clk.gt })) ∧
    (∀ t, s.io[io].downAt = some t → s.io[io].link = false →
      (s.clk.gt.toNat < t.toNat + 100000000 → exec (.linkLossTimeout io) s = .next s) ∧
      (t.toNat + 100000000 ≤ s.clk.gt.toNat →
        (let u := s.modIo io fun d => { d with downAt := none }
         exec (.linkLossTimeout io) s = .next (((if io = 0 then u.gerStop else u).each (List.finRange 16) fun v p =>
           if v.ioOf p = some io then State.contain (v.issue { recOf 3 7 3 (unitIo io) with ptn := some p }) (some p) none 0 3 else v).pumpAll)) ∧
        ((∀ p, s.ioOf p ≠ some io) → s.err.ger.en = false →
          exec (.linkLossTimeout io) s = .next ((s.modIo io fun d => { d with downAt := none }).pumpAll)))) ∧
    (∀ w r, (w = 1 ∨ w = 2) → r.toNat ≤ 5 → s.io[io].inReset = false → (io = 1 → s.fuses.i2 = true) → s.pwr.rails = true →
      exec (.hostLinkUp io w r) s =
        .next ((s.modIo io fun d => { d with link := true, width := w, rate := r, downAt := none }).kick.failDoomed)) ∧
    (∀ w r, w ≠ 1 ∧ w ≠ 2 ∨ 6 ≤ r.toNat ∨ s.io[io].inReset = true ∨ s.pwr.rails = false → exec (.hostLinkUp io w r) s = .next s)) ∧
  (∀ s : State,
    (s.fuses.i2 = true → ∃ t : State, exec .perst1Assert s = .next t ∧ { t with pwr := s.pwr, io := s.io } = s ∧
      t.pwr = { s.pwr with perst1 := true } ∧ t.io[0] = s.io[0] ∧ t.io[1].inReset = true ∧ t.io[1].link = false ∧ t.io[1].sriov = false) ∧
    (s.fuses.i2 = true → s.pwr.rails = true → exec .perst1Deassert s =
      .next ({ s with pwr := { s.pwr with perst1 := false } }.modIo 1 fun d => { d with inReset := false })) ∧
    (s.fuses.i2 = false → exec .perst1Assert s = .next { s with pwr := { s.pwr with perst1 := true } } ∧
      exec .perst1Deassert s = .next { s with pwr := { s.pwr with perst1 := false } })) ∧
  (∀ (s : State) (fn : Fn), s.fnHere fn = true →
    (∀ b : Bool,
      exec (.pcieConfigWrite fn (.busMaster b)) s = .next (s.modIo (fnIo fn) fun d => { d with bme := d.bme.set (fnIx fn) b }) ∧
      (∀ mps mrrs : BitVec 3, mps.toNat ≤ 2 → mrrs.toNat ≤ 5 → exec (.pcieConfigWrite fn (.devControl b mps mrrs)) s =
        .next (s.modIo (fnIo fn) fun d => { d with relaxed := d.relaxed.set (fnIx fn) b, mps := d.mps.set (fnIx fn) mps
                                                   mrrs := d.mrrs.set (fnIx fn) mrrs })) ∧
      exec (.pcieConfigWrite fn (.power b)) s = .next (s.modIo (fnIo fn) fun d => { d with d3 := d.d3.set (fnIx fn) b })) ∧
    (∀ io, fn = .pf io →
      exec (.pcieConfigWrite fn (.sriovEnable true)) s = .next (s.modIo io fun d => { d with sriov := true }) ∧
      (∃ t, exec (.pcieConfigWrite fn (.sriovEnable false)) s = .next t ∧ { t with io := s.io } = s ∧ t.io[io].sriov = false ∧
        (∀ k : Fin 2, k ≠ io → t.io[k] = s.io[k]) ∧ t.io[io].bme[0] = s.io[io].bme[0] ∧ t.io[io].d3[0] = s.io[io].d3[0]) ∧
      (io = 1 → ∃ t, exec (.functionLevelReset fn) s = .next t ∧ { t with io := s.io } = s ∧ t.io[0] = s.io[0] ∧
        t.io[1] = { s.io[1] with sriov := false, bme := Vector.replicate 17 false, relaxed := Vector.replicate 17 true
                                 mps := Vector.replicate 17 0, mrrs := Vector.replicate 17 2, d3 := Vector.replicate 17 false })) ∧
    (∀ io n, fn = .vf io n → s.ioOf n = some io →
      exec (.functionLevelReset fn) s = .next ((s.modIo io fun d => d.resetFn fn).resetPtn n)))

/-! ## Admission and jobs (03 R64, R65; 04) -/

/-- Where a ring fetches, no batch of it is in flight and its link is up, FETCH_BATCH takes n descriptors: at most 16, at most those that wait, and at
most half the spare slots of completion ring r, of which it holds two for each; it starts at the head, with a second part at slot 0 where it
reaches the ring's end; with n 0 it changes nothing (03 R64). A descriptor that arrives moves the head and the fetch count, waits for its decision,
and leaves the batch, whose last one is followed by the head mirror; with `wait` it is left undecided; without, all that wait are decided, and with
nothing else waiting and no cancel held that is this descriptor alone; a failed read ends the batch through `failBatch` (03 R65, R81). The
descriptor decided next is that of the ring that comes first after the ring decided last (04 R90). A descriptor decided for a fenced partition makes
no job and changes no operation, tally, tensor or byte of memory, and queues one notice, of code 5, on a completion ring that takes records. -/
def Obligations.DescriptorFetch : Prop :=
  (∀ (s : State) (p : Fin 16) (r : Fin 8), s.fetching p r = true → s.batch p r = [] → s.io[s.dmaIo p (s.P p).swap.active].link = true →
    let j := (s.P p).jr[r]
    let n := min 16 (min j.waiting ((s.P p).cr[r].spare / 2))
    let n1 := min n (j.slots - j.head.toNat)
    let part := fun (slot k : Nat) (wrap : Option Nat) =>
      { blankX p (s.P p).swap.active 5 (fld j.base 12 36 * 4096 + 128 * slot) (128 * k) false with ring := RingRef.jr r, slot := slot, op := wrap }
    let u0 := s.modP p fun q => q.modCr r fun c => if c.wfail then c else { c with resv := c.resv + 2 * n }
    let u1 := u0.newX (part j.head.toNat n1 none)
    let u := if n1 < n then u1.newX (part 0 (n - n1) (some 1)) else u1
    (n = 0 → exec (.fetchBatch p r) s = .next s) ∧
    (0 < n → exec (.fetchBatch p r) s = .next ((u.each ((u.batch p r).map (·.id)) fun v id => v.runX id).pumpAll))) ∧
  (∀ (s : State) (p : Fin 16) (r : Fin 8) (x : Xfer) (rest : List Xfer), s.running = true → s.batch p r = x :: rest → 128 * (x.base + 1) ≤ x.done →
    (∀ w, exec (.descriptorArrival p r none w) s = .next ((s.failBatch p r (s.dmaIo p x.cfg) (x.iova + 128 * x.base)).pumpAll)) ∧
    (∀ d : BitVec 1024, x.live = true →
      let slot := x.slot + x.base
      let last := decide (x.len ≤ 128 * (x.base + 1))
      let taken := fun (v : State) => if last then v.delX x.id else v.modX x.id fun y => { y with base := y.base + 1 }
      let moved := fun (q : Ptn) => q.modJr r fun j =>
        { j with head := BitVec.ofNat 12 ((slot + 1) % (64 * 2 ^ j.size.toNat)), fetched := j.fetched + 1 }
      let ends := fun (v : State) => (if last && rest.isEmpty then v.mirror p r else v).pumpAll
      let u := (taken (s.modP p moved)).modP p fun q =>
        { q with undec := q.undec ++ [{ ring := r, slot := slot, fseq := (s.P p).jr[r].fetched, desc := d }] }
      exec (.descriptorArrival p r (some d) true) s = .next (ends u) ∧
      exec (.descriptorArrival p r (some d) false) s = .next (ends (State.decideAll p (u.P p).undec.length u)) ∧
      ((s.P p).undec = [] → (s.P p).cancels = [] → exec (.descriptorArrival p r (some d) false) s =
        .next (ends ((taken (s.modP p fun q => { moved q with turn := r })).decideJob p r slot (s.P p).jr[r].fetched d))))) ∧
  (∀ (q : Ptn) (u : Undec), q.nextUndec = some u →
    u ∈ q.undec ∧ ∀ v ∈ q.undec, (u.ring.val + 7 - q.turn.val) % 8 ≤ (v.ring.val + 7 - q.turn.val) % 8) ∧
  (∀ (s : State) (p : Fin 16) (r : Fin 8) (slot : Nat) (fseq : W32) (d : BitVec 1024), (s.P p).fenced = true →
    ∃ t : State, s.decideJob p r slot fseq d = t ∧ t.jobs = s.jobs ∧ t.ops = s.ops ∧ t.tallies = s.tallies ∧ (t.P p).dir = (s.P p).dir ∧
      (t.P p).mem = (s.P p).mem ∧
      ((s.P p).cr[r].en = true → (s.P p).cr[r].wfail = false →
        ∃ o : RecOut, (t.P p).cr[r].outq = (s.P p).cr[r].outq ++ [o] ∧ o.op = some 0 ∧ fld o.data 64 8 = 1 ∧ fld o.data 72 8 = 5))

/-- The admission decision of Table 4.2, its steps in order: REFUSE_FENCED for a fenced or fencing partition; REFUSE_MALFORMED with the first
offending field; REFUSE_QUOTA for a class without slots, then for work above the ceiling; REFUSE_DEADLINE where the deadline precedes the estimated
finish, which rests on the estimated start of the outcome to come (the model's choice, log 29); REFUSE_NO_ROOM with the first resource that falls
short; ADMIT where the class has a free slot and no deferred job, and a C0 job its clusters; DEFER while the class's defer queue has room; else
REFUSE_SATURATED; each with the code and the DETAIL of the table (04 R90, R91). -/
def Obligations.AdmissionDecision : Prop :=
  ∀ (s : State) (j : Job), let q := s.P j.ptn; let d := s.decision j; let c := dClass j.desc
    (q.fenced = true → d.code = 5 ∧ d.detail = 1) ∧
    (q.fenced = false → q.fencing = true → d.code = 5 ∧ d.detail = 2) ∧
    (q.fenced = false → q.fencing = false →
      (∀ off det, malformed q j.desc = some (off, det) → d = ⟨6, det, off, 0⟩) ∧
      (malformed q j.desc = none →
        let fits := s.slotsUsed j.ptn c < csSlots q.act c ∧ s.deferDepth j.ptn c = 0 ∧ (c = 0 → j.k ≤ (s.freeClusters j).length)
        (csSlots q.act c = 0 → d.code = 2 ∧ d.detail = 1) ∧
        (csSlots q.act c ≠ 0 →
          (csWuCeil q.act < dWork j.desc + s.wuOut j.ptn → d.code = 2 ∧ d.detail = 2) ∧
          (dWork j.desc + s.wuOut j.ptn ≤ csWuCeil q.act → ∀ est : Nat, (fits → est = s.clk.gt.toNat) → (¬ fits → est = s.estStart j) →
            let e := ((q.img q.swap.active).entries[dEntry j.desc]?).getD { pc := 0, k := 1, t0 := 0, t1 := 0, kv := 0, buf := 0 }
            let ends := est + s.estDur (dWork j.desc) j.k
            (dDeadline j.desc ≠ 0 → dDeadline j.desc < ends →
              d.code = 4 ∧ d.detail = (if dDeadline j.desc ≤ s.clk.gt.toNat then 1 else 2)) ∧
            (dDeadline j.desc = 0 ∨ ends ≤ dDeadline j.desc →
              (s.roomFor j.ptn q.act e j.desc ≠ 0 → d.code = 7 ∧ d.detail = s.roomFor j.ptn q.act e j.desc) ∧
              (s.roomFor j.ptn q.act e j.desc = 0 →
                (fits → d.code = 0 ∧ d.detail = 0 ∧ d.est = s.clk.gt.toNat) ∧
                (¬ fits → d.est = s.estStart j ∧
                  (s.deferDepth j.ptn c < csDeferMax q.act c → d.code = 1 ∧ d.detail = 0) ∧
                  (csDeferMax q.act c ≤ s.deferDepth j.ptn c → d.code = 3 ∧ d.detail = (if csDeferMax q.act c = 0 then 2 else 1)))))))))

/-- An argument block that has arrived is the job's, which can then start; a failed read of it ends the job through `failX`. The first deferred job
of a class is promoted while a slot of the class is free, and, in class C0, enough clusters are: it is admitted, holds a slot, claims the
lowest-numbered free clusters where its class is C0 (the model's choice, log 69), and can start where it has no argument block, else its block is
fetched. The next admitted job whose argument block is there starts while enough clusters are free: it runs, and each cluster it starts on takes its
rank, the entry point, the image's TEXT and SDATA, and the registers of Table 5.16; no other cluster and nothing else changes; an image with an
uncorrectable error fails it with ENGINE_DATA (03 R63, R81; 04 R94, R96; 05 R132; 08 R219). -/
def Obligations.JobStarts : Prop :=
  (∀ (s : State) (id : Nat) (j : Job) (x : Xfer), s.liveJob id = some j →
    (s.xfers.find? fun x => x.chan == 6 && x.job == some id) = some x → x.st = .issued →
    (∀ bs : List Byte, bs.length = dArgLen j.desc →
      exec (.argBlockFetched id (.data bs)) s = .next ((s.delX x.id).modJob id fun j => { j with argReady := true, arg := memOf bs })) ∧
    exec (.argBlockFetched id .failed) s = .next (s.failX x 5 x.iova stError)) ∧
  (∀ (s : State) (p : Fin 16) (cls : Fin 4) (j : Job), firstBy jobBefore (s.jobsIn p cls.val Job.waits) = some j → s.running = true →
    s.slotsUsed p cls.val < csSlots (s.P p).act cls.val → (cls = 0 → j.k ≤ (s.freeClusters j).length) →
    let u := fun (ready : Job → Bool) => s.modJob j.id fun i =>
      { i with ph := .admitted, slotHeld := true, clusters := if dClass j.desc = 0 then (s.freeClusters j).take j.k else [], argReady := ready i }
    (dArgLen j.desc = 0 → exec (.deferPromote p cls) s = .next (u fun _ => true).pumpAll) ∧
    (dArgLen j.desc ≠ 0 → exec (.deferPromote p cls) s = .next (((u (·.argReady)).startX
      { blankX j.ptn j.cfg 6 (dArgIova j.desc) (dArgLen j.desc) false with job := some j.id }).pumpAll))) ∧
  (∀ (s : State) (p : Fin 16) (j : Job) (e : Entry), s.nextStart p = some j → ((s.P p).img j.cfg).entries[dEntry j.desc]? = some e →
    s.running = true → s.startOn j ≠ [] →
    let runs := s.jobs.map (fun x => if x.id = j.id then { x with ph := .running, start := s.clk.gt, startCyc := s.clk.cyc10, clusters := s.startOn j }
                                     else x)
    let first := (s.startOn j).headD 0
    (((s.P p).img j.cfg).bad = true → exec (.jobStart p []) s =
      .next ({ s with jobs := runs }.except j.id j.ptn first.val first (BitVec.ofNat 16 e.pc) 0 0 exData)) ∧
    (((s.P p).img j.cfg).bad = false → ∃ t, exec (.jobStart p []) s = .next t ∧ { t with cl := s.cl, jobs := s.jobs } = s ∧ t.jobs = runs ∧
      (∀ c : Fin 32, c ∉ s.startOn j → t.cl[c] = s.cl[c]) ∧
      (∀ c : Fin 32, c ∈ s.startOn j → t.cl[c].job = some j.id ∧ t.cl[c].rank = (s.startOn j).idxOf c ∧ t.cl[c].pc = BitVec.ofNat 16 e.pc ∧
        t.cl[c].istore = ((s.P p).img j.cfg).text ∧ t.cl[c].textEnd = ((s.P p).img j.cfg).textEnd ∧ t.cl[c].sds = ((s.P p).img j.cfg).sdata ∧
        t.cl[c].stall = .none ∧ t.cl[c].ended = false ∧ t.cl[c].v = Vector.replicate 32 0 ∧ t.cl[c].p = Vector.replicate 8 false ∧
        (∀ i : Fin 32, t.cl[c].s[i] =
          if 1 ≤ i.val ∧ i.val ≤ 8 then BitVec.ofNat 64 (fld j.desc (512 + 64 * (i.val - 1)) 64)
          else if i = 9 then BitVec.ofNat 64 (dTag j.desc) else if i = 10 then BitVec.ofNat 64 (dArgLen j.desc)
          else if i = 11 then BitVec.ofNat 64 ((s.startOn j).idxOf c) else if i = 12 then BitVec.ofNat 64 j.k else 0) ∧
        (∀ i : Fin 16, t.cl[c].d[i] = if i = 0 then argDesc (dArgLen j.desc) else 0))))

/-- A deferred, admitted or running job ends through `endJob`: DEADLINE when global time has reached its deadline (15 R361 says so of a forward
step; of any other instant the model's reading, log 97) and not before; with the status of 04 R98 when it runs, every one of its conductors has
ended and none of its operations is left, and not before. A cancel ends the most recently fetched live job that its word names CANCELLED; one that
names a fetched and undecided job is held for it; one that names none is discarded and counted (04 R96-R101; 05 R136; 15 R361). Once a job has ended
no conductor runs it (04 R99). -/
def Obligations.JobEnds : Prop :=
  (∀ (s : State) (id : Nat) (j : Job), s.liveJob id = some j →
    (dDeadline j.desc ≠ 0 → dDeadline j.desc ≤ s.clk.gt.toNat → exec (.deadlineExpiry id) s = .next ((s.endJob id stDeadline 0).pumpAll)) ∧
    (dDeadline j.desc = 0 ∨ s.clk.gt.toNat < dDeadline j.desc → exec (.deadlineExpiry id) s = .next s) ∧
    (j.ph = .running → (∀ c ∈ j.clusters, s.cl[c].job = some id ∧ s.cl[c].ended = true) → (∀ o ∈ s.ops, o.job ≠ id) →
      exec (.jobFinalCompletion id) s =
        .next ((s.endJob id (if j.exhausted then stExhausted else if j.trunc then stTruncated else stOk) 0).pumpAll)) ∧
    (j.ph ≠ .running ∨ (∃ c ∈ j.clusters, s.cl[c].ended = false) ∨ (∃ o ∈ s.ops, o.job = id) → exec (.jobFinalCompletion id) s = .next s)) ∧
  (∀ (s : State) (io : Fin 2) (n : Fin 16) (v : W32), s.fnAlive (.vf io n) = true → s.up = true → s.ioOf n = some io →
    let und := ((List.finRange 8).flatMap (s.undecided n)).filter fun e => cancelNames v e.1.val e.2.1 e.2.2
    let l := s.jobs.filter fun j => j.ptn == n && j.ph != .ended && j.ring.val == fld v 12 3 && j.slot == fld v 0 12
      && (!bit v 15 || fld j.fseq 0 16 == fld v 16 16)
    (∀ e, und.getLast? = some e → exec (.cancelDb (.vf io n) v) s = .next (s.modP n fun q => { q with cancels := q.cancels ++ [e] })) ∧
    (und = [] → l = [] → exec (.cancelDb (.vf io n) v) s = .next (s.bump n .hlDbDrop 1)) ∧
    (und = [] → ∀ j, l.getLast? = some j → exec (.cancelDb (.vf io n) v) s = .next ((s.endJob j.id stCancelled 0).pumpAll))) ∧
  (∀ (s : State) (id code e : Nat) (j : Job), s.liveJob id = some j →
    ∀ c : Fin 32, (s.endJob id code e).cl[c].job ≠ some id)

/-! ## Host registers (00 R7; 03 R58-R60; 15 R362) -/

/-- Accesses through a function. One that does not answer changes nothing. In BAR0 and in the doorbell page an access that is not an aligned one of
4 or 8 bytes leaves the S0 note, writes nothing and reads zero. In BAR0 an unbound VF, and IO1's PF below the PTN blocks, read zero and write
nothing; a 64-bit write is the write of its two words; an RC counter is returned and cleared, and every other register of a PTN block but the error
ring's overflow counter is returned and left, after the time that conductors have stalled so far has been counted; a write of CND_WAIT_LIMIT writes it
alone. An aligned access of the doorbell page reads zero, and of a write the low 32 bits act as the doorbell at that offset. A field of the
configuration space is returned. GT_NOW reads as 15 R362 says (03 R56, R58-R61; 05 R145). -/
def Obligations.HostAccess : Prop :=
  (∀ (s : State) (fn : Fn) (off : BitVec 25) (n : Nat) (v : W64),
    let u := s.each (List.finRange 32) State.noteStall
    (s.fnAlive fn = false → (∀ sp ∈ [Space.bar0, .bar2], exec (.registerWrite fn off n v sp) s = .next s ∧ exec (.rcRegisterRead fn off n sp) s = .next s) ∧
      ∀ h, exec (.gtNowRead fn h) s = .next s) ∧
    (s.fnAlive fn = true → aligned off.toNat n = false → ∀ sp ∈ [Space.bar0, .bar2],
      exec (.registerWrite fn off n v sp) s = .next (s.accessNote fn off.toNat) ∧
      exec (.rcRegisterRead fn off n sp) s = .next { s.accessNote fn off.toNat with readData := 0 }) ∧
    (s.fnAlive fn = true → aligned off.toNat n = true →
      ((∃ io p, fn = .vf io p ∧ s.ioOf p ≠ some io) ∨ (fn = .pf 1 ∧ off.toNat < 0x100000) →
        exec (.registerWrite fn off n v .bar0) s = .next s ∧ exec (.rcRegisterRead fn off n .bar0) s = .next { u with readData := 0 }) ∧
      (n = 8 → exec (.registerWrite fn off n v .bar0) s =
        .next ((s.wordWrite fn off.toNat (v.toNat % 2 ^ 32)).wordWrite fn (off.toNat + 4) (v.toNat / 2 ^ 32))) ∧
      exec (.rcRegisterRead fn off n .bar2) s = .next { s with readData := 0 } ∧
      (∀ (io : Fin 2) (p : Fin 16), fn = .vf io p →
        (∀ r : Fin 8, (off.toNat = 8 * r.val → exec (.registerWrite fn off n v .bar2) s = exec (.jrTailDb fn r (v.truncate 32)) s) ∧
          (off.toNat = 0x40 + 8 * r.val → exec (.registerWrite fn off n v .bar2) s = exec (.crHeadDb fn r (v.truncate 32)) s)) ∧
        (∀ r : Fin 16, off.toNat = 0x80 + 8 * r.val → exec (.registerWrite fn off n v .bar2) s = exec (.srHeadDb fn r (v.truncate 32)) s) ∧
        (off.toNat = 0x100 → exec (.registerWrite fn off n v .bar2) s = exec (.erHeadDb fn (v.truncate 32)) s) ∧
        (off.toNat = 0x108 → exec (.registerWrite fn off n v .bar2) s = exec (.faultResumeDb fn (v.truncate 32)) s) ∧
        (off.toNat = 0x110 → exec (.registerWrite fn off n v .bar2) s = exec (.cancelDb fn (v.truncate 32)) s))) ∧
    (∀ f : CfgField, s.fnHere fn = true →
      exec (.rcRegisterRead fn off n (.config f)) s = .next { s with readData := BitVec.ofNat 64 (s.io[fnIo fn].cfgField fn f) })) ∧
  (∀ (d : IoDie) (io : Fin 2) (p : Fin 16), d.cfgField (.pf io) .vendorId = 0x1FD4 ∧ d.cfgField (.vf io p) .vendorId = 0x1FD4 ∧
    d.cfgField (.pf io) .deviceId = 0x0416 ∧ d.cfgField (.vf io p) .deviceId = 0x0417 ∧ d.cfgField (.pf io) .totalVfs = 16) ∧
  (∀ (s : State) (io : Fin 2) (p : Fin 16) (off : BitVec 25), s.reach (.vf io p) p = true → off.toNat < 0x10000 → off.toNat % 4 = 0 →
    let u := s.each (List.finRange 32) State.noteStall
    (∀ k, ctrAt off.toNat = some k → ∃ t, exec (.rcRegisterRead (.vf io p) off 4 .bar0) s = .next t ∧
      t.readData = (u.P p).cnt[k.ix].zeroExtend 64 ∧ OnlyP p { u with readData := t.readData } t ∧
      (∀ j, (t.P p).cnt[j] = if j = k.ix then 0 else (u.P p).cnt[j]) ∧
      { t.P p with cnt := (u.P p).cnt, maxList := (u.P p).maxList, maxIndex := (u.P p).maxIndex, hotIdx := (u.P p).hotIdx } = u.P p) ∧
    (ctrAt off.toNat = none → off.toNat ≠ 0xE014 →
      exec (.rcRegisterRead (.vf io p) off 4 .bar0) s = .next { u with readData := BitVec.ofNat 64 (u.ptnWord p io off.toNat) }) ∧
    (∀ v, off = 0x4000 → exec (.registerWrite (.vf io p) off 4 v .bar0) s = .next (s.modP p fun q => { q with waitLimit := v.truncate 32 }))) ∧
  (∀ (s : State) (fn : Fn), s.owner fn = true →
    exec (.gtNowRead fn .full) s = .next { s with readData := s.clk.gt } ∧
    exec (.gtNowRead fn .low) s =
      .next { s with readData := s.clk.gt &&& 0xFFFFFFFF, clk := { s.clk with latch := some ((s.clk.gt >>> 32).truncate 32) } } ∧
    (∀ h, s.clk.latch = some h → exec (.gtNowRead fn .high) s =
      .next { s with readData := h.zeroExtend 64, clk := { s.clk with latch := none } }) ∧
    (s.clk.latch = none → exec (.gtNowRead fn .high) s = .next { s with readData := s.clk.gt >>> 32 }))

/-! ## Partitions, fences, configuration sets (08) -/

/-- A function that does not reach a partition changes nothing of it, or of anything else, by a command to its block (03 R58, R59; 08 R213). A word
written to a set window: the active set and, but from IO0's PF, the grant section ignore it; a set in use by a swap or a job refuses it with
WR_DROP; else the 32 bits it covers take it and nothing else changes (08 R201, R202). -/
def Obligations.PartitionReach : Prop :=
  (∀ (s : State) (fn : Fn) (p : Fin 16), s.reach fn p = false →
    (∀ i ∈ [Instr.fence fn p, .unfence fn p, .partitionReset fn p, .swap fn p, .swapCancel fn p, .create fn p, .destroy fn p, .query fn p, .flush fn p
            , .iotlbInvRange fn p, .iotlbInvAll fn p], exec i s = .next s) ∧
    (∀ v, exec (.kvPoolWrite fn p v) s = .next s ∧ exec (.kvGeomWrite fn p v) s = .next s ∧ exec (.erAck fn p v) s = .next s) ∧
    (∀ v, exec (.load fn p v) s = .next s ∧ exec (.unload fn p v) s = .next s) ∧
    (∀ r z, r ≠ .ger → exec (.ringEnable fn p r z) s = .next s ∧ exec (.ringDisable fn p r) s = .next s) ∧
    (∀ cfg off v, off.toNat % 4 = 0 → exec (.cfgWindowWrite fn p cfg off 4 v) s = .next s)) ∧
  (∀ (s : State) (fn : Fn) (p : Fin 16) (cfg : Bool) (off : BitVec 9) (v : W64), s.reach fn p = true → off.toNat % 4 = 0 →
    ((s.P p).activeValid = true ∧ (s.P p).swap.active = cfg ∨ off.toNat < 128 ∧ fn ≠ .pf 0 →
      exec (.cfgWindowWrite fn p cfg off 4 v) s = .next s) ∧
    ((s.P p).activeValid = false ∨ (s.P p).swap.active ≠ cfg → 128 ≤ off.toNat ∨ fn = .pf 0 →
      ((s.P p).swap.busy = true ∨ s.bound p cfg ≠ [] → exec (.cfgWindowWrite fn p cfg off 4 v) s =
        .next (s.modP p fun q => { q with swap := { q.swap with wrDrop := true } })) ∧
      ((s.P p).swap.busy = false → s.bound p cfg = [] → ∃ t, exec (.cfgWindowWrite fn p cfg off 4 v) s = .next t ∧ OnlyP p s t ∧
        { t.P p with cfgA := (s.P p).cfgA, cfgB := (s.P p).cfgB } = s.P p ∧ (t.P p).cset (!cfg) = (s.P p).cset (!cfg) ∧
        ∀ b < 4096, ((t.P p).cset cfg).getLsbD b =
          if 8 * off.toNat ≤ b ∧ b < 8 * off.toNat + 32 then v.getLsbD (b - 8 * off.toNat) else ((s.P p).cset cfg).getLsbD b)))

/-- FENCE, UNFENCE and the partition reset: a fence while one is in force changes nothing; an UNFENCE while FENCING is 1, or while a record of the
partition waits, is dropped with UNFENCE_DROP; otherwise it clears FENCED and a swap in WAIT_FENCE is validated again (08 R211, R212, R215; 18
R433). -/
def Obligations.PartitionControl : Prop :=
  ∀ (s : State) (fn : Fn) (p : Fin 16), s.reach fn p = true →
    ((s.P p).fencing = true ∨ (s.P p).fenced = true → exec (.fence fn p) s = .next s) ∧
    ((s.P p).fencing = false → (s.P p).fenced = false →
      exec (.fence fn p) s = .next (((s.issue (fenceRec p 1)).st.fencePtn p 1 (s.issue (fenceRec p 1)).pseq.toNat).pumpAll)) ∧
    ((s.P p).fencing = true ∨ (s.P p).fenced = true ∧ (s.erPending (some p) = true ∨ s.gerPendingOf p = true) →
      exec (.unfence fn p) s = .next (s.modP p fun q => { q with unfenceDrop := true })) ∧
    ((s.P p).fencing = false → (s.P p).fenced = true → s.erPending (some p) = false → s.gerPendingOf p = false →
      exec (.unfence fn p) s = .next ((s.modP p fun q => { q with
        fenced := false
        swap := if q.swap.st = .waitFence then { q.swap with st := .validating, began := true } else q.swap }).pump p)) ∧
    ((s.P p).fencing = false → (s.P p).fenced = false → exec (.unfence fn p) s = .next s) ∧
    (∀ u : State, u = (s.issue (fenceRec p 5)).st.modP p Ptn.cancelSwap →
      (u.P p).swap.busy = false ∧
      ((u.P p).fencing = true → exec (.partitionReset fn p) s = .next ((u.modP p fun q => { q with resetting := true }).pumpAll)) ∧
      ((u.P p).fencing = false → exec (.partitionReset fn p) s =
        .next (((u.dropHeldEr p).fenceBody p 5 (s.issue (fenceRec p 5)).pseq.toNat true true).pumpAll)))

/-- SWAP, its cancellation, its validation and its instant: a swap in progress only notes COLLAPSED; validation refuses with the first failing
check, then with IMAGE, then with CONFLICT or IN_USE, or keeps its claims and pends or waits; taking effect turns ACTIVE over, makes the set valid
and counts one swap (08 R205-R208, R214-R216, Table 8.4). -/
def Obligations.SwapPath : Prop :=
  (∀ (s : State) (fn : Fn) (p : Fin 16), s.reach fn p = true →
    ((s.P p).swap.busy = true →
      exec (.swap fn p) s = .next (s.modP p fun q => { q with swap := { q.swap with collapsed := true } }) ∧
      exec (.swapCancel fn p) s = .next (s.modP p fun q =>
        { q with swap := { q.swap with st := .refused, reason := 8, badOff := 0, holder := 0, claims := false, began := false } })) ∧
    ((s.P p).swap.busy = false →
      exec (.swap fn p) s = .next (s.modP p fun q => { q with swap := { q.swap with
        st := if (s.P p).fencing || (s.P p).fenced then .waitFence else .validating, reason := 0, badOff := 0, holder := 0, claims := false
        began := !((s.P p).fencing || (s.P p).fenced), arr := (s.ptn.toList.map fun x => x.swap.arr).foldl max 0 + 1 } }) ∧
      exec (.swapCancel fn p) s = .next s)) ∧
  (∀ (s : State) (p : Fin 16) (img : HostRead),
    let b := (s.P p).cset (!(s.P p).swap.active)
    let early := (check1 b).or ((check2 s.fuses b).or ((check3 b).or ((s.P p).check4 b)))
    let refused := fun (u : State) (r o h : Nat) => u.modP p fun q => { q with swap := { q.swap with
      st := .refused, reason := BitVec.ofNat 4 r, badOff := BitVec.ofNat 9 o, holder := BitVec.ofNat 4 h, claims := false, began := false } }
    ((s.P p).swap.st ≠ .validating → exec (.swapValidationDone p img) s = .next s) ∧
    ((s.P p).swap.st = .validating →
      (∀ r, early = some r → exec (.swapValidationDone p img) s = .next (refused s r.reason r.off r.holder)) ∧
      (early = none → exec (.swapValidationDone p .failed) s = .next (refused s 5 128 0) ∧
        ∀ bs : List Byte,
          (bs.length ≠ csImageLen b → exec (.swapValidationDone p (.data bs)) s = .refused .illFormed) ∧
          (bs.length = csImageLen b →
            (parseImage bs (popCount 32 (csClusters b)) = none → exec (.swapValidationDone p (.data bs)) s = .next (refused s 5 128 0)) ∧
            (∀ im, parseImage bs (popCount 32 (csClusters b)) = some im →
              let u := s.modP p fun q => q.setImg (!(s.P p).swap.active) im
              let w := u.modP p fun q => { q with swap := { q.swap with claims := true, st := .waitResource } }
              (s.swapBehind p = true → exec (.swapValidationDone p (.data bs)) s = .next s) ∧
              (s.swapBehind p = false → ∀ r, (u.check6 p b).or (u.check7 p b) = some r →
                exec (.swapValidationDone p (.data bs)) s = .next (refused u r.reason r.off r.holder)) ∧
              (s.swapBehind p = false → (u.check6 p b).or (u.check7 p b) = none →
                (w.swapReady p = true → exec (.swapValidationDone p (.data bs)) s =
                  .next (w.modP p fun q => { q with swap := { q.swap with st := .pending } })) ∧
                (w.swapReady p = false → exec (.swapValidationDone p (.data bs)) s = .next w))))))) ∧
  (∀ (s : State) (p : Fin 16),
    ((s.P p).swap.st ≠ .pending → exec (.swapTakeEffect p) s = .next s) ∧
    ((s.P p).swap.st = .pending →
      ∃ u : State, exec (.swapTakeEffect p) s = .next (((u.unbound p (s.P p).swap.active).recheck).kick) ∧
        { u with ptn := s.ptn, xfers := s.xfers } = s ∧ OnlyP p { s with xfers := u.xfers } u ∧
        (u.P p).activeValid = true ∧ (u.P p).swap.st = .done ∧ (u.P p).swap.active = (!(s.P p).swap.active) ∧ (u.P p).swap.claims = false ∧
        (u.P p).cnt[Ctr.swapCnt.ix] = satAdd (s.P p).cnt[Ctr.swapCnt.ix] 1 ∧
        { u.P p with activeValid := (s.P p).activeValid, swap := (s.P p).swap, cnt := (s.P p).cnt } = s.P p ∧
        u.xfers = s.xfers.map (fun x => if x.ptn = p ∧ x.job = none ∧ x.st ≠ XSt.issued then { x with cfg := !(s.P p).swap.active } else x)))

/-- The global set: GSWAP starts a check or notes COLLAPSED; the check passes to pending, or refuses with the lowest offending byte; the pending set
takes effect only while no join or leave is in progress, and ends STAGE 5 (08 R204, R214, R220; 20 R473). -/
def Obligations.GlobalSet : Prop :=
  (∀ (s : State) (fn : Fn),
    (s.fnAlive fn = false ∨ fn ≠ .pf 0 → exec (.gswap fn) s = .next s) ∧
    (s.fnAlive (.pf 0) = true →
      (s.gcr.st = .checking ∨ s.gcr.st = .pending → exec (.gswap (.pf 0)) s = .next { s with gcr := { s.gcr with collapsed := true } }) ∧
      (s.gcr.st ≠ .checking → s.gcr.st ≠ .pending → exec (.gswap (.pf 0)) s = .next { s with gcr := { s.gcr with st := .checking, badOff := 0 } }))) ∧
  (∀ s : State,
    (s.gcr.st ≠ .checking → exec .gswapCheckDone s = .next s) ∧
    (s.gcr.st = .checking →
      (s.gBad s.gShadow = [] → exec .gswapCheckDone s = .next { s with gcr := { s.gcr with st := .pending } }) ∧
      (∀ m ∈ s.gBad s.gShadow, (∀ x ∈ s.gBad s.gShadow, m ≤ x) →
        exec .gswapCheckDone s = .next { s with gcr := { s.gcr with st := .refused, badOff := BitVec.ofNat 8 m } })) ∧
    (s.gcr.st ≠ .pending ∨ s.gBusy = true → exec .gswapTakeEffect s = .next s) ∧
    (s.gcr.st = .pending → s.gBusy = false →
      ∃ u : State, exec .gswapTakeEffect s = .next ((((u.rotChange s.gact).retarget).roleChange).pumpAll) ∧ u.gact = s.gShadow ∧
        u.gcr.st = .done ∧ { u with gcr := s.gcr, pwr := s.pwr, thm := s.thm, clk := s.clk } = s ∧
        u.thm = { s.thm with roseAt := u.thm.roseAt, coolAt := u.thm.coolAt } ∧ u.clk = { s.clk with exchAt := u.clk.exchAt } ∧
        { u.gcr with st := s.gcr.st, active := s.gcr.active, valid := s.gcr.valid } = s.gcr ∧
        u.pwr = { s.pwr with stage := if s.pwr.stage = 5 then 6 else s.pwr.stage }))

/-! ## Clocks and global time (15) -/

/-- GT_SET and the walk of CCLK: the counter is set only in FREE with no active set, else SET_DROP; CCLK moves by one step toward its target, at
least 50 µs after the step before, and the target is what a change sets it to, the lower of CCLK_STEP and the ceiling (15 R356, R358, R360). Clock
and fabric failures: a PLL's lock bit falls, and CCLK, FCLK, MCLK and XCLK are then S4 device errors, HCLK takes its link down, LCLK removes the
drive with cause 7 and takes its ports down; a stopped oscillator is an S4; a fabric error is an S1 note where it was corrected and an S4 where
not (15 R363; 18 Table 18.5). With the main rails off, or on a die that is not fitted, nothing happens; a lock regained shows in its bit, and
LCLK's ports of a pair without drive go back to LOOPBACK. -/
def Obligations.ClockPlan : Prop :=
  ((∀ (s : State) (fn : Fn) (v : W64),
    (s.owner fn = false → exec (.gtSet fn v) s = .next s) ∧
    (s.owner fn = true →
      (s.clk.st = .free → (∀ p, (s.P p).activeValid = false) → exec (.gtSet fn v) s = .next { s with clk := { s.clk with gt := v } }) ∧
      (s.clk.st ≠ .free ∨ (∃ p, (s.P p).activeValid = true) →
        exec (.gtSet fn v) s = .next { s with clk := { s.clk with setDrop := true } }))) ∧
  (∀ s : State,
    (s.pwr.rails = false ∨ s.clk.cur = s.clk.target ∨ (∃ t, s.clk.stepAt = some t ∧ s.clk.ns < t + 50000) → exec .cclkStep s = .next s) ∧
    (s.pwr.rails = true → s.clk.cur ≠ s.clk.target → (∀ t, s.clk.stepAt = some t → t + 50000 ≤ s.clk.ns) →
      ∃ t, exec .cclkStep s = .next t ∧ { t with clk := s.clk } = s ∧
      t.clk = { s.clk with cur := t.clk.cur, walking := decide (t.clk.cur ≠ s.clk.target), stepAt := some s.clk.ns } ∧
      (s.clk.cur.toNat < s.clk.target.toNat → t.clk.cur.toNat = s.clk.cur.toNat + 1) ∧
      (s.clk.target.toNat < s.clk.cur.toNat → t.clk.cur.toNat + 1 = s.clk.cur.toNat)) ∧
    s.retarget.clk.target.toNat = min s.planned s.ceiling ∧ s.ceiling ≤ 16 ∧ s.retarget.clk.cur = s.clk.cur ∧
      s.retarget.clk.throttled = decide (s.ceiling < s.planned))) ∧
  (∀ s : State,
    (∀ d : Fin 9, s.pwr.rails = false ∨ s.fuses.i2 = false ∧ (d = 6 ∨ d = 8) →
      exec (.pllLockLoss d) s = .next s ∧ exec (.pllLockRegained d) s = .next s) ∧
    (s.pwr.rails = true →
      exec .oscillatorStop s = .next (s.report (recOf 4 0x0A 2 unitClk) none 0) ∧
      (∀ l, exec (.fabricError l true) s = .next (s.report { recOf 1 0x0A 6 unitFabric with detail := l.val } none 0) ∧
        exec (.fabricError l false) s = .next (s.report { recOf 4 0x0A 3 unitFabric with detail := l.val } none 0)) ∧
      (∀ d : Fin 9, s.fuses.i2 = true ∨ d ≠ 6 ∧ d ≠ 8 →
        let u := { s with clk := { s.clk with lock := setBit s.clk.lock d.val false } }
        let v := { s with clk := { s.clk with lock := setBit s.clk.lock d.val true } }
        (∀ e, (d, e) ∈ [((0 : Fin 9), 0), (1, 1), (2, 2), (3, 5)] →
          exec (.pllLockLoss d) s = .next (u.report { recOf 4 0x0A 1 unitClk with detail := e } none 0)) ∧
        (d = 4 → exec (.pllLockLoss d) s = .next u) ∧
        (d = 5 → exec (.pllLockLoss d) s = .next (u.linkDown 0)) ∧ (d = 6 → exec (.pllLockLoss d) s = .next (u.linkDown 1)) ∧
        (d = 7 → exec (.pllLockLoss d) s = .next (((u.dropDrive 0 7).idlePort 0 .down).idlePort 1 .down)) ∧
        (d = 8 → exec (.pllLockLoss d) s = .next (((u.dropDrive 1 7).idlePort 2 .down).idlePort 3 .down)) ∧
        (d ≠ 7 → d ≠ 8 → exec (.pllLockRegained d) s = .next v) ∧
        (∀ k : Fin 2, d.val = 7 + k.val → s.dlk.sw[k].drive = false → 3 ≤ s.pwr.stage.toNat → ∃ t, exec (.pllLockRegained d) s = .next t ∧
          { t with dlk := s.dlk } = v ∧ t.dlk.sw = s.dlk.sw ∧
          ∀ p : Fin 4, t.dlk.port[p] =
            if pairOf p = k ∧ s.dlk.port[p].st = .down then { s.dlk.port[p] with st := .loopback } else s.dlk.port[p]))))

/-- Global time over the ring: an exchange sends one flit; the upstream port's offset is followed, or, above 1 ms while LOCKED, noted and discarded,
the third in succession moving the counter to HOLDOVER, where 1 ms without an exchange moves it too while time is disciplined, except on the time
master (the model's reading, log 76); the counter steps only on the first exchange after a join, back only while no partition has an active set, and
otherwise slews (15 R358, R363). -/
def Obligations.GlobalTime : Prop :=
  (∀ (s : State) (k : Fin 4),
    (s.disciplined = true → s.dlk.sw[pairOf k].joined = true → s.dlk.port[k].st = .up →
      ∃ f : TxFlit, f.vc = 0 ∧ f.ctrl = false ∧ exec (.timeExchange k) s = .next ({ s with free := s.free + 1 }.putFlit k f)) ∧
    (s.disciplined = false ∨ s.dlk.sw[pairOf k].joined = false ∨ s.dlk.port[k].st ≠ .up → exec (.timeExchange k) s = .next s)) ∧
  (∀ (s : State) (k : Fin 4) (nb : W64) (dl : Nat) (o : Int), o = (nb + BitVec.ofNat 64 dl - s.clk.gt).toInt →
    (s.disciplined = false ∨ s.upstream ≠ some k → exec (.timeMsg k nb dl) s = .next s) ∧
    (s.disciplined = true → s.upstream = some k →
      (s.clk.st = .locked → 1000000 < o.natAbs →
        let w := s.report { recOf 0 0x0B 1 unitClk with detail := (BitVec.ofInt 32 (o.tdiv 1000)).toNat } none 0
        exec (.timeMsg k nb dl) s = .next { w with clk :=
          if 2 ≤ w.clk.badRun then { w.clk with st := .holdover, badRun := 0, lockRun := 0 } else { w.clk with badRun := w.clk.badRun + 1 } }) ∧
      (s.clk.st ≠ .locked ∨ o.natAbs ≤ 1000000 → ∃ t, exec (.timeMsg k nb dl) s = .next t ∧ { t with clk := s.clk } = s ∧
        t.clk.upstream.toNat = k.val ∧ t.clk.joinStep = false ∧ t.clk.offset.toInt = max (-32767) (min 32767 o) ∧
        (20 < o.natAbs → t.clk.st = .acquire) ∧ (o.natAbs ≤ 10 → 15 ≤ s.clk.lockRun → t.clk.st = .locked) ∧
        (s.clk.joinStep = false ∨ o.natAbs ≤ 10000 → t.clk.gt = s.clk.gt ∧ t.clk.slew = o) ∧
        (s.clk.joinStep = true → 10000 < o → t.clk.gt = s.clk.gt + BitVec.ofInt 64 o ∧ t.clk.slew = 0) ∧
        (s.clk.joinStep = true → o < -10000 → s.anyActive = false → t.clk.gt = s.clk.gt + BitVec.ofInt 64 o ∧ t.clk.slew = 0)))) ∧
  (∀ s : State,
    (s.disciplined = true → s.timeMaster ≠ s.devId → s.clk.st ≠ .holdover → s.clk.exchAt + 1000000 ≤ s.clk.ns →
      exec .holdoverTimeout s = .next { s with clk := { s.clk with st := .holdover, lockRun := 0 } }) ∧
    (s.disciplined = false ∨ s.timeMaster = s.devId ∨ s.clk.st = .holdover ∨ s.clk.ns < s.clk.exchAt + 1000000 →
      exec .holdoverTimeout s = .next s))

/-- Acknowledging a record: a SEQ that names a current parent ends the HANDLING of its pair in that ring, with its nested count; any other is
discarded with ACK_DROP; nothing else changes (18 R425). -/
def Obligations.ErrorAck : Prop :=
  ∀ (s : State) (fn : Fn) (seq : W32),
    (∀ p : Fin 16, s.reach fn p = true →
      ((∃ h ∈ (s.P p).er.hand, h.parent = seq) → ∃ t, exec (.erAck fn p seq) s = .next t ∧ OnlyP p s t ∧
        t.P p = { s.P p with er := { (s.P p).er with hand := (t.P p).er.hand } } ∧
        ∀ h, h ∈ (t.P p).er.hand ↔ h ∈ (s.P p).er.hand ∧ h.parent ≠ seq) ∧
      ((∀ h ∈ (s.P p).er.hand, h.parent ≠ seq) →
        exec (.erAck fn p seq) s = .next (s.modP p fun q => { q with er := { q.er with ackDrop := true } }))) ∧
    (s.owner fn = true →
      ((∃ h ∈ s.err.ger.hand, h.parent = seq) → ∃ t, exec (.gerAck fn seq) s = .next t ∧
        t = { s with err := { s.err with ger := { s.err.ger with hand := t.err.ger.hand } } } ∧
        ∀ h, h ∈ t.err.ger.hand ↔ h ∈ s.err.ger.hand ∧ h.parent ≠ seq) ∧
      ((∀ h ∈ s.err.ger.hand, h.parent ≠ seq) →
        exec (.gerAck fn seq) s = .next { s with err := { s.err with ger := { s.err.ger with ackDrop := true } } })) ∧
    (s.owner fn = false → exec (.gerAck fn seq) s = .next s)

/-! ## Engines: starting and completing (05 R129, R130; 06; 10 R253; 12 R285) -/

/-- Starting: the next operation of a conductor's queue starts where the device runs, a unit is free for it, no rotation, held channel or earlier TDTK
of its channel keeps it back, and it has the turn; it starts on the lowest free unit of its kind, a suspended one on its own; what fails a check when
it starts fails its job; a slice that expires gives the unit of a shared engine to the operation that has the turn, and where that is the one on it,
it goes on (04 R94, R95; 05 R129, R130; 10 R257; 12 R305). Errors that its accesses meet come first. -/
def Obligations.EngineStart : Prop :=
  (∀ (s : State) (c : Fin 32) (k : QKind),
    (s.headOf c k = none → ∀ m, exec (.engineOpStart c k m) s = .next s) ∧
    (∀ o, s.headOf c k = some o →
      (s.running = false ∨ s.canStart o = false ∨ s.hasTurn o = false → ∀ m, exec (.engineOpStart c k m) s = .next s) ∧
      (s.running = true → s.canStart o = true → s.hasTurn o = true →
        (∀ m, exec (.engineOpStart c k m) s = .next ((s.meet m).startHead c k)) ∧
        ∀ u, s.unitOf o = some u → exec (.engineOpStart c k []) s = .next ((((s.skipHold o).putOn o u).settle).pumpAll)))) ∧
  (∀ (s : State) (o : Op), o.k ≠ .vc1 → o.k ≠ .vc2 →
    (∀ u, o.home = some u → s.unitOf o = if s.unitFree o.k u then some u else none) ∧
    (o.home = none → s.unitOf o = (unitsFor o).find? (s.unitFree o.k))) ∧
  (∀ (s : State) (o : Op) (u : Nat),
    let o1 := { o with run := some u, home := some u, startCyc := s.clk.cyc10, sliceCyc := s.clk.cyc10 }
    (o.started = true → s.putOn o u = (s.own o u).modOp o.id fun x => { x with run := some u, sliceCyc := s.clk.cyc10 }) ∧
    (o.started = false → ∀ e, startCheck s o1 = .error e → s.putOn o u = s.opFail o1 (.exc e)) ∧
    (o.started = false → ∀ cbs, startCheck s o1 = .ok cbs →
      s.putOn o u = startGo ((s.own { o1 with cbs := cbs } u).modOp o.id fun _ => { o1 with cbs := cbs }) { o1 with cbs := cbs })) ∧
  (∀ (s : State) (k : QKind) (unit : Nat) (o : Op), (s.ops.find? fun o => o.k == k && o.run == some unit && !s.workDone o) = some o →
    (s.running = false ∨ k ∉ [QKind.lse, .gse, .smu, .txu] → exec (.engineSliceExpiry k unit) s = .next s) ∧
    (s.running = true → k ∈ [QKind.lse, .gse, .smu, .txu] →
      let v := s.modOp o.id fun x => { x with run := none }
      let cands := ((List.finRange 32).filterMap fun c => v.headOf c k).filter fun x => v.unitOf x == some unit && v.canStart x
      let first := firstBy (fun a b => match s.job? a.job, s.job? b.job with
        | some i, some j => s.servedBefore k i j | _, _ => false) cands
      (first = none → exec (.engineSliceExpiry k unit) s = .next s) ∧
      (∀ x, first = some x → x.id = o.id → exec (.engineSliceExpiry k unit) s = .next s) ∧
      (∀ x, first = some x → x.id ≠ o.id → exec (.engineSliceExpiry k unit) s =
        .next (((((s.suspend o).skipHold x).putOn x unit).settle).pumpAll))))

/-- Completing: an operation that is on its unit, with its work still to do and no tensor of it still being zeroed, does its work: without an error it
leaves its unit, its tally is added and it leaves the device, or, where what it made has still to be written, it waits for that; an error that its
data makes ends its job; a parity error fails its job with ENGINE_DATA after a part of the work that is not stated (log 61); a completion of another
mnemonic changes nothing; errors that its accesses meet come first (05 R121, R137; 06 R163, R164; 09 R235). -/
def Obligations.EngineDone : Prop :=
  (∀ (s : State) (id : Nat) (o : Op), s.op? id = some o → o.run ≠ none → s.running = true → s.workDone o = false →
    (∀ b ∈ s.opTensors o, (s.P o.ptn).zeroing b = false) →
    ∀ e ∈ ([ ((.xmulDone id · ·), .xmul), ((.mvmulDone id · ·), .mvmul), ((.topkDone id · ·), .topk), ((.lscanDone id · ·), .lscan), ((.gathDone id · ·), .gath), ((.scatDone id · ·), .scat)
           , ((.compactDone id · ·), .kvcmp), ((.sampDone id · ·), .samp), ((.ttokDone id · ·), .ttok), ((.tdtkDone id · ·), .tdtk) ]
          : List ((Bool → List MemEv → Instr) × EngOp)),
      (o.mn ≠ e.2 → ∀ b m, exec (e.1 b m) s = .next s) ∧
      (o.mn = e.2 →
        (∀ b m, exec (e.1 b m) s = exec (e.1 b []) (s.meet m)) ∧
        exec (e.1 true []) s = .next ((s.cutOp o).opFail o (.exc exData)) ∧
        (∀ t x, opWork o s none = (t, some x) → exec (e.1 false []) s = .next (t.opFail o x)) ∧
        (∀ t, opWork o s none = (t, none) →
          ((t.charge o).workDone o = false → exec (e.1 false []) s = .next (((t.charge o).opDone o).pumpAll)) ∧
          ((t.charge o).workDone o = true → exec (e.1 false []) s = .next (t.charge o).pumpAll)))) ∧
  (∀ (s : State) (o : Op), (o.notally = true → s.opDone o = s.opGone o.id) ∧
    (o.notally = false → s.opDone o = ((s.tallyPut o.tally (s.tallyGet o.tally + 1)).settle).opGone o.id))

/-- Operations that use host memory, with all they asked of it issued: HRD writes what it read, HWR has sent its source, and each then adds its
tally; a read that failed at the host fails the job with JOB_DATA 5 (the model's reading, log 18); MCONV converts its source block by block into dC,
resident or in place in T2, and fails its job at an element that is NaN or a block without a selector; data of another length is no event of the
hardware; before everything is issued nothing happens (02 R43, R48, R53; 05 R121, R127). -/
def Obligations.DmaOperations : Prop :=
  (∀ (s : State) (id : Nat) (o : Op), s.op? id = some o → o.run ≠ none → s.running = true → s.opIssued id = true →
    (∀ b ∈ s.opTensors o, (s.P o.ptn).zeroing b = false) →
    let u := s.dropXfers id
    (o.mn = .hrd → exec (.hrdDone id .failed []) s = .next (u.opFail o (.data 5 o.sp.toNat)) ∧
      ∀ bs : List Byte, (bs.length = tBytes o.dC →
          (∀ t, u.store o (u.asker o 8) o.rC o.dC 0 bs [] = (t, none) → exec (.hrdDone id (.data bs) []) s = .next (((t.charge o).opDone o).pumpAll)) ∧
          (∀ t e, u.store o (u.asker o 8) o.rC o.dC 0 bs [] = (t, some e) → exec (.hrdDone id (.data bs) []) s = .next (t.opFail o e))) ∧
        (bs.length ≠ tBytes o.dC → exec (.hrdDone id (.data bs) []) s = .refused .illFormed)) ∧
    (o.mn = .hwr → exec (.hwrDone id []) s = .next (((u.charge o).opDone o).pumpAll))) ∧
  (∀ (s : State) (id : Nat) (o : Op), s.op? id = some o → s.opIssued id = false → ∀ m,
    (∀ d, exec (.hrdDone id d m) s = .next s) ∧ exec (.hwrDone id m) s = .next s ∧ ∀ b d e, exec (.mconvDone id b d e m) s = .next s) ∧
  (∀ (s : State) (id : Nat) (o : Op) (src cb : HostRead) (w : Ccw), s.op? id = some o → o.run ≠ none → s.running = true → s.opIssued id = true →
    o.mn = .mconv → s.workDone o = false → (∀ b ∈ s.opTensors o, (s.P o.ptn).zeroing b = false) → ccwOf o.sp.toNat = some w →
    let k := o.who uMge
    let t2 := t2Of (s.operand k o.rA o.dA true false)
    let u := s.dropXfers id
    (∀ bs : List Byte, src = .data bs → t2 ≠ none → bs.length ≠ tBytes o.dA → ∀ b, exec (.mconvDone id b src cb []) s = .refused .illFormed) ∧
    ((∀ bs : List Byte, src = .data bs → t2 ≠ none → bs.length = tBytes o.dA) → (∀ bs : List Byte, cb = .data bs → s.cbT2 o ≠ none → bs.length = 128) →
      exec (.mconvDone id true src cb []) s = .next ((s.cutOp o).opFail o (.exc exData)) ∧
      (∀ i, t2 = some i → src = .failed → exec (.mconvDone id false src cb []) s = .next (u.opFail o (.data 5 i))) ∧
      (∀ i, (t2 = none ∨ src ≠ .failed) → s.cbT2 o = some i → cb = .failed → exec (.mconvDone id false src cb []) s = .next (u.opFail o (.data 5 i))) ∧
      (∀ (book : Option (List Byte)) (from_ : State → Who → Nat → Nat → Except EngErr (List Byte)),
        (t2 = none ∧ from_ = State.mconvSrc o ∨ ∃ bs, t2 ≠ none ∧ src = .data bs ∧ from_ = fun _ _ off n => .ok ((bs.drop off).take n)) →
        (s.cbT2 o = none ∧ book = o.cb 2 ∨ ∃ b, s.cbT2 o ≠ none ∧ cb = .data b ∧ book = some b ∧ sliceLe b 112 16 = 0) →
        (∀ i, t2Of (u.operand k o.rC o.dC false true) = some i →
          let r := mconvT2 o w book from_ u
          exec (.mconvDone id false src cb []) s = .next (r.1.sendT2 o i r.2.1 r.2.2)) ∧
        (t2Of (u.operand k o.rC o.dC false true) = none →
          (∀ t e, mconvRun o w book from_ u none = (t, some e) → exec (.mconvDone id false src cb []) s = .next (t.opFail o e)) ∧
          (∀ t, mconvRun o w book from_ u none = (t, none) → (t.charge o).workDone o = false →
            exec (.mconvDone id false src cb []) s = .next (((t.charge o).opDone o).pumpAll)))))) ∧
  (∀ (s : State) (o : Op) (w : Ccw) (book : Option (List Byte)) (from_ : Nat → Nat → Except EngErr (List Byte)) (i : Nat),
    let n := blkElems w.target
    (w.absent book = true → mconvBlk s o w book from_ i = .error (.data 3 (s.utaOf o o.dC (i * blkBytes w.target)))) ∧
    (w.absent book = false → ∀ bs xs, from_ (srcLen w (i * n)) (srcLen w n) = .ok bs → srcNums w bs n = .ok xs →
      ((convert w book xs).nanAt = none → mconvBlk s o w book from_ i = .ok (convert w book xs)) ∧
      (∀ k, (convert w book xs).nanAt = some k → mconvBlk s o w book from_ i = .error (.data 2 (i * n + k)))))

/-- The accumulator (06 R149 step 4): a sum that fits is exact where the exponents agree; the result is in range with an exponent of at least both
and at most 127; the places dropped are the fewest that bring it into range; SAT is sticky, and is newly set only at 127 with the value at a bound.
-/
def Obligations.AccumulatorAdd : Prop :=
  ∀ (x : Acc) (t e : Int), -(2 ^ 23) ≤ x.a → x.a < 2 ^ 23 → -128 ≤ x.f → x.f ≤ 127 → e ≤ 127 → t.natAbs < 2 ^ 64 →
    let y := x.add t e
    let m := max x.f e
    let sum := rne x.a (m - x.f).toNat + rne t (m - e).toNat
    m ≤ y.f ∧ y.f ≤ 127 ∧ -(2 ^ 23) ≤ y.a ∧ y.a < 2 ^ 23 ∧ (x.sat = true → y.sat = true) ∧
      (y.sat = true → x.sat = false → y.f = 127 ∧ (y.a = -(2 ^ 23) ∨ y.a = 2 ^ 23 - 1)) ∧
      (x.f = e → -(2 ^ 23) ≤ x.a + t → x.a + t < 2 ^ 23 → y = { x with a := x.a + t }) ∧
      (∀ k : Nat, 1 ≤ k → m + k < y.f → rne sum k < -(2 ^ 23) ∨ 2 ^ 23 ≤ rne sum k) ∧
      (y.sat = x.sat → y.sat = false → y.a = rne sum (y.f - m).toNat)

/-- TOPK's selection of a row (10 R253, R254): min(K, n) distinct indices, best key first and the lower index first among equal keys, every key left
out no better than any selected; the keys that entered the tree number at least min(K, n) and at most n. -/
def Obligations.TopkSelection : Prop :=
  ∀ (k : Nat) (asc : Bool) (keys : List Int),
    let key := fun (i : Nat) => keys.getD i 0
    let better := fun (a b : Nat) => (if asc then key a < key b else key b < key a) ∨ key a = key b ∧ a < b
    let r := selectRow k asc keys
    r.1.length = min k keys.length ∧ (∀ i ∈ r.1, i < keys.length) ∧ r.1.Pairwise better ∧
      (∀ j < keys.length, j ∉ r.1 → ∀ i ∈ r.1, better i j) ∧ min k keys.length ≤ r.2 ∧ r.2 ≤ keys.length

/-! ## Tensors and translation (07) -/

/-- The ends of moves on a device that runs: a load whose bytes are all asked for and whose frames are free replaces the tensor's bytes with what
arrived, leaves every other byte, and makes it resident in the tier and on the die of its frames; a failed read fails its jobs and withdraws it; a
write-back whose bytes have all left counts, clears DIRTY and, unless a FLUSH, leaves the tensor in T2, and an uncorrectable unit that it met is
reported, in the job that caused it where that still runs; a move between T0 and T1 whose frames are free to fill keeps DIRTY and frees its source
(07 R174-R178, R189, R197). -/
def Obligations.MoveEnds : Prop :=
  (∀ (s : State) (p : Fin 16) (base : Nat) (t : Tensor) (x : Xfer), s.running = true → (s.P p).tensor base = some t →
    (s.xfers.find? fun x => x.ptn == p && x.chan == 0 && x.base == base) = some x → t.moving = some .load → x.st = .issued → t.dest.free = true →
    exec (.mgeLoadDone p base .failed []) s =
      .next ((((s.delX x.id).readFailed ((s.P p).loaders base ++ x.job.toList).dedup x.iova (0x3C + t.die.val)).abortLoad p base).pumpAll) ∧
    (∀ bs : List Byte, bs.length ≠ t.size * 4096 → exec (.mgeLoadDone p base (.data bs) []) s = .refused .illFormed) ∧
    (∀ bs : List Byte, bs.length = t.size * 4096 → ∃ u : State, exec (.mgeLoadDone p base (.data bs) []) s = .next (u.moveEnded p base) ∧
      OnlyP p { s with xfers := u.xfers } u ∧ u.xfers = s.xfers.filter (fun y => y.id != x.id) ∧
      { u.P p with mem := (s.P p).mem, dir := (s.P p).dir, bad := (s.P p).bad } = s.P p ∧
      (∀ a, sget 0 (u.P p).mem a = if base ≤ a ∧ a < base + t.size * 4096 then bs.getD (a - base) 0 else sget 0 (s.P p).mem a) ∧
      (∀ b, b ≠ base → (u.P p).tensor b = (s.P p).tensor b) ∧
      ∃ t' : Tensor, (u.P p).tensor base = some t' ∧ t'.moving = none ∧ t'.frames = t.dest.frames ∧ t'.dest = [] ∧ t'.tier.toNat = destTier t.dest ∧
        (∀ e l, t.dest = e :: l → t'.die.val = s.dieOf e.1.2) ∧
        t'.pins = t.pins - t.drop ∧ t'.dirty = t.dirty ∧ t'.backed = t.backed ∧ t'.size = t.size ∧ t'.next = t.next)) ∧
  (∀ (s : State) (p : Fin 16) (base : Nat) (t : Tensor) (x : Xfer), s.running = true → (s.P p).tensor base = some t →
    (s.xfers.find? fun x => x.ptn == p && x.chan == 1 && x.base == base) = some x → x.st = .issued →
    let v := (s.delX x.id).bump p .wb 1
    let kept := v.modTensor p base fun t => { t with dirty := false, moving := none, cause := none }
    let gone := (v.dropCopy p t).modTensor p base fun t => { t with dirty := false }
    (t.moving = some .flush →
      (x.bad1 = none → exec (.writebackDone p base []) s = .next (kept.moveEnded p base)) ∧
      (∀ u, x.bad1 = some u → exec (.writebackDone p base []) s =
        .next ((kept.report { wbBadRec t p (u * 64 - base) with sev := 2 } none 0).moveEnded p base))) ∧
    (∀ b, t.moving = some (.writeback b) →
      (x.bad1 = none ∨ (∀ id, t.cause = some id → gone.stillRuns id = false) → exec (.writebackDone p base []) s = .next (gone.moveEnded p base)) ∧
      (∀ u id, x.bad1 = some u → t.cause = some id → gone.stillRuns id = true →
        exec (.writebackDone p base []) s = .next ((gone.failJob id (wbBadRec t p (u * 64 - base))).moveEnded p base)))) ∧
  (∀ (s : State) (p : Fin 16) (base : Nat) (t : Tensor) (b : Bool), s.running = true → (s.P p).tensor base = some t → t.moving = some (.move b) →
    (t.dest.free = true → exec (.moveDone p base []) s = .next ((s.modTensor p base fun t => { t with
        moving := none, cause := none, tier := if b then 1 else 0, frames := t.dest.frames, dest := [] }).moveEnded p base)) ∧
    (t.dest.free = false → exec (.moveDone p base []) s = .next s))

/-- A page walk's end: with nothing that waits, or the link down, nothing; a failed entry read fails every waiter with JOB_DATA cause 5; a fault
holds every waiter; a leaf fills the IOTLB, and each waiter goes on or faults by its right. The walk itself, from the root that the set names: each
entry is read at its table's address plus eight times the page's index at that level; an entry not valid is not present, a reserved bit or a leaf
where none may be is reserved, a level-0 leaf maps one page or, with C64, its group of 16, a level-1 leaf 512 (07 R183-R187, R189). -/
def Obligations.PageWalks : Prop :=
  (∀ (s : State) (p : Fin 16) (cfg : Bool) (page : BitVec 36),
    let l := s.waiters p cfg page.toNat
    let io := s.dmaIo p cfg
    let root := csRoot ((s.P p).cset cfg)
    (l = [] ∨ s.io[io].link = false → ∀ w, exec (.pageWalkDone p cfg page w) s = .next s) ∧
    (l ≠ [] → s.io[io].link = true →
      exec (.pageWalkDone p cfg page .failed) s =
        .next (s.each l fun s x => if (s.x? x.id).isSome then s.failX x 5 (x.iova + x.done) stError else s).failDoomed ∧
      ∀ es : List (W64 × W64),
        (walk page.toNat 3 root es = .short → exec (.pageWalkDone p cfg page (.entries es)) s = .refused .illFormed) ∧
        (∀ r, walk page.toNat 3 root es = .fault r → exec (.pageWalkDone p cfg page (.entries es)) s =
          .next ((s.each l fun s x => s.raiseFault x r).pumpAll)) ∧
        (∀ first n pa r w, walk page.toNat 3 root es = .leaf first n pa r w →
          let u := s.modIo io fun d =>
            { d with tlb := tlbFill d.tlb { ptn := p, cfg := cfg, page := first, pages := n, pa := pa, r := r, w := w } }
          exec (.pageWalkDone p cfg page (.entries es)) s =
            .next ((u.each l fun s x => if (if x.write then w else r) then s.runX x.id else s.raiseFault x rsnPermission).pumpAll.failDoomed)))) ∧
  (∀ (page root : Nat) (a3 e3 a2 e2 a1 e1 a0 e0 : W64) (rest : List (W64 × W64)),
    let table := fun (e : W64) => e.getLsbD 0 = true ∧ e.getLsbD 3 = false ∧ e.getLsbD 4 = false ∧ e.extractLsb' 5 7 = 0
    let base := fun (e : W64) => e.toNat / 4096 * 4096
    a3.toNat = (root + 8 * (page / 2 ^ 27 % 512)) % 2 ^ 64 → a2.toNat = (base e3 + 8 * (page / 2 ^ 18 % 512)) % 2 ^ 64 →
    a1.toNat = (base e2 + 8 * (page / 2 ^ 9 % 512)) % 2 ^ 64 → a0.toNat = (base e1 + 8 * (page % 512)) % 2 ^ 64 →
    (e3.getLsbD 0 = false → walk page 3 root ((a3, e3) :: rest) = .fault 1) ∧
    (e3.getLsbD 0 = true → e3.getLsbD 3 = true → walk page 3 root ((a3, e3) :: rest) = .fault 3) ∧
    (table e3 → e2.getLsbD 0 = false → walk page 3 root ((a3, e3) :: (a2, e2) :: rest) = .fault 1) ∧
    (table e3 → e2.getLsbD 0 = true → e2.getLsbD 3 = true → walk page 3 root ((a3, e3) :: (a2, e2) :: rest) = .fault 3) ∧
    (table e3 → table e2 → e1.getLsbD 0 = false → walk page 3 root ((a3, e3) :: (a2, e2) :: (a1, e1) :: rest) = .fault 1) ∧
    (table e3 → table e2 → e1.getLsbD 0 = true → e1.getLsbD 3 = true → e1.getLsbD 4 = false → e1.extractLsb' 5 7 = 0 →
      walk page 3 root ((a3, e3) :: (a2, e2) :: (a1, e1) :: rest) =
        if e1.extractLsb' 12 9 = 0 then .leaf (page / 512 * 512) 512 (base e1) (e1.getLsbD 1) (e1.getLsbD 2) else .fault 3) ∧
    (∀ e, e = e3 ∨ e = e2 ∧ table e3 ∨ e = e1 ∧ table e3 ∧ table e2 → e.getLsbD 0 = true → e.getLsbD 4 = true ∨ e.extractLsb' 5 7 ≠ 0 →
      walk page 3 root ((a3, e3) :: (a2, e2) :: (a1, e1) :: rest) = .fault 3) ∧
    (table e3 → table e2 → table e1 →
      let w := walk page 3 root ((a3, e3) :: (a2, e2) :: (a1, e1) :: (a0, e0) :: rest)
      (e0.getLsbD 0 = false → w = .fault 1) ∧
      (e0.getLsbD 0 = true → e0.getLsbD 3 = false ∨ e0.extractLsb' 5 7 ≠ 0 → w = .fault 3) ∧
      (e0.getLsbD 0 = true → e0.getLsbD 3 = true → e0.extractLsb' 5 7 = 0 → w =
        if e0.getLsbD 4 then .leaf (page / 16 * 16) 16 ((base e0 + 2 ^ 64 - page % 16 * 4096) % 2 ^ 64) (e0.getLsbD 1) (e0.getLsbD 2)
        else .leaf page 1 (base e0) (e0.getLsbD 1) (e0.getLsbD 2))))

/-- Faults and the IOTLB: a recorded fault fails once global time is 1 s past its record, and not before; a resume retries or fails the fault that
it names; an invalidation drops the partition's entries that map a named page, and no other, and is BUSY until the reads they served have returned;
one written while BUSY is dropped (07 R186, R188, R189; 03 R74). -/
def Obligations.FaultsAndIotlb : Prop :=
  (∀ (s : State) (p : Fin 16) (fid : W16) (x : Xfer) (t : W64), s.heldX p fid = some x → x.st = .held fid t →
    (t.toNat + 1000000000 ≤ s.clk.gt.toNat → exec (.faultHoldExpiry p fid) s =
      .next ((((s.bump p .fltFail 1).failX x 6 fid.toNat stFault).promoteFault p).pumpAll)) ∧
    (s.clk.gt.toNat < t.toNat + 1000000000 → exec (.faultHoldExpiry p fid) s = .next s) ∧
    (∀ io : Fin 2, ∀ v : W32, s.fnAlive (.vf io p) = true → s.up = true → s.ioOf p = some io → v.truncate 16 = fid →
      (v.getLsbD 16 = true → exec (.faultResumeDb (.vf io p) v) s =
        .next ((((s.bump p .fltFail 1).failX x 6 fid.toNat stFault).promoteFault p).pumpAll)) ∧
      (v.getLsbD 16 = false → exec (.faultResumeDb (.vf io p) v) s = .next (((s.retryX x).promoteFault p).pumpAll.failDoomed)))) ∧
  (∀ (s : State) (fn : Fn) (p : Fin 16), s.reach fn p = true →
    ((s.P p).invBusy = true → exec (.iotlbInvRange fn p) s = .next (s.modP p fun q => { q with invDropped := true }) ∧
      exec (.iotlbInvAll fn p) s = .next (s.modP p fun q => { q with invDropped := true })) ∧
    ((s.P p).invBusy = false →
      (∃ t, exec (.iotlbInvAll fn p) s = .next t ∧ OnlyP p { s with io := t.io } t ∧ (t.P p).invBusy = true ∧
        { t.P p with invBusy := false, invWait := (s.P p).invWait } = s.P p ∧
        (∀ id, id ∈ (t.P p).invWait ↔ ∃ x ∈ s.xfers, x.id = id ∧ x.ptn = p ∧ x.write = false ∧ 0 < x.done ∧ ∃ (io : Fin 2), ∃ e ∈ s.io[io].tlb,
          e.ptn = p ∧ e.cfg = x.cfg ∧ x.iova / 4096 < e.page + e.pages ∧ e.page * 4096 < x.iova + x.done) ∧
        ∀ io : Fin 2, t.io[io] = { s.io[io] with tlb := s.io[io].tlb.filter fun e => e.ptn != p }) ∧
      (∃ t, exec (.iotlbInvRange fn p) s = .next t ∧ OnlyP p { s with io := t.io } t ∧ (t.P p).invBusy = true ∧
        { t.P p with invBusy := false, invWait := (s.P p).invWait } = s.P p ∧
        ∀ io : Fin 2, { t.io[io] with tlb := s.io[io].tlb } = s.io[io] ∧ ∀ e, e ∈ t.io[io].tlb ↔ e ∈ s.io[io].tlb ∧
          ¬ (e.ptn = p ∧ 0 < (s.P p).invLen.toNat ∧ e.page < (s.P p).invAddr.toNat / 4096 % 2 ^ 36 + (s.P p).invLen.toNat ∧
            (s.P p).invAddr.toNat / 4096 % 2 ^ 36 < e.page + e.pages)))) ∧
  (∀ (s : State) (p : Fin 16),
    ((s.P p).invBusy = true → (∀ id ∈ (s.P p).invWait, ∀ x, s.x? id = some x → x.st ≠ .issued) → exec (.iotlbInvDone p) s =
      .next (s.modP p fun q => { q with invBusy := false, invWait := [] })) ∧
    ((s.P p).invBusy = false ∨ (∃ id ∈ (s.P p).invWait, ∃ x, s.x? id = some x ∧ x.st = .issued) → exec (.iotlbInvDone p) s = .next s))

/-- The directory commands and their results: one written while BUSY is dropped; CREATE gives BAD_ARG, OVERLAP, FULL, T2_LIMIT or NO_ROOM, adds a
backed tensor at once, and holds an unbacked one BUSY until its frames are zeroed; DESTROY and FLUSH give NOT_TENSOR, PINNED or OK and wait, BUSY,
while the tensor moves; QUERY returns the entry (07 R172, R173, Tables 7.3 and 7.4; the order of CREATE's results is log 24's reading). -/
def Obligations.DirectoryCommands : Prop :=
  ∀ (s : State) (fn : Fn) (p : Fin 16), s.reach fn p = true →
    let q := s.P p
    let ends := fun (u : State) (r : BitVec 3) => u.modP p fun q => { q with tdBusy := false, tdResult := r, tdWait := none }
    (q.tdBusy = true → ∀ i ∈ [Instr.create fn p, .destroy fn p, .query fn p, .flush fn p],
      exec i s = .next (s.modP p fun q => { q with tdDropped := true })) ∧
    (q.tdBusy = false →
      (q.badArg = true → exec (.create fn p) s = .next (ends s 7)) ∧
      (q.badArg = false →
        let t := q.newTensor
        let overlap := ∃ u ∈ q.dir, u.base < t.base + t.size * 4096 ∧ t.base < u.base + u.size * 4096
        (overlap → exec (.create fn p) s = .next (ends s 1)) ∧
        (¬ overlap →
          (csTdCap q.act ≤ q.dir.length → exec (.create fn p) s = .next (ends s 2)) ∧
          (q.dir.length < csTdCap q.act →
            (t.backed = true → 2 ^ 28 < t.size + ((q.dir.filter (·.backed)).map (·.size)).sum → exec (.create fn p) s = .next (ends s 3)) ∧
            (t.backed = true → t.size + ((q.dir.filter (·.backed)).map (·.size)).sum ≤ 2 ^ 28 →
              exec (.create fn p) s = .next (ends (s.modP p fun q => { q with dir := q.dir ++ [t] }) 0)) ∧
            (t.backed = false →
              let l := s.freeList p q.act t.home.toNat (t.place == 1)
              (frameTotal l < t.size → exec (.create fn p) s = .next (ends (s.bump p .noRoom 1) 4)) ∧
              (t.size ≤ frameTotal l → ∃ v : State, exec (.create fn p) s = .next v ∧ OnlyP p s v ∧ (v.P p).tdBusy = true ∧
                (v.P p).dir = q.dir ++ [{ t with tier := t.place, die := dieFin t.home.toNat, frames := (takeFrames l t.size).1 }] ∧
                (∀ a, sget 0 (v.P p).mem a = if t.base ≤ a ∧ a < t.base + t.size * 4096 then 0 else sget 0 q.mem a) ∧
                (v.P p).tdWait = some { op := 1, base := t.base } ∧
                (v.P p).zero = q.zero ++ [{ t0 := 0, t1 := 0, tally := 0, cl := 0, why := .create }] ∧
                { v.P p with dir := q.dir, mem := q.mem, bad := q.bad, tdBusy := q.tdBusy, tdWait := q.tdWait, zero := q.zero } = q))))) ∧
      (q.argTensor = none → ∀ i ∈ [Instr.destroy fn p, .query fn p, .flush fn p], exec i s = .next (ends s 5)) ∧
      (∀ t, q.argTensor = some t →
        exec (.query fn p) s = .next (ends (s.modP p fun q => { q with tdRes := t.words }) 0) ∧
        (t.moving ≠ none ∨ t.next ≠ [] →
          exec (.destroy fn p) s = .next (s.modP p fun q => { q with tdBusy := true, tdWait := some { op := 2, base := t.base } }) ∧
          exec (.flush fn p) s = .next (s.modP p fun q => { q with tdBusy := true, tdWait := some { op := 4, base := t.base } })) ∧
        (t.moving = none → t.next = [] →
          (t.pins ≠ 0 → exec (.destroy fn p) s = .next (ends s 6) ∧ exec (.flush fn p) s = .next (ends s 6)) ∧
          (t.pins = 0 →
            exec (.destroy fn p) s = .next (ends (s.modP p fun q => { q.wipe t.base t.size with dir := q.dir.filter fun u => u.base != t.base }) 0) ∧
            (t.dirty = false ∨ t.backed = false ∨ t.tier = 2 → exec (.flush fn p) s = .next (ends s 0)) ∧
            (t.dirty = true → t.backed = true → t.tier ≠ 2 → exec (.flush fn p) s =
              .next ((s.modP p fun q => { q with tdBusy := true, tdWait := some { op := 5, base := t.base } }).goWb p t .flush none))))))

/-- The end of zeroing: the tallies and the clusters' stores of the request read zero and no others change. A fence's leaves the partition FENCED with
no tensor, or, in a reset, its registers at their reset values; a CREATE's ends its command with OK; a release's ends RELEASING unless another is
left. Then what waited for the zeroing goes on, where `recheck` and `kick` say what waits (07 R190, R191; 08 R209-R212). -/
def Obligations.ZeroingEnds : Prop :=
  (∀ (s : State) (p : Fin 16), (s.P p).zero = [] → exec (.zeroingComplete p) s = .next s) ∧
  (∀ (s : State) (p : Fin 16) (z : Zero) (rest : List Zero), (s.P p).zero = z :: rest →
    let u := (s.modP p fun q => { q with zero := rest }).zeroOwned z
    let more := rest.any fun e => decide (e.why = ZWhy.release)
    (∀ y, u.tallyGet y = if bit z.tally (y / 1024) then 0 else s.tallyGet y) ∧
    (∀ c : Fin 32, bit z.cl c.val = false → u.cl[c] = s.cl[c]) ∧
    (∀ c : Fin 32, bit z.cl c.val = true → u.cl[c].s = Vector.replicate 32 0 ∧ u.cl[c].v = Vector.replicate 32 0 ∧ u.cl[c].d = Vector.replicate 16 0 ∧
      u.cl[c].sds = [] ∧ u.cl[c].istore = [] ∧ u.cl[c].job = s.cl[c].job) ∧
    { u with tallies := s.tallies, cl := s.cl, ptn := s.ptn } = s ∧ u.P p = { s.P p with zero := rest } ∧ (∀ q : Fin 16, q ≠ p → u.P q = s.P q) ∧
    (z.why = .fence ∨ z.why = .reset →
      let v := ({ u with xfers := u.xfers.filter fun x => !(x.ptn == p && x.chan == 1) } : State).modP p fun q =>
        { q with dir := [], mem := [], bad := [], swap := { q.swap with releasing := q.swap.releasing && more } }
      ((s.P p).resetting = false → exec (.zeroingComplete p) s =
        .next ((v.modP p fun q => { q with fencing := false, fenced := true }).recheck.kick)) ∧
      ((s.P p).resetting = true → exec (.zeroingComplete p) s = .next ((v.resetPtnRegs p).recheck.kick)) ∧
      (let r := (v.resetPtnRegs p).P p
       r.dir = [] ∧ r.mem = [] ∧ r.fenced = false ∧ r.fencing = false ∧ r.cfgA = (s.P p).cfgA ∧ r.cfgB = (s.P p).cfgB ∧
        r.swap.active = (s.P p).swap.active ∧ r.activeValid = (s.P p).activeValid ∧ r.jr = Ptn.reset.jr ∧ r.cr = Ptn.reset.cr ∧ r.sr = Ptn.reset.sr)) ∧
    (z.why = .create → (∀ w, (s.P p).tdWait = some w → w.op ≠ 1) → exec (.zeroingComplete p) s = .next (u.recheck.kick)) ∧
    (∀ w, z.why = .create → (s.P p).tdWait = some w → w.op = 1 →
      let v := u.each (u.ops.filter fun o => o.ptn == p && o.run.isSome && (u.opTensors o).contains w.base) fun s o =>
        s.bumpK p .zeroStall ((s.clk.cyc10 - o.startCyc) / 10)
      exec (.zeroingComplete p) s =
        .next ((v.modP p fun q => { q with tdBusy := false, tdResult := 0, tdWait := none }).settle.recheck.kick)) ∧
    (z.why = .release → exec (.zeroingComplete p) s =
      .next ((u.modP p fun q => { q with swap := { q.swap with releasing := !q.swap.asked || more } }).recheck.kick)))

/-- The KV pool's registers and the constraint sets: a write while pages are in use or out of bounds is dropped with WR_DROP, else it takes its
fields; CS_CMD while BUSY is dropped; an UNLOAD marks the set at once and is BUSY until no operation names it; a LOAD marks its set if the check
gives OK (12 R282; 13 R319, R320). -/
def Obligations.KvPoolAndConstraints : Prop :=
  (∀ (s : State) (fn : Fn) (p : Fin 16) (v : W32), s.reach fn p = true →
    let n := v.toNat % 2 ^ 19
    let row := v.toNat % 2 ^ 13
    let nreg := v.toNat / 2 ^ 16 % 2 ^ 12
    let others := (((List.finRange 16).filter (· != p)).map fun i => (s.P i).kvPages.toNat).sum
    (s.kvInUse p = true ∨ 262144 < n + others → exec (.kvPoolWrite fn p v) s = .next (s.modP p fun q => { q with kvWrDrop := true })) ∧
    (s.kvInUse p = false → n + others ≤ 262144 → exec (.kvPoolWrite fn p v) s = .next (s.modP p fun q => { q with kvPages := v.truncate 19 })) ∧
    (s.kvInUse p = true ∨ row = 0 ∨ 4352 < row ∨ nreg = 0 ∨ 16777216 < kvStride row nreg →
      exec (.kvGeomWrite fn p v) s = .next (s.modP p fun q => { q with kvWrDrop := true })) ∧
    (s.kvInUse p = false → 0 < row → row ≤ 4352 → 0 < nreg → kvStride row nreg ≤ 16777216 →
      exec (.kvGeomWrite fn p v) s = .next (s.modP p fun q => { q with kvRow := v.truncate 13, kvNreg := v.extractLsb' 16 12 }))) ∧
  (∀ (s : State) (fn : Fn) (p : Fin 16) (set : Byte), s.reach fn p = true →
    ((s.P p).csBusy = true → exec (.load fn p set) s = .next (s.modP p fun q => { q with csDropped := true }) ∧
      exec (.unload fn p set) s = .next (s.modP p fun q => { q with csDropped := true })) ∧
    ((s.P p).csBusy = false →
      exec (.load fn p set) s = .next (s.modP p fun q => { q with csBusy := true, csOp := 1, csSet := set }) ∧
      ((s.P p).csLoaded.getLsbD set.toNat = false → exec (.unload fn p set) s =
        .next (s.modP p fun q => { q with csBusy := true, csOp := 2, csSet := set, csResult := 3 })) ∧
      ((s.P p).csLoaded.getLsbD set.toNat = true → ∃ t, exec (.unload fn p set) s = .next t ∧ OnlyP p s t ∧
        t.P p = { s.P p with csBusy := true, csOp := 2, csSet := set, csResult := 0, csLoaded := (t.P p).csLoaded } ∧
        ∀ i < 256, (t.P p).csLoaded.getLsbD i = ((s.P p).csLoaded.getLsbD i && decide (i ≠ set.toNat))))) ∧
  (∀ (s : State) (p : Fin 16), (s.P p).csBusy = true → s.running = true →
    ((s.P p).csOp = 1 → ∀ r a b, csCheck s p (s.P p).csSet.toNat = (r, a, b) → ∃ t, exec (.csLoadDone p []) s = .next t ∧ OnlyP p s t ∧
      t.P p = { s.P p with csBusy := false, csResult := BitVec.ofNat 3 r, csA := BitVec.ofNat 13 a, csB := BitVec.ofNat 13 b
                           csLoaded := (t.P p).csLoaded } ∧
      ∀ i < 256, (t.P p).csLoaded.getLsbD i = ((s.P p).csLoaded.getLsbD i || decide (r = 0 ∧ i = (s.P p).csSet.toNat))) ∧
    ((s.P p).csOp = 1 → ∀ m, exec (.csLoadDone p m) s = exec (.csLoadDone p []) (s.meet m)) ∧
    ((s.P p).csOp = 2 → s.csNamed p (s.P p).csSet.toNat = false → exec (.csUnloadDone p) s =
      .next (s.modP p fun q => { q with csBusy := false, csA := 0, csB := 0 })) ∧
    ((s.P p).csOp = 2 → s.csNamed p (s.P p).csSet.toNat = true → exec (.csUnloadDone p) s = .next s))

/-! ## Drawlink (16) and the ring (17) -/

/-- The ports: an error threshold reached in UP leaves its record and flag and retrains, but not within 1 s of FLAP, nor for a count of corrections
with CORR_RETRAIN 0; a window's end clears its counts; a replay timeout in UP sends what is not acknowledged again and counts; a signal loss, a peer's
pattern or RETRAIN leaves UP for RETRAIN; a DOWN port with AUTO trains while its pair is driven; an attempt that fails counts up to three and then
declares the port DOWN; a training ends LOOPBACK with LOOP_OK or not, and TRAIN with its exchange or DOWN; a fourth retrain within 1 s is FLAP; an
exchange over a span above 2 does not bring the port UP (16 R370, R372, R373, R376, R379, R381, R382). A flit: out of UP nothing; a buffer error stops
the device; one damaged, out of order or with a reserved field is counted, has a NAK sent and is not taken; a good one acknowledges, returns credit,
moves the sequence on and, if it carries data, is taken (16 R367-R370; 17 R390, R391, R413). -/
def Obligations.DrawlinkPorts : Prop :=
  (∀ (s : State) (k : Fin 4),
    let p := s.dlk.port[k]
    let me := s.nameSelf k
    (p.st ≠ .up ∨ s.running = false → (∀ th, exec (.dlkErrThreshold k th) s = .next s) ∧ exec (.signalLoss k) s = .next s ∧
      exec (.replayTimeout k) s = .next s ∧ ∀ fn, exec (.retrain fn k) s = .next s) ∧
    (p.st = .up → s.running = true →
      (p.corrThr = 0 ∨ p.winCorr < p.corrThr.toNat → exec (.dlkErrThreshold k .corr) s = .next s) ∧
      (p.corrThr ≠ 0 → p.corrThr.toNat ≤ p.winCorr →
        let u := (s.noteLink k 0 1).modPort k fun p => { p with corrTh := true }
        exec (.dlkErrThreshold k .corr) s = .next (if u.dlk.corrRetrain && !u.flapping k then u.enterRetrain k else u)) ∧
      (p.uncorrThr = 0 ∨ p.winUncorr < p.uncorrThr.toNat → exec (.dlkErrThreshold k .uncorr) s = .next s) ∧
      (p.uncorrThr ≠ 0 → p.uncorrThr.toNat ≤ p.winUncorr →
        let u := (s.noteLink k 1 2).modPort k fun p => { p with uncorrTh := true }
        exec (.dlkErrThreshold k .uncorr) s = .next (if u.flapping k then u else u.enterRetrain k)) ∧
      (p.retryThr = 0 ∨ p.winRetry < p.retryThr.toNat → exec (.dlkErrThreshold k .retry) s = .next s) ∧
      (p.retryThr ≠ 0 → p.retryThr.toNat ≤ p.winRetry →
        let u := (s.noteLink k 1 2).modPort k fun p => { p with retryTh := true }
        exec (.dlkErrThreshold k .retry) s = .next (if u.flapping k then u else u.enterRetrain k)) ∧
      (p.retry = [] → exec (.replayTimeout k) s = .next s) ∧
      (p.retry ≠ [] → exec (.replayTimeout k) s =
        .next ((s.modPort k fun p => { p with retryCnt := satAdd p.retryCnt 1, winRetry := p.winRetry + 1 }).each p.retry
          fun s f => s.emit k (if f.ctrl then 2 else 1) f)) ∧
      exec (.signalLoss k) s = .next (s.enterRetrain k) ∧ exec (.trainingPatternDetected k) s = .next (s.enterRetrain k) ∧
      (∀ fn, s.owner fn = true → (k.val < 2 ∨ s.fuses.i2 = true) → exec (.retrain fn k) s = .next (s.enterRetrain k))) ∧
    (∀ fn, s.owner fn = false ∨ 2 ≤ k.val ∧ s.fuses.i2 = false → exec (.retrain fn k) s = .next s) ∧
    exec (.dlkErrWindowEnd k) s = .next (s.modPort k fun p => { p with winCorr := 0, winUncorr := 0, winRetry := 0 }) ∧
    (s.running = true → p.st = .down → p.auto = true → s.dlk.sw[pairOf k].drive = true →
      exec (.autoTrainingTimer k) s = .next (s.modPort k fun p => { p with st := .train, eqStored := false }) ∧
      exec (.trainingPatternDetected k) s = .next (s.modPort k fun p => { p with st := .train, eqStored := false })) ∧
    (s.running = false ∨ p.st ≠ .down ∨ p.auto = false ∨ s.dlk.sw[pairOf k].drive = false → exec (.autoTrainingTimer k) s = .next s ∧
      (s.running = false ∨ p.st ≠ .up → exec (.trainingPatternDetected k) s = .next s)) ∧
    (p.st = .retrain → s.running = true →
      (∀ peer pos size loss, exec (.retrainAttemptDone k (.exchange peer pos size loss)) s = .next (s.exchange k peer pos size loss true)) ∧
      (p.attempt.toNat < 3 →
        exec (.retrainAttemptDone k .fail) s = .next (s.modPort k fun p => { p with attempt := p.attempt + 1, eqStored := false })) ∧
      (3 ≤ p.attempt.toNat → exec (.retrainAttemptDone k .fail) s = .next (s.declareDown k 3))) ∧
    (p.st ≠ .retrain ∨ s.running = false → ∀ r, exec (.retrainAttemptDone k r) s = .next s) ∧
    (s.pwr.rails = false ∨ s.err.firstS4 ≠ none → ∀ r, exec (.fullTrainingDone k r) s = .next s) ∧
    (s.pwr.rails = true → s.err.firstS4 = none →
      (p.st = .loopback → exec (.fullTrainingDone k .fail) s = .next (s.modPort k fun p => { p with loopOk := false }) ∧
        ∀ peer pos size loss, exec (.fullTrainingDone k (.exchange peer pos size loss)) s =
          .next ((me.modPort k fun p => { p with loopOk := true, loss := loss }).tryJoin (pairOf k))) ∧
      (p.st = .train → exec (.fullTrainingDone k .fail) s = .next (s.modPort k fun p => { p with st := .down }) ∧
        ∀ peer pos size loss, exec (.fullTrainingDone k (.exchange peer pos size loss)) s =
          .next (s.exchange k peer pos size loss s.dlk.sw[pairOf k].joining)) ∧
      (p.st ≠ .loopback → p.st ≠ .train → ∀ r, exec (.fullTrainingDone k r) s = .next s)) ∧
    (let recent := p.retrains.filter fun t => s.clk.gt.toNat < t.toNat + 1000000000
     let u := (s.holdHead k).modPort k fun p => { p with
        st := .retrain, attempt := 1, eqStored := true, retrainCnt := satAdd p.retrainCnt 1, retrains := s.clk.gt :: recent, winCorr := 0
        winUncorr := 0, winRetry := 0 }
     s.enterRetrain k = if 3 ≤ recent.length then u.declareDown k 4 else u) ∧
    (∀ peer pos size loss count,
      let span := s.spanOf k peer pos
      let far := me.modPort k fun p => { p with peer := peer, peerValid := true, peerPos := pos, peerSize := size, span := BitVec.ofNat 8 span
                                                loss := loss, spanFail := true }
      (span ≤ 2 → s.exchange k peer pos size loss count = me.comeUp k peer pos size span loss) ∧
      (2 < span → s.exchange k peer pos size loss count = if count then far.declareDown k 5 else far.modPort k fun p => { p with st := .down }))) ∧
  (∀ (s : State) (k : Fin 4) (w : BitVec 2048) (shared first : Option (Fin 545)) (e : Bool),
    (s.dlk.port[k].st ≠ .up ∨ s.running = false → exec (.flitReceived k w shared first e) s = .next s) ∧
    (s.dlk.port[k].st = .up → s.running = true →
      exec (.flitReceived k w shared first true) s = .next (s.report (recOf 4 0x0A 5 (unitPort k)) none 0) ∧
      (let bad := fun (c : Option (Fin 545)) => ∃ n, c = some n ∧ 15 < n.val
       let n := match first with | some n => if n.val ≤ 15 then n.val else 0 | none => 0
       let u := s.modPort k fun p => { p with corrCnt := satAdd p.corrCnt n, winCorr := p.winCorr + n }
       let damaged := bad shared ∨ bad first ∨ crc32 (leBytes 252 w.toNat) ≠ (w.extractLsb' 2016 32).toNat
       let kind := w.extractLsb' 17 2
       let seq := w.extractLsb' 0 8
       let good := ¬ damaged ∧ kind ≠ 3 ∧ w.extractLsb' 29 3 = 0 ∧ (kind = 0 ∨ seq = s.dlk.port[k].rxSeq + 1)
       let then_ := fun (v : State) => ((v.pumpPorts.tryLeaves).audit0).pumpAll
       (damaged → exec (.flitReceived k w shared first false) s = .next (then_ (u.modPort k fun p =>
         { p with uncorrCnt := satAdd p.uncorrCnt 1, winUncorr := p.winUncorr + 1, nakSent := true, nakDue := p.nakDue || !p.nakSent
                  unacked := p.unacked + 1 }))) ∧
       (¬ damaged → ¬ good → exec (.flitReceived k w shared first false) s = .next (then_ (u.modPort k fun p =>
         { p with uncorrCnt := satAdd p.uncorrCnt 1, nakSent := true, nakDue := p.nakDue || !p.nakSent, unacked := p.unacked + 1 }))) ∧
       (good → ∀ v vc : Fin 4, v.val = (w.extractLsb' 21 2).toNat → vc.val = (w.extractLsb' 19 2).toNat →
         let x := u.modPort k fun p =>
           let left := ackRetry (w.extractLsb' 8 8) p.retry
           { p with
             retry := left
             granted := vplus p.granted (Vector.zipWith (· - ·) p.inFlits { p with retry := left }.inFlits)
             credit := giveCredit p.credit v (w.extractLsb' 23 6).toNat
             unacked := p.unacked + 1
             nakSent := if kind = 0 then p.nakSent else false
             nakDue := if kind = 0 then p.nakDue else false
             rxSeq := if kind = 0 then p.rxSeq else seq }
         let y := if w.getLsbD 16 then x.replay k else x
         let z := if kind = 1 then y.takeData k vc (w.extractLsb' 32 96) (w.extractLsb' 128 1888) else y
         exec (.flitReceived k w shared first false) s = .next (then_ z)))))

/-- The bypass and the ends of a pair's join and leave: BYPASS makes a joined pair leave, which is told to both neighbours, removes another drive with
cause 5, and else only names the cause; a join that outlasts its window removes the drive with cause 6, and so does a driven switch sensed closed; a
switch sensed open undriven is a record; both ports DOWN remove the drive with cause 7; a leave that outlasts 1 ms removes it anyway, with cause 3 and
LEAVE_TIMEOUT in a shutdown (16 R376, R380, Tables 16.3 and 16.6; 17 R405). -/
def Obligations.BypassSwitch : Prop :=
  ∀ (s : State) (k : Fin 2),
    let w := s.dlk.sw[k]
    let u := s.modSw k fun w => { w with bypass := true }
    (∀ fn, s.owner fn = true → (k = 0 ∨ s.fuses.i2 = true) →
      (w.joined = true → exec (.bypass fn k) s = .next (u.startLeave k)) ∧
      (w.joined = false → w.drive = true → exec (.bypass fn k) s = .next (u.dropDrive k 5)) ∧
      (w.joined = false → w.drive = false → exec (.bypass fn k) s = .next (s.modSw k fun w => { w with bypass := true, cause := 5 }))) ∧
    (∀ fn, s.owner fn = false ∨ (k = 1 ∧ s.fuses.i2 = false) → exec (.bypass fn k) s = .next s) ∧
    (let v := s.modSw k fun w => { w with leaving := true, returned := false, ackE := false, ackW := false }
     (w.joined = false ∨ w.leaving = true → s.startLeave k = s) ∧
     (w.joined = true → w.leaving = false →
       (k = 1 → s.startLeave k = v.sendTopo 1 4 2 3) ∧
       (k = 0 → s.ringl.tx = [] → (∀ r ∈ s.ringl.rx, r.done = true) →
         s.startLeave k = ({ v with ringl := { v.ringl with st := .leaving } } : State).sendTopo 0 4 0 1))) ∧
    (w.joining = true → exec (.joinWindowExpiry k) s = .next ((s.noteLink (eastOf k) 1 6).dropDrive k 6)) ∧
    (w.joining = false → exec (.joinWindowExpiry k) s = .next s) ∧
    (w.drive = true → exec (.switchSenseTimeout k) s =
      .next (((s.modSw k fun w => { w with fault := true, closed := true }).noteLink (eastOf k) 1 7).dropDrive k 6)) ∧
    (w.drive = false → exec (.switchSenseTimeout k) s =
      .next ((s.modSw k fun w => { w with fault := true, closed := false }).noteLink (eastOf k) 1 8)) ∧
    (w.drive = true → s.dlk.port[eastOf k].st = .down → s.dlk.port[westOf k].st = .down →
      exec (.pairDownTimeout k) s = .next (s.dropDrive k 7)) ∧
    (w.drive = false ∨ s.dlk.port[eastOf k].st ≠ .down ∨ s.dlk.port[westOf k].st ≠ .down → exec (.pairDownTimeout k) s = .next s) ∧
    (w.leaving = true → s.pwr.st ≠ .shuttingDown → exec (.leaveTimeout k) s = .next (s.dropDrive k 5)) ∧
    (w.leaving = true → s.pwr.st = .shuttingDown → exec (.leaveTimeout k) s =
      .next { s.dropDrive k 3 with pwr := { (s.dropDrive k 3).pwr with leaveTimeout := true } }) ∧
    (w.leaving = false → exec (.leaveTimeout k) s = .next s) ∧
    (∀ c, w.drive = false → s.dropDrive k c = s) ∧
    (∀ c, w.drive = true → (s.dropDrive k c).dlk.sw[k] =
      { w with drive := false, closed := true, cause := c, joining := false, joined := false, leaving := false, returned := false, ackE := false
               ackW := false, barred := w.barred || decide (c = 6) })

/-- A sender's transfer: off the ring a message changes nothing. On it, GRANT from its destination records the range and sends what it covers; XACK
retires entries, and the last completes the transfer; REFUSE with BUSY holds it for its repeated REQ, any other reason fails it, and one that answers
a remote TALLY stops its issuer; a transfer with no progress for XFER_TO fails with TIMEOUT, or UNREACHABLE where no route is left (17 R399, R402,
R404, R412). -/
def Obligations.RingSender : Prop :=
  (∀ (s : State) (h : MsgHdr) (a v : W32) (n : W16) (r : Byte) (len : W64) (tag : BitVec 14) (vc : BitVec 2) (rop : BitVec 3) (fmt : Byte) (rank : BitVec 6)
    (off : BitVec 28) (pay : BitVec 1888) (t : BitVec 17) (b : Bool), s.onRing = false →
    ∀ i ∈ [Instr.grant h a n, .xack h a n, .refuse h r, .req h len tag vc rop fmt rank, .data h off pay, .tally h t b v, .reqRetry h.xid
          , .grantIssue h.src h.xid], exec i s = .next s) ∧
  (∀ (s : State) (h : MsgHdr) (first : W32) (n : W16), s.onRing = true →
    (s.tx? h.xid = none → exec (.grant h first n) s = .next s ∧ exec (.xack h first n) s = .next s.pumpAll ∧ exec (.reqRetry h.xid) s = .next s) ∧
    (∀ t, s.tx? h.xid = some t →
      (t.dst ≠ h.src → exec (.grant h first n) s = .next s ∧ exec (.xack h first n) s = .next s.pumpAll) ∧
      (t.dst = h.src →
        exec (.grant h first n) s = .next ((s.modTx h.xid fun t =>
          { t with grants := t.grants ++ [(first.toNat, n.toNat)], answered := true, busy := false, progress := s.clk.gt }).pumpTx h.xid) ∧
        (let new := ((List.range n.toNat).map (first.toNat + ·)).filter fun k => k < xEntries t.len && !t.acked.contains k
         let u := s.modTx h.xid fun t => { t with acked := t.acked ++ new, answered := true, progress := s.clk.gt }
         (∀ o, s.op? t.op = some o → o.mn ≠ .rreduce ∨ t.pass2 = true ∨ peerRank o.sp = 0) → exec (.xack h first n) s =
           .next ((if (t.acked ++ new).length = xEntries t.len then ((u.dropTx h.xid).bump t.ptn .ringXfer 1).tryRingDone t.op else u).pumpAll))) ∧
      (t.dst = h.src → t.ptn = h.dptn →
        exec (.refuse h 9) s = .next (s.modTx h.xid fun t => { t with busy := true, answered := true }) ∧
        (∀ r : Byte, r ≠ 9 → (r = 8 → ∀ y ∈ s.ringl.tallyOut, ¬ (y.xid = h.xid ∧ y.dst = h.src)) →
          exec (.refuse h r) s = .next (s.failTx t r.toNat false))) ∧
      (t.busy = true → exec (.reqRetry h.xid) s = .next ((s.modTx h.xid fun t => { t with busy := false, answered := false }).sendReq t)) ∧
      (t.busy = false → exec (.reqRetry h.xid) s = .next s)) ∧
    (∀ y, (s.ringl.tallyOut.find? fun t => t.xid == h.xid && t.dst == h.src) = some y →
      let u := { s with ringl := { s.ringl with tallyOut := s.ringl.tallyOut.filter fun x => x.xid != h.xid } }
      (s.liveJob y.job = none → exec (.refuse h 8) s = .next u) ∧
      (∀ j, s.liveJob y.job = some j → exec (.refuse h 8) s = .next (u.except j.id j.ptn y.c.val y.c y.pc y.w1 0 exTally)))) ∧
  (∀ (s : State) (xid : W16) (dev : BitVec 17),
    (s.running = false → ∀ b, exec (.xferTimeout xid b dev) s = .next s) ∧
    (s.running = true →
      (∀ t, s.tx? xid = some t → t.dst = dev →
        (t.progress.toNat + s.xferTo * 1000000 ≤ s.clk.gt.toNat → exec (.xferTimeout xid true dev) s =
          .next (s.failTx t (if s.reachable dev.toNat then 5 else 6) true)) ∧
        (s.clk.gt.toNat < t.progress.toNat + s.xferTo * 1000000 → exec (.xferTimeout xid true dev) s = .next s)) ∧
      (∀ r, s.rx? dev xid = some r →
        (r.done = false → r.progress.toNat + s.xferTo * 1000000 ≤ s.clk.gt.toNat → exec (.xferTimeout xid false dev) s =
          .next (s.failRx r (if s.reachable dev.toNat then 5 else 6) true)) ∧
        (r.done = true ∨ s.clk.gt.toNat < r.progress.toNat + s.xferTo * 1000000 → exec (.xferTimeout xid false dev) s = .next s)))) ∧
  (∀ (s : State) (t : TxX) (reason : Nat) (o : Op), s.op? t.op = some o →
    s.failTx t reason false = ((s.dropTx t.xid).bump t.ptn .ringLost 1).opFail o (.xfer reason t.xid.toNat t.dst.toNat true))

/-- A receiver's side: a REQ is answered once, LEAVING and a partition that takes no part refuse it, a started operation takes it or refuses its
FORMAT or SIZE, 256 wait and a further one is BUSY; a grant covers the least of what is missing, what the reservation has free and 1,024
outstanding; DATA of what has drained is a duplicate, answered with XACK; DATA outside a grant is dropped; a remote TALLY is applied once, where the
partition holds the tally (17 R399, R401, R404, R410). -/
def Obligations.RingReceiver : Prop :=
  (∀ (s : State) (h : MsgHdr) (len : W64) (tag : BitVec 14) (vc : BitVec 2) (rop : BitVec 3) (fmt : Byte) (rank : BitVec 6), s.onRing = true →
    let q : ReqM := { src := h.src, sptn := h.sptn, dptn := h.dptn, xid := h.xid, len := len.toNat, tag := tag, vc := vc.toNat, rop := rop.toNat
                      fmt := fmt.toNat, rank := rank.toNat }
    let dup := (∃ r, s.rx? h.src h.xid = some r ∧ r.done = false) ∨ ∃ r ∈ s.ringl.reqs, r.src = h.src ∧ r.xid = h.xid
    let refuse := fun reason => s.sendRefuse h.src.toNat h.dptn.val h.sptn.val h.xid.toNat reason
    let go := exec (.req h len tag vc rop fmt rank) s
    (dup → go = .next s) ∧
    (¬ dup →
      (s.ringl.st = .leaving → go = .next (refuse 7)) ∧
      (s.ringl.st ≠ .leaving →
        (s.ptnLive h.dptn = false → go = .next (refuse 3)) ∧
        (s.ptnLive h.dptn = true →
          (∀ o, (s.ops.find? fun o => s.matches_ o q) = some o →
            (∀ reason, reqBad o q = some reason → go = .next
              (((s.sendRefuse h.src.toNat o.ptn.val h.sptn.val h.xid.toNat reason).bump o.ptn .ringLost 1).opFail o
                (.xfer reason h.xid.toNat h.src.toNat false))) ∧
            (let r : RxX :=
               { src := h.src, sptn := h.sptn, xid := h.xid, op := o.id, ptn := o.ptn, len := len.toNat, next := 0, units := [], comb := []
                 drained := [], buf := [], pass2 := (s.wants o).headD false, done := false, progress := s.clk.gt }
             let l := r :: s.ringl.rx.filter fun x => !isRx h.src h.xid x
             reqBad o q = none → go = .next (({ s with ringl := { s.ringl with rx := l } } : State).tryRxDone h.src h.xid))) ∧
          ((s.ops.find? fun o => s.matches_ o q) = none →
            ((s.ringl.reqs.filter fun r => r.dptn == h.dptn).length < 256 → go = .next { s with ringl := { s.ringl with reqs := s.ringl.reqs ++ [q] } }) ∧
            (256 ≤ (s.ringl.reqs.filter fun r => r.dptn == h.dptn).length → go = .next (refuse 9))))))) ∧
  (∀ (s : State) (src : BitVec 17) (xid : W16) (r : RxX) (o : Op), s.rx? src xid = some r → s.op? r.op = some o → s.onRing = true →
    let n := min (xEntries r.len - r.next) (min (s.freeEntries o.job) (1024 - (r.next - r.drained.length)))
    (r.done = true ∨ n = 0 → exec (.grantIssue src xid) s = .next s) ∧
    (r.done = false → n ≠ 0 → exec (.grantIssue src xid) s =
      .next ((s.modRx src xid fun r => { r with next := r.next + n }).sendRange 1 r r.next n)) ∧
    (∀ (h : MsgHdr) (u : BitVec 28) (pay : BitVec 1888), h.src = src → h.xid = xid →
      let ents := entriesOfUnit r.len u.toNat
      let old := r.done = true ∨ u.toNat ∈ r.units ∨ (ents ≠ [] ∧ ∀ k ∈ ents, k ∈ r.drained)
      (old → exec (.data h u pay) s = .next ((s.bump r.ptn .ringDup 1).each (ents.filter r.drained.contains) fun s k => s.sendRange 3 r k 1)) ∧
      (¬ old → (ents = [] ∨ ∃ k ∈ ents, r.next ≤ k) → exec (.data h u pay) s = .next s) ∧
      (¬ old → ents ≠ [] → (∀ k ∈ ents, k < r.next) →
        let n := min 236 (r.len - 236 * u.toNat)
        let v := s.modRx src xid fun r =>
          { r with units := u.toNat :: r.units, progress := s.clk.gt, buf := wrBytes r.buf (236 * u.toNat) (leBytes n (pay.toNat % 256 ^ n)) }
        (∀ t e, v.takeEntries o src xid ents = (t, some e) → exec (.data h u pay) s = .next (t.opFail o e)) ∧
        (∀ t, v.takeEntries o src xid ents = (t, none) → exec (.data h u pay) s = .next (((t.tryRxDone src xid).pumpOpTx o.id).pumpAll))))) ∧
  (∀ (s : State) (h : MsgHdr), s.rx? h.src h.xid = none → exec (.grantIssue h.src h.xid) s = .next s ∧
    ∀ u pay, exec (.data h u pay) s = .next s) ∧
  (∀ (s : State) (h : MsgHdr) (t : BitVec 17) (b : Bool) (v : W32), s.onRing = true →
    ((h.src, h.xid) ∈ s.ringl.tallySeen → exec (.tally h t b v) s = .next (s.bump h.dptn .ringDup 1)) ∧
    ((h.src, h.xid) ∉ s.ringl.tallySeen → ∃ u : State, { u with ringl := s.ringl } = s ∧ (h.src, h.xid) ∈ u.ringl.tallySeen ∧
      { u.ringl with tallySeen := s.ringl.tallySeen } = s.ringl ∧
      ((s.owns h.dptn csTallies).testBit (t.toNat / 1024) = true → exec (.tally h t b v) s =
        .next ((u.tallyPut t.toNat (if b then v else s.tallyGet t.toNat + v)).settle)) ∧
      ((s.owns h.dptn csTallies).testBit (t.toNat / 1024) = false → exec (.tally h t b v) s =
        .next (u.sendRefuse h.src.toNat h.dptn.val h.sptn.val h.xid.toNat 8))))

/-- Route maps and credits: a TOPO or STATE of this device, or on a pair that has not joined, changes nothing, and one outside the ring role is
counted; else the map it concerns is marked, it is passed on and what a changed route may have lost is sent again; an answered leave goes on; a
marked link is DOWN or not and the others are as before but for slots where no device is; the shorter way over links UP is taken, East on a tie; an
audit that balances clears the failure, the second failure in succession is the mismatch of class 0; reclaimed credits return to free, or to the new
peer (17 R394, R401, R405-R407, R411, R413). How `farEnd` finds a link's other end, and that TOPO and STATE go from neighbour to neighbour, is the
model's reading (log 81). -/
def Obligations.RingMaps : Prop :=
  (∀ (s : State) (port : Fin 4) (kind : Byte) (dev : BitVec 17) (lport : Byte) (ports : BitVec 12),
    let r := pairOf port
    let bad := { s with ringl := { s.ringl with badCnt := satAdd s.ringl.badCnt 1 } }
    (s.running = false ∨ dev.toNat = s.devId ∨ s.dlk.sw[r].joined = false →
      exec (.topo port kind dev lport) s = .next s ∧ exec (.state port dev ports) s = .next s) ∧
    (s.running = true → dev.toNat ≠ s.devId → s.dlk.sw[r].joined = true →
      (s.ringPosOf r dev.toNat = none → exec (.topo port kind dev lport) s = .next bad ∧ exec (.state port dev ports) s = .next bad) ∧
      (∀ pos, s.ringPosOf r dev.toNat = some pos →
        let m := s.mapFor r (decide (2 ≤ lport.toNat))
        let on := fun (t : State) => (t.passOn port 6 0 (topoPay kind.toNat dev.toNat lport.toNat) dev.toNat).resend s
        let east := lport.toNat % 2 == 0
        (kind = 0 ∨ 5 < kind.toNat → exec (.topo port kind dev lport) s = .next bad) ∧
        (m = none → 1 ≤ kind.toNat → kind.toNat ≤ 4 → exec (.topo port kind dev lport) s = .next (on s)) ∧
        (∀ k, m = some k →
          (kind = 1 → exec (.topo port kind dev lport) s = .next (on (s.markLink k pos east true))) ∧
          (kind = 2 → exec (.topo port kind dev lport) s = .next (on (s.markLink k pos east false))) ∧
          (kind = 3 → exec (.topo port kind dev lport) s = .next (on ((s.markLink k pos true true).markLink k pos false true))) ∧
          (kind = 4 →
            let v := s.setMap k fun m => { m with heard := delPos pos m.heard, leaving := insPos pos m.leaving }
            let w := v.each (v.portsTo k dev.toNat) fun s p =>
              (s.modPort p fun p => { p with peerLeft := true }).sendHop (s.ctlPort k (isEast p)) 6 0 s.devId (topoPay 5 s.devId p.val)
            exec (.topo port kind dev lport) s = .next (on w))) ∧
        (∀ k : Fin 2, kind = 5 → k = (if s.upperPair r = true ∨ 2 ≤ lport.toNat then 1 else 0) →
          (s.dlk.sw[k].leaving = true → exec (.topo port kind dev lport) s = .next
            ((s.modSw k fun w => { w with ackE := w.ackE || !east, ackW := w.ackW || east }).tryLeave k)) ∧
          (s.dlk.sw[k].leaving = false → exec (.topo port kind dev lport) s = .next s)) ∧
        (let up := fun (i : Nat) => let v := ports.toNat / 2 ^ (3 * i) % 8; v == 3 || v == 4
         s.upperPair r = false → s.planePair = false → dev.toNat ≠ s.gatewayId → exec (.state port dev ports) s = .next
          ((((if !up 0 && !up 1 then s.setMap 0 fun m => { m with heard := delPos pos m.heard }
            else (s.markLink 0 pos true (up 0)).markLink 0 pos false (up 1)).passOn port 8 3 (BitVec.ofNat 1888 ports.toNat) dev.toNat)).resend s))))) ∧
  (∀ (m : RMap) (n a b : Nat) (up : Bool) (x : Nat),
    x ∈ (m.mark n a b up).down ↔ (x ∈ m.down ∧ x ≠ a ∧ between n a b x = false) ∨ (up = false ∧ x = a)) ∧
  (∀ (m : RMap) (n a d : Nat),
    let e := (d + n - a % n) % n
    let w := (n - e) % n
    (m.direction n a d = some true ↔ m.clear n a e = true ∧ (m.hops n a e ≤ m.hops n d w ∨ m.clear n d w = false)) ∧
    (m.direction n a d = none ↔ m.clear n a e = false ∧ m.clear n d w = false)) ∧
  (∀ s : State,
    (s.running = false → exec .stateBroadcast s = .next s) ∧
    (s.running = true → (∀ k : Fin 2, s.dlk.sw[k].joined = false) → exec .stateBroadcast s = .next s) ∧
    (s.running = true → s.dlk.sw[0].joined = true → s.dlk.sw[1].joined = false → s.dlk.port[0].linked = true → s.dlk.port[1].linked = true →
      let f := fun (k : Fin 4) => mkFlit 3 (s.dateline k)
        (ringHdr s.dlk.port[k].peer.toNat s.devId 0 0 8 0 0 (s.dateline k) false) (BitVec.ofNat 1888 s.portStates) none
      exec .stateBroadcast s = .next ((s.putFlit 0 (f 0)).putFlit 1 (f 1)))) ∧
  (∀ (s : State) (k : Fin 4) (a b : Nat),
    (s.dlk.port[k].st ≠ .up ∨ s.running = false → exec (.hopAudit k a b) s = .next s) ∧
    (s.dlk.port[k].st = .up → s.running = true →
      let u := (s.modPort k fun p => { p with ctrlDue := p.ctrlDue + 1 }).pumpPort k
      let out := vsum u.dlk.port[k].granted + vsum u.dlk.port[k].inFlits
      (a + b = out → exec (.hopAudit k a b) s = .next (u.modPort k fun p => { p with auditFail := 0 })) ∧
      (a + b ≠ out → u.dlk.port[k].auditFail = 0 → exec (.hopAudit k a b) s = .next (u.modPort k fun p => { p with auditFail := 1 })) ∧
      (a + b ≠ out → u.dlk.port[k].auditFail ≠ 0 → exec (.hopAudit k a b) s =
        .next ({ u with ldg := { u.ldg with mismatch := true, cls := 0 } }.report (recOf 4 0x0A 4 unitLedger) none 0))) ∧
    (let n := vsum s.dlk.port[k].reclaim
     let v := { s with ldg := { s.ldg with reclaimCnt := satAdd s.ldg.reclaimCnt n } }
     (s.dlk.port[k].linked = true → s.dlk.sw[pairOf k].joined = true → exec (.creditReclaim k) s =
       .next ((v.modPort k fun p => { p with owed := vplus p.owed p.reclaim, reclaim := vzero }).pumpPort k)) ∧
     (s.dlk.port[k].linked = false ∨ s.dlk.sw[pairOf k].joined = false → exec (.creditReclaim k) s =
       .next ((v.modPort k fun p => { p with issued := p.issued - n, reclaim := vzero }).pumpPort k))))

/-! ## Power, reset and start-up (20) -/

/-- Power up: VSB_UP starts the always-on domain with the straps sampled and CHALLENGE new; a start condition powers on; each stage that passes
leads to the next, a boot image that fails its checks is recorded and the next slot or recovery mode follows, and a unit that fails leaves STAGE 7
with its code; in recovery mode GO boots the image in the window or records its code; PERST0# in ON is a warm reset, after which start-up stands at
stage 1 with both switches closed and CLOSE_CAUSE 2, and the clock block but for CUR and TARGET, the traces and the always-on registers hold; VSB_LOSS
loses the always-on domain and the drives with it, and keeps fuses and flash (20 R464, R466, R468-R473, R477, R479, R481; 15 R365; 22 R520). -/
def Obligations.PowerUp : Prop :=
  ∀ s : State, ∀ p : Pwr, p = s.pwr →
    (∀ addr a t e w, p.vsb = true → exec (.vsbUp addr a t e w) s = .next s) ∧
    (∀ addr a t e w, p.vsb = false → ∃ u, exec (.vsbUp addr a t e w) s = .next u ∧ u.pwr.vsb = true ∧ u.pwr.st = .off ∧ u.pwr.rails = false ∧
      u.mbs = { Mbs.reset with addr := addr } ∧ u.pwr.autoOn = a ∧ u.pwr.testMode = t ∧ u.pwr.pwrEn = e ∧ u.pwr.edge = e ∧ u.pwr.pwrWarn = w ∧
      u.pwr.flash = p.flash ∧ u.fuses = s.fuses ∧ u.pending = s.pending ∧ u.err = State.reset.err ∧ u.tbs = State.reset.tbs ∧
      u.dbg.challenge = Config.challenge s.free ∧ u.dbg.isOpen = !s.fuses.locked) ∧
    (p.vsb = true → ∃ u, exec .vsbLoss s = .next u ∧ u.pwr.vsb = false ∧ u.pwr.rails = false ∧ u.pwr.flash = p.flash ∧ u.fuses = s.fuses ∧
      u.err = State.reset.err ∧ ∀ k : Fin 2, u.dlk.sw[k].drive = false) ∧
    (∀ r, p.vsb = true → p.st = .off → p.vinOk = true → p.pwrWarn = false → p.pwrEn = true → (p.autoOn = true ∧ p.stayOff = false ∨ p.edge = true) →
      exec (.startCondition r) s = .next { s with pwr := { p with
        st := .starting, stage := 0, rails := true, edge := false, recovStrap := r, upAt := some 0 } }.powerOn) ∧
    (∀ r, p.vsb = false ∨ p.st ≠ .off ∨ p.vinOk = false ∨ p.pwrWarn = true ∨ p.pwrEn = false ∨ ((p.autoOn = false ∨ p.stayOff = true) ∧ p.edge = false) →
      exec (.startCondition r) s = .next s) ∧
    (p.rails = false ∨ p.recovMode = true ∨ 5 ≤ p.stage.toNat ∨ p.heldByPerst = true → ∀ r, exec (.startupStageDone r) s = .next s) ∧
    (p.rails = true → p.recovMode = false → p.heldByPerst = false → (p.st = .starting ∨ p.st = .on ∧ p.warm = true) →
      (∀ u, exec (.startupStageDone (.unitFail u)) s = .next (s.unitFails u)) ∧
      (p.stage ≠ 1 → exec (.startupStageDone .readError) s = .next s) ∧
      (p.stage = 0 → p.testMode = false → p.recovStrap = false → exec (.startupStageDone .pass) s =
        .next { s with clk := { s.clk with lock := lockMask s.fuses }, pwr := { p with stage := 1 } }) ∧
      (p.stage = 0 → p.testMode = true → exec (.startupStageDone .pass) s = .next { s with clk := { s.clk with lock := lockMask s.fuses } }) ∧
      (p.stage = 0 → p.testMode = false → p.recovStrap = true → exec (.startupStageDone .pass) s =
        .next { s with clk := { s.clk with lock := lockMask s.fuses }, pwr := { p with stage := 1, recovMode := true } }) ∧
      (p.stage = 1 → exec (.startupStageDone .pass) s = .next { s with pwr := { p with stage := 2, bootMode := 3 } } ∧
        exec (.startupStageDone .readError) s = .next (s.slotFails 1)) ∧
      (p.stage = 2 →
        (bootCode s.fuses (s.slotBytes p.bootSlot) = 0 → exec (.startupStageDone .pass) s =
          .next { s with pwr := { p with secVer := secVerOf (s.slotBytes p.bootSlot) } }.toStage3) ∧
        (bootCode s.fuses (s.slotBytes p.bootSlot) ≠ 0 → exec (.startupStageDone .pass) s =
          .next (s.slotFails (bootCode s.fuses (s.slotBytes p.bootSlot))))) ∧
      (p.stage = 3 → exec (.startupStageDone .pass) s = .next { s with pwr := { p with stage := 4 } }) ∧
      (p.stage = 4 → exec (.startupStageDone .pass) s = .next { s with pwr := { p with stage := 5, st := .on, warm := false } })) ∧
    (∀ u, (s.unitFails u).pwr.stage = 7 ∧ (s.unitFails u).pwr.failUnit = u ∧
      (s.unitFails u).pwr.st = if p.stage = 0 ∧ u = 0x56 then .offHold else p.st) ∧
    (∀ code : Nat, let u := s.slotFails code
      u.pwr.stage = 1 ∧
      (p.bootSlot = false → u.pwr = { p with failA := BitVec.ofNat 4 code, bootSlot := true, stage := 1 }) ∧
      (p.bootSlot = true → u.pwr = { p with failB := BitVec.ofNat 4 code, recovMode := true, stage := 1 })) ∧
    (s.toStage3.pwr = { p with stage := 3 } ∧ ∀ k : Fin 4,
      s.toStage3.dlk.port[k] = if k.val < 2 ∨ s.fuses.i2 = true then { s.dlk.port[k] with st := .loopback } else s.dlk.port[k]) ∧
    (∀ fn, s.fnAlive fn = false ∨ fn ≠ .pf 0 → exec (.go fn) s = .next s) ∧
    (∀ fn, s.fnAlive fn = true → fn = .pf 0 →
      (p.recovMode = false → exec (.go fn) s = .next s) ∧
      (p.recovMode = true →
        let b := rdBytes p.window 0 (min 4194304 p.recovLen.toNat)
        (bootCode s.fuses b = 0 → exec (.go fn) s =
          .next { s with pwr := { p with failR := 0, recovMode := false, fromWindow := true, secVer := secVerOf b } }.toStage3) ∧
        (bootCode s.fuses b ≠ 0 → exec (.go fn) s =
          .next ({ s with pwr := { p with failR := BitVec.ofNat 4 (bootCode s.fuses b) } }.platform 1 3 (2 + 256 * bootCode s.fuses b))))) ∧
    (p.st = .on → exec .perst0Assert s = .next { s with pwr := { p with perst0 := true } }.warmReset) ∧
    (let u := s.warmReset
     u.pwr.stage = 1 ∧ u.pwr.warm = true ∧ u.pwr.failA = 0 ∧ u.pwr.failB = 0 ∧ u.pwr.rails = p.rails ∧ u.pwr.flash = p.flash ∧ u.pwr.st = p.st ∧
      u.clk = { s.clk with cur := 10, target := 10, joinStep := false } ∧ u.fuses = s.fuses ∧ u.pending = s.pending ∧ u.tap = s.tap ∧
      u.jobs = [] ∧ u.ops = [] ∧ u.xfers = [] ∧ u.chans = [] ∧ u.tallies = [] ∧ (∀ q : Fin 16, u.P q = Ptn.reset) ∧ u.ringl = State.reset.ringl ∧
      (∀ k : Fin 2, u.dlk.sw[k] = { Switch.reset with cause := 2 }) ∧
      (∀ c : Fin 32, let k := s.cl[c]
        u.cl[c] = { Cluster.reset with owner := k.owner, trace := k.trace, traceTotal := k.traceTotal, traceCyc := k.traceCyc }) ∧
      u.mbs = { s.mbs with fScl := false, fSda := false, pecErr := false, badCmd := false, txnCnt := 0, errCnt := 0 }) ∧
    (p.st = .off ∨ p.st = .shuttingDown ∨ p.st = .offHold → exec .perst0Assert s = .next { s with pwr := { p with perst0 := true } }) ∧
    (p.st = .starting → ∃ u, exec .perst0Assert s = .next u ∧ { u with io := s.io } = { s with pwr := { p with perst0 := true } } ∧ u.io[1] = s.io[1] ∧
      u.io[0] = { IoDie.reset with tlb := s.io[0].tlb }) ∧
    (p.rails = false → exec .perst0Deassert s = .next { s with pwr := { p with perst0 := false } }) ∧
    (p.rails = true → exec .perst0Deassert s =
      .next ({ s with pwr := { p with perst0 := false } }.modIo 0 fun d => { d with inReset := false })) ∧
    (p.st = .offHold → exec .offHoldExpiry s = .next { s with pwr := { p with st := .off } }) ∧
    (p.st ≠ .offHold → exec .offHoldExpiry s = .next s)

/-- Power down: the pins and the triggers that each raises; a trigger in ON is recorded, names the cause, resets every partition and makes each pair
leave, or lose its drive at once in a join or a retrain; in STARTING it names the cause; in SHUTTING_DOWN it only sets its bit in TRIGGERS, and in OFF
or OFF_HOLD nothing. Rails lost leave OFF_HOLD with the powered domain reset, records not yet written in the log, and a switch still driven falls with
cause 7 (20 R464, R465, R474-R476, R480; 16 R383). -/
def Obligations.PowerDown : Prop :=
  ∀ s : State, ∀ p : Pwr, p = s.pwr →
    (∀ b, exec (.shutdown (.pf 1) b) s = .next s ∧ ∀ io n, exec (.shutdown (.vf io n) b) s = .next s) ∧
    (s.fnAlive (.pf 0) = true → ∀ b, exec (.shutdown (.pf 0) b) s = .next ({ s with pwr := { p with stayOff := p.stayOff || b, edge := p.edge && !b } }.trigger 1)) ∧
    (p.vsb = true → p.pwrEn = false → exec .pwrEnRise s = .next { s with pwr := { p with
      pwrEn := true, stayOff := false, edge := p.edge || decide (p.st = .off ∨ p.st = .shuttingDown ∨ p.st = .offHold) } }) ∧
    (p.vsb = true → p.pwrEn = true → exec .pwrEnFall s = .next ({ s with pwr := { p with pwrEn := false } }.trigger 3)) ∧
    (p.vsb = true → p.pwrWarn = false → exec .pwrWarnAssert s = .next ({ s with pwr := { p with pwrWarn := true } }.trigger 2)) ∧
    (p.vsb = true → p.pwrWarn = true → exec .pwrWarnDeassert s = .next { s with pwr := { p with
      pwrWarn := false, supplyReturned := p.supplyReturned || decide (p.st = .shuttingDown ∨ p.st = .offHold) } }) ∧
    (p.vsb = false ∨ p.pwrEn = true → exec .pwrEnRise s = .next s) ∧ (p.vsb = false ∨ p.pwrEn = false → exec .pwrEnFall s = .next s) ∧
    (p.vsb = false ∨ p.pwrWarn = true → exec .pwrWarnAssert s = .next s) ∧ (p.vsb = false ∨ p.pwrWarn = false → exec .pwrWarnDeassert s = .next s) ∧
    (∀ v : W16, p.vsb = true →
      (4800 ≤ v.toNat → v.toNat ≤ 6000 → exec (.vinOutOfRange v) s = .next s ∧
        exec (.vinInRange v) s = .next { s with pwr := { p with
          vin := v, vinOk := true, supplyReturned := p.supplyReturned || (decide (p.st = .shuttingDown ∨ p.st = .offHold) && !p.vinOk) } }) ∧
      (v.toNat < 4800 ∨ 6000 < v.toNat → exec (.vinInRange v) s = .next s ∧
        let u := { s with pwr := { p with vin := v, vinOk := false } }
        let w := if p.st = .on then u.platform 1 2 v.toNat else u
        exec (.vinOutOfRange v) s = .next (if v.toNat < 4600 ∨ 6200 < v.toNat then w.trigger 6 else w))) ∧
    (∀ k : Fin 2,
      (s.dlk.sw[k].joined = true → s.dlk.port[eastOf k].st ≠ .retrain → s.dlk.port[westOf k].st ≠ .retrain → s.shutPair k = s.startLeave k) ∧
      (s.dlk.sw[k].joined = false ∨ s.dlk.port[eastOf k].st = .retrain ∨ s.dlk.port[westOf k].st = .retrain → s.shutPair k = s.dropDrive k 3)) ∧
    (∀ c, 1 ≤ c → c ≤ 6 →
      (p.st = .on → ∃ u : State, { u with pwr := p } = s.platform 0 1 c ∧
        u.pwr = { p with st := .shuttingDown, sdCause := BitVec.ofNat 3 c, triggers := 0, supplyReturned := false, leaveTimeout := false } ∧
        s.trigger c = (((u.each (List.finRange 16) State.shutPtn).shutPair 0).shutPair 1).pumpAll) ∧
      (p.st = .off ∨ p.st = .offHold → s.trigger c = s) ∧
      (p.st = .shuttingDown → s.trigger c = { s with pwr := { p with triggers := p.triggers ||| BitVec.ofNat 6 (2 ^ (c - 1)) } }) ∧
      (p.st = .starting → s.trigger c = { s with pwr := { p with
        st := .shuttingDown, sdCause := BitVec.ofNat 3 c, triggers := 0, supplyReturned := false, leaveTimeout := false } })) ∧
    (p.rails = false → exec .mainRailsDown s = .next s) ∧
    (p.rails = true → ∃ u, exec .mainRailsDown s = .next u ∧ u.pwr.rails = false ∧ u.pwr.st = .offHold ∧ u.pwr.stage = 0 ∧
      u.pwr.flash = p.flash ∧ u.pwr.stayOff = p.stayOff ∧ u.mbs = s.mbs ∧ u.tbs = s.tbs ∧
      u.err.log = ((s.each (List.finRange 16) fun s q => s.dropQueue (some q) false).dropQueue none false).err.log ∧ u.jobs = [] ∧ u.ops = [] ∧ u.tallies = [] ∧
      u.clk = { s.clk with lock := 0 } ∧ (∀ q : Fin 16, u.P q = Ptn.reset) ∧ u.fuses = s.fuses ∧
      (u.pwr.cleanOff = true ↔ p.st = .shuttingDown ∧ s.dlk.sw[0].drive = false ∧ s.dlk.sw[1].drive = false ∧ (p.vinOk = true ∨ 4000 ≤ p.vin.toNat)) ∧
      ∀ k : Fin 2, u.dlk.sw[k] = { Switch.reset with cause := if s.dlk.sw[k].drive then 7 else s.dlk.sw[k].cause })

/-- Cluster resets and the flash: through IO0's physical function alone; PWR_CLRST resets the clusters it names that are not resetting, whose job ends
with ENGINE_DATA and whose die skips the month of a hold in progress; its end leaves a cluster as at reset but for its owner and trace; a
flash command written outside ON is ignored, while one is in progress dropped, misaligned an error, and else takes its address; a read fills the
buffer, a program can only clear bits, an erase leaves 0xFF, and no byte outside the command's range changes (20 R467, R478, Table 20.13; what
programming does is log 7's). -/
def Obligations.ClusterResetAndFlash : Prop :=
  (∀ (s : State) (mask : W32), s.fnAlive (.pf 0) = true →
    (s.pwr.st ≠ .on → exec (.pwrClrst (.pf 0) mask) s = .next s ∧
      ∀ i ∈ [Instr.flashRead (.pf 0), .flashProgram (.pf 0), .flashErase (.pf 0)], exec i s = .next s) ∧
    (s.pwr.st = .on → exec (.pwrClrst (.pf 0) mask) s =
      .next (s.each ((List.finRange 32).filter fun c => mask.getLsbD c.val && !s.pwr.clrst.getLsbD c.val) fun s c =>
        let u := (s.clusterFails c).skipDie (c.val / 8)
        { u with pwr := { u.pwr with clrst := setBit u.pwr.clrst c.val true } })) ∧
    (s.pwr.st = .on →
      (s.pwr.flashOp ≠ 0 → ∀ i ∈ [Instr.flashRead (.pf 0), .flashProgram (.pf 0), .flashErase (.pf 0)],
        exec i s = .next { s with pwr := { s.pwr with flashDropped := true } }) ∧
      (s.pwr.flashOp = 0 → ∀ e ∈ ([(.flashRead (.pf 0), 1, 256), (.flashProgram (.pf 0), 2, 256), (.flashErase (.pf 0), 3, 65536)]
          : List (Instr × BitVec 2 × Nat)),
        (s.pwr.flashAddr.toNat % e.2.2 ≠ 0 → exec e.1 s = .next { s with pwr := { s.pwr with flashErr := true } }) ∧
        (s.pwr.flashAddr.toNat % e.2.2 = 0 → exec e.1 s = .next { s with pwr := { s.pwr with flashOp := e.2.1, flashAt := s.pwr.flashAddr } })))) ∧
  (∀ (s : State) (fn : Fn), s.fnAlive fn = false ∨ fn ≠ .pf 0 → (∀ m, exec (.pwrClrst fn m) s = .next s) ∧
    ∀ i ∈ [Instr.flashRead fn, .flashProgram fn, .flashErase fn], exec i s = .next s) ∧
  (∀ (s : State) (c : Fin 32),
    (∀ j, s.cl[c].job.bind s.liveJob = some j → s.clusterFails c = s.except j.id j.ptn c.val c s.cl[c].pc 0 0 exData) ∧
    (s.cl[c].job.bind s.liveJob = none → s.clusterFails c = s) ∧
    (s.pwr.clrst.getLsbD c.val = false → exec (.clusterResetDone c) s = .next s) ∧
    (s.pwr.clrst.getLsbD c.val = true → ∃ t, exec (.clusterResetDone c) s = .next t ∧ { t with pwr := s.pwr, owners := s.owners, cl := s.cl } = s ∧
      (∀ d : Fin 32, d ≠ c → t.cl[d] = s.cl[d]) ∧
      t.cl[c] = { Cluster.reset with owner := s.cl[c].owner, trace := s.cl[c].trace, traceTotal := s.cl[c].traceTotal, traceCyc := s.cl[c].traceCyc } ∧
      t.pwr = { s.pwr with clrst := setBit s.pwr.clrst c.val false } ∧
      (∀ w, w ∈ t.owners ↔ w ∈ s.owners ∧ ¬ ((w.k = .mxa ∧ w.unit = s.physUnit .mxa c.val) ∨ (w.k = .mvp ∧ w.unit = s.physUnit .mvp c.val) ∨
        (w.k = .ssu ∧ w.unit = s.physUnit .ssu c.val))))) ∧
  (∀ s : State, ∀ a : Nat, a = s.pwr.flashAt.toNat →
    (s.pwr.flashOp = 0 → ∀ ok, exec (.flashCmdDone ok) s = .next s) ∧
    (s.pwr.flashOp = 1 → ∃ t, exec (.flashCmdDone true) s = .next t ∧ t = { s with pwr := { s.pwr with flashOp := 0, flashBuf := t.pwr.flashBuf } } ∧
      ∀ i < 256, t.pwr.flashBuf.extractLsb' (8 * i) 8 = sget 0xFF s.pwr.flash (a + i)) ∧
    (s.pwr.flashOp = 2 → ∃ t, exec (.flashCmdDone true) s = .next t ∧ t = { s with pwr := { s.pwr with flashOp := 0, flash := t.pwr.flash } } ∧
      ∀ x, sget 0xFF t.pwr.flash x =
        if a ≤ x ∧ x < a + 256 then sget 0xFF s.pwr.flash x &&& s.pwr.flashBuf.extractLsb' (8 * (x - a)) 8 else sget 0xFF s.pwr.flash x) ∧
    (s.pwr.flashOp = 3 → ∃ t, exec (.flashCmdDone true) s = .next t ∧ t = { s with pwr := { s.pwr with flashOp := 0, flash := t.pwr.flash } } ∧
      ∀ x, sget 0xFF t.pwr.flash x = if a ≤ x ∧ x < a + 65536 then 0xFF else sget 0xFF s.pwr.flash x) ∧
    (s.pwr.flashOp ≠ 0 → ∃ t, exec (.flashCmdDone false) s = .next t ∧ t.pwr.flashErr = true ∧ t.pwr.flashOp = 0 ∧
      { t with free := s.free, pwr := s.pwr } = s ∧
      { t.pwr with flashErr := s.pwr.flashErr, flashOp := s.pwr.flashOp, flashBuf := s.pwr.flashBuf, flash := s.pwr.flash } = s.pwr))

/-! ## The two-wire buses (19) -/

/-- The read commands of Table 19.3: with the standby rail up each returns its bytes, and a PEC byte over the whole transaction where the controller
acknowledges the last of them, and counts one transaction; LOG_READ then moves the selection back by one; nothing else changes, and without the
standby rail nothing at all. The fields of IDENTITY, HEALTH, TEMPS and POWER (Tables 19.3 and 19.5). -/
def Obligations.ManagementReads : Prop :=
  (∀ (s : State) (pec : Bool), ∀ e ∈ ([ (.identity pec, 0x00, block 16 s.mbIdentity), (.health pec, 0x01, block 16 s.mbHealth)
      , (.temps pec, 0x02, block 16 s.mbTemps), (.power pec, 0x03, block 8 s.mbPower), (.bypassStatus pec, 0x04, leBytes 2 s.bypStatus)
      , (.ring pec, 0x05, block 8 (s.mbs.mirror.ring.toNat + s.pwr.rails.toNat * 2 ^ 56))
      , (.logHead pec, 0x06, leBytes 2 (s.err.logNext.toNat + s.err.logTotal.toNat % 1024 * 64))
      , (.logSelectRead pec, 0x07, [BitVec.ofNat 8 s.mbs.logSel.toNat]), (.logRead pec, 0x08, block 32 s.err.log[s.mbs.logSel.toNat].toNat)
      , (.busStatus pec, 0x09, [BitVec.ofNat 8 s.mbBusStatus])
      , (.scratchRead pec, 0x0F, BitVec.ofNat 8 s.mbs.scratch.length :: s.mbs.scratch) ] : List (Instr × Byte × List Byte)),
    (s.pwr.vsb = false → exec e.1 s = .next s) ∧
    (s.pwr.vsb = true → ∃ t : State, exec e.1 s = .next t ∧ { t with mbs := s.mbs, mbOut := s.mbOut } = s ∧
      t.mbs = { s.mbs with txnCnt := satAdd s.mbs.txnCnt 1
                           logSel := if e.2.1 = 0x08 then s.mbs.logSel - 1 else s.mbs.logSel } ∧
      t.mbOut = e.2.2 ++ if pec then
        [crc8 ([BitVec.ofNat 8 (2 * (0x58 + s.mbs.addr.toNat)), e.2.1, BitVec.ofNat 8 (2 * (0x58 + s.mbs.addr.toNat) + 1)] ++ e.2.2)] else [])) ∧
  (∀ s : State, (∀ n v, block n v = BitVec.ofNat 8 n :: (List.range n).map fun i => BitVec.ofNat 8 (v / 256 ^ i)) ∧
    s.mbIdentity % 2 ^ 40 = 0xB004161FD4 ∧ s.mbIdentity / 2 ^ 40 % 4 = s.fuses.stackCode.toNat ∧
    s.mbIdentity / 2 ^ 42 % 64 = s.fuses.i2.toNat ∧ s.mbIdentity / 2 ^ 48 % 2 ^ 16 = s.mbs.addr.toNat ∧
    s.mbIdentity / 2 ^ 64 = s.fuses.serial.toNat ∧
    s.mbHealth % 256 = s.pwr.stage.toNat ∧ s.mbHealth / 2 ^ 8 % 256 = s.pwr.failUnit.toNat ∧
    s.mbHealth / 2 ^ 16 % 32 = s.mbs.mirror.flags.toNat % 32 ∧ s.mbHealth / 2 ^ 21 % 2 = s.tbs.valid.toNat ∧
    s.mbHealth / 2 ^ 22 % 2 = s.mbs.mirror.flags.toNat / 64 ∧ s.mbHealth / 2 ^ 23 % 512 = s.pwr.rails.toNat ∧
    s.mbHealth / 2 ^ 32 % 2 ^ 32 = s.err.logTotal.toNat ∧ s.mbHealth / 2 ^ 96 = 0 ∧
    (s.pwr.upAt = none → s.mbHealth / 2 ^ 64 = 0) ∧
    (∀ t, s.pwr.upAt = some t → s.mbHealth / 2 ^ 64 = (s.clk.ns - t.toNat) / 1000000 % 2 ^ 32) ∧
    s.mbTemps % 2 ^ 16 = s.tbs.sample[2].toNat ∧ s.mbTemps / 2 ^ 16 % 2 ^ 16 = s.tbs.sample[3].toNat ∧
    s.mbTemps / 2 ^ 32 % 2 ^ 16 = s.tbs.sample[4].toNat ∧ s.mbTemps / 2 ^ 48 % 2 ^ 64 = s.mbs.mirror.temps.toNat ∧
    s.mbTemps / 2 ^ 112 = s.tbs.valid.toNat + 2 * s.pwr.rails.toNat ∧
    s.mbPower % 256 = (match s.pwr.st with | .off => 0 | .starting => 1 | .on => 2 | .shuttingDown => 3 | .offHold => 4) ∧
    s.mbPower / 2 ^ 8 % 256 = s.pwr.autoOn.toNat + 2 * s.pwr.pwrEn.toNat + 4 * s.pwr.pwrWarn.toNat ∧
    s.mbPower / 2 ^ 16 % 2 ^ 16 = s.pwr.pin.toNat ∧ s.mbPower / 2 ^ 32 = s.mbs.mirror.cclk.toNat)

/-- The writes of Table 19.3, what the target refuses, its timeouts, and the mirror: a write whose PEC byte is wrong is discarded with PEC_ERR; an
undefined or read-only command byte, LOG_SELECT bits [7:6], or a block count of 0 or above 16 sets BAD_CMD; a timeout leaves the mirror and the
selection alone; the mirror follows the powered domain only while the main rails are up. -/
def Obligations.ManagementWrites : Prop :=
  ∀ s : State,
    let bad := { s with mbs := { s.mbs with badCmd := true, txnCnt := satAdd s.mbs.txnCnt 1, errCnt := satAdd s.mbs.errCnt 1 } }
    let pecBad := { s with mbs := { s.mbs with pecErr := true, txnCnt := satAdd s.mbs.txnCnt 1, errCnt := satAdd s.mbs.errCnt 1 } }
    let crc := fun (d : List Byte) => crc8 (BitVec.ofNat 8 (2 * (0x58 + s.mbs.addr.toNat)) :: d)
    (s.pwr.vsb = false → (∀ v p, exec (.logSelect v p) s = .next s) ∧ (∀ b p, exec (.scratchWrite b p) s = .next s) ∧
      (∀ c, exec (.mbBadCommand c) s = .next s ∧ exec (.mbSclTimeout c) s = .next s) ∧ exec .mbSdaTimeout s = .next s) ∧
    (s.pwr.vsb = true →
      (∀ (v : Byte) (p : Option Byte),
        (64 ≤ v.toNat → exec (.logSelect v p) s = .next bad) ∧
        (v.toNat < 64 → (p = none ∨ p = some (crc [0x07, v])) →
          exec (.logSelect v p) s = .next { s with mbs := { s.mbs with logSel := v.truncate 6, txnCnt := satAdd s.mbs.txnCnt 1 } }) ∧
        (v.toNat < 64 → p ≠ none → p ≠ some (crc [0x07, v]) → exec (.logSelect v p) s = .next pecBad)) ∧
      (∀ (b : List Byte) (p : Option Byte),
        (b.length = 0 ∨ 16 < b.length → exec (.scratchWrite b p) s = .next bad) ∧
        (1 ≤ b.length → b.length ≤ 16 → (p = none ∨ p = some (crc ([0x0F, BitVec.ofNat 8 b.length] ++ b))) →
          exec (.scratchWrite b p) s = .next { s with mbs := { s.mbs with scratch := b, txnCnt := satAdd s.mbs.txnCnt 1 } }) ∧
        (1 ≤ b.length → b.length ≤ 16 → p ≠ none → p ≠ some (crc ([0x0F, BitVec.ofNat 8 b.length] ++ b)) →
          exec (.scratchWrite b p) s = .next pecBad)) ∧
      (∀ c : Byte, c ≠ 0x07 → c ≠ 0x0F → exec (.mbBadCommand c) s = .next bad) ∧
      (∀ c : Byte, exec (.mbSclTimeout c) s = .next ({ s with mbs :=
        { s.mbs with fScl := true, txnCnt := satAdd s.mbs.txnCnt 1, errCnt := satAdd s.mbs.errCnt 1 } }.busNote 0 1 c.toNat)) ∧
      exec .mbSdaTimeout s = .next ({ s with mbs := { s.mbs with fSda := true, errCnt := satAdd s.mbs.errCnt 1 } }.busNote 0 2 0)) ∧
    (s.pwr.rails = false → exec .mirrorUpdate s = .next s) ∧
    (s.pwr.rails = true → exec .mirrorUpdate s = .next { s with mbs := { s.mbs with mirror := s.mirrorNow } } ∧
      s.mirrorNow.cclk = s.clk.cur ∧ s.mirrorNow.ring.toNat % 2 ^ 24 = s.devId % 2 ^ 24 ∧
      s.mirrorNow.temps = s.thm.die[3].temp ++ s.thm.die[2].temp ++ s.thm.die[1].temp ++ s.thm.die[0].temp ∧
      s.mirrorNow.flags.getLsbD 0 = s.err.fatal ∧ s.mirrorNow.flags.getLsbD 6 = s.anyFenced)

/-- Tray samples: a slot starts one while EN is 1 and none runs; one that finds SDA low waits for the SDA-stuck timeout; its registers are taken,
with the time, only with result OK; the first failing row of Table 19.7 gives any other result, and the registers of the last valid sample stay. A
timeout aborts a sample under way (a slot that waits for SDA with CONFLICT, which is the model's reading, log 85) and recovers the bus, the SCL case
alone where both expire at one instant. Recovery counts, or sets RECOVER_FAIL (19 R447-R453, R457). -/
def Obligations.TraySamples : Prop :=
  (∀ (s : State) (scl sda : Bool),
    (s.pwr.vsb = false ∨ s.tbs.en = false ∨ s.tbs.busy = true ∧ s.tbs.sdaWait = false → exec (.tbSampleSlot scl sda) s = .next s) ∧
    (s.pwr.vsb = true → s.tbs.en = true → s.tbs.busy = false ∨ s.tbs.sdaWait = true →
      exec (.tbSampleSlot true true) s = .next { s with tbs := { s.tbs with busy := true, sdaWait := false, usePec := s.tbs.pecEn } } ∧
      exec (.tbSampleSlot true false) s = .next { s with tbs := { s.tbs with busy := true, sdaWait := true } } ∧
      exec (.tbSampleSlot false sda) s = .next (({ s with tbs := { s.tbs with stale := 0 } }.tbResult 4).traySample none))) ∧
  (∀ (s : State) (code : Nat), code < 8 → s.tbs.lastRec.toNat = code →
    (s.tbResult code).tbs = { s.tbs with result := BitVec.ofNat 3 code, valid := code == 0, busy := false
                                         failRun := if code = 0 then 0 else satAdd s.tbs.failRun 1
                                         failCnt := if code = 0 then s.tbs.failCnt else satAdd s.tbs.failCnt 1 } ∧
    { s.tbResult code with tbs := s.tbs } = s) ∧
  (∀ (s : State) (code : Nat), code ≠ 0 → code < 8 → s.tbs.lastRec.toNat ≠ code →
    ∃ u : State, s.tbResult code = u.busNote 0 3 code ∧ { u with tbs := s.tbs } = s ∧ u.tbs.sample = s.tbs.sample ∧ u.tbs.valid = false ∧
      u.tbs.result.toNat = code ∧ u.tbs.sampleTime = s.tbs.sampleTime) ∧
  (∀ (s : State) (pin : W16), (s.pwr.vsb = false ∨ s.tbs.busy = false ∨ s.tbs.sdaWait = true → ∀ r, exec (.tbSampleDone r pin) s = .next s) ∧
    (s.pwr.vsb = true → s.tbs.busy = true → s.tbs.sdaWait = false → ∀ u : State, u = { s with pwr := { s.pwr with pin := pin } } →
      (∀ e ∈ ([ (.nackAddr, 1, false), (.nackData, 2, false), (.conflict, 3, true), (.sclTimeout, 4, false) ] : List (TbRaw × Nat × Bool)),
        exec (.tbSampleDone e.1 pin) s =
          .next (({ u with tbs := { u.tbs with stale := 0, sdaWait := e.2.2 } }.tbResult e.2.1).traySample none)) ∧
      (∀ (v : Vector W16 16) (ok : Bool) (code : Nat),
        code = (if v[0] ≠ 0x5453 ∨ v[1] ≠ 1 ∨ v[8] >>> 5 ≠ 0 ∨ v[11] ≠ 0 ∨ v[12] ≠ 0 ∨ v[13] ≠ 0 ∨ v[14] ≠ 0 then 5
          else if v.toList.foldl (· + ·) 0 ≠ 0 ∨ s.tbs.usePec = true ∧ ok = false then 6
          else if s.tbs.sample[0] ≠ 0 ∧ v[9] = s.tbs.sample[9] ∧ 4 ≤ s.tbs.stale then 7 else 0) →
        ∀ w : State, w = { u with tbs := { u.tbs with
            stale := if s.tbs.sample[0] ≠ 0 ∧ v[9] = s.tbs.sample[9] then s.tbs.stale + 1 else 0 } } →
          (code = 0 → exec (.tbSampleDone (.regs v ok) pin) s =
            .next (({ w with tbs := { w.tbs with sample := v, sampleTime := s.clk.gt } }.tbResult 0).traySample (some v))) ∧
          (code ≠ 0 → exec (.tbSampleDone (.regs v ok) pin) s = .next ((w.tbResult code).traySample none))))) ∧
  (∀ (s : State) (f : Option (Fin 9)),
    (s.pwr.vsb = false → ∀ b, exec (.tbSclTimeout b f) s = .next s) ∧
    (s.pwr.vsb = false ∨ s.tbs.sdaWait = false → ∀ b, exec (.tbSdaTimeout b f) s = .next s) ∧
    (s.pwr.vsb = true → ∀ (b : Bool) (u : State),
      (u = { s with tbs := { s.tbs with fScl := true, sclAt := some s.clk.ns } } →
        (s.tbs.busy = false → exec (.tbSclTimeout b f) s = .next (u.tbRecover b f)) ∧
        (s.tbs.busy = true → exec (.tbSclTimeout b f) s =
          .next ((({ u with tbs := { u.tbs with stale := 0 } }.tbResult 4).traySample none).tbRecover b f))) ∧
      (s.tbs.sdaWait = true → u = { s with tbs := { s.tbs with fSda := true, sdaWait := false } } →
        (s.tbs.sclAt = some s.clk.ns → exec (.tbSdaTimeout b f) s = .next u) ∧
        (s.tbs.sclAt ≠ some s.clk.ns →
          (s.tbs.busy = false → exec (.tbSdaTimeout b f) s = .next (u.tbRecover b f)) ∧
          (s.tbs.busy = true → exec (.tbSdaTimeout b f) s =
            .next ((({ u with tbs := { u.tbs with stale := 0 } }.tbResult 3).traySample none).tbRecover b f))))) ∧
    s.tbRecover false f = { s with tbs := { s.tbs with result := 4 } }.busNote 1 5 0 ∧
    (∀ n, f = some n → s.tbRecover true f = { s with tbs := { s.tbs with recCnt := satAdd s.tbs.recCnt 1 } }.busNote 0 4 (n.val + 1)) ∧
    (f = none → s.tbRecover true f = { s with tbs := { s.tbs with fRec := true } }.busNote 1 5 1))

/-! ## Cooling and rotation (21) -/

/-- Die sensors, the ladder: a reading out of range marks its sensor failed for good and is ignored; THM_DIE_MAX takes the hottest live sensor,
which nothing live exceeds; the ladder rises by 1 above DIE_TARGET every 10 ms up to 5, becomes 5 at DIE_TARGET + 10, and falls by 1 after 100 ms
below DIE_TARGET − 5, where it moves at all; a read of 115 °C trips, which is the model's reading of "for 1 ms" (log 77) (21 R488-R490). -/
def Obligations.DieTemperatures : Prop :=
  (∀ (s : State) (die : Fin 4) (t : Vector W16 64),
    (s.pwr.rails = false → exec (.dieSensorRead die t) s = .next s) ∧
    (s.pwr.rails = true → ∃ (d : DieT) (new : List (Fin 64)),
      (∀ i : Fin 64, d.failed.getLsbD i.val = (s.thm.die[die].failed.getLsbD i.val || decide (t[i].toInt < -5120 ∨ 19200 < t[i].toInt))) ∧
      (∀ i : Fin 64, i ∈ new ↔ (d.failed.getLsbD i.val = true ∧ s.thm.die[die].failed.getLsbD i.val = false)) ∧ new.Nodup ∧
      ((∀ i : Fin 64, d.failed.getLsbD i.val = true) → d.temp = 0 ∧ d.sensor = 0) ∧
      ((∃ i : Fin 64, d.failed.getLsbD i.val = false) → ∃ i : Fin 64, d.sensor.toNat = i.val ∧ d.temp = t[i] ∧ d.failed.getLsbD i.val = false ∧
        ∀ k : Fin 64, d.failed.getLsbD k.val = false → t[k].toInt ≤ d.temp.toInt) ∧
      ∀ u : State, u = ({ s with thm := { s.thm with die := s.thm.die.set die d } } : State).each new (fun s i => s.platform 1 9 (die.val + 256 * i.val)) →
        ∀ w : State, w = { u with thm := { u.thm with
            dieHot := decide (128 * u.dieTarget < u.hottest)
            roseAt := if 128 * u.dieTarget < u.hottest then some (u.thm.roseAt.getD u.clk.ns) else none
            coolAt := if u.hottest < 128 * (u.dieTarget - 5) then some (u.thm.coolAt.getD u.clk.ns) else none } } →
          ∀ z : State, z = (if 128 * (w.dieTarget + 10) ≤ w.hottest ∧ w.thm.level.toNat < 5 then w.setLevel 5 else w) →
            exec (.dieSensorRead die t) s =
              .next (if (∃ i : Fin 64, d.failed.getLsbD i.val = false) ∧ 115 * 128 ≤ d.temp.toInt then (z.trip 0 die.val) else z))) ∧
  (∀ s : State,
    (let may := s.pwr.rails = true ∧ 128 * s.dieTarget < s.hottest ∧ s.thm.level.toNat < 5 ∧ ∀ t, s.thm.roseAt = some t → t + 10000000 ≤ s.clk.ns
     (may → exec .ladderRise s = .next ({ s with thm := { s.thm with roseAt := some s.clk.ns } }.setLevel (s.thm.level.toNat + 1))) ∧
     (¬ may → exec .ladderRise s = .next s)) ∧
    (let may := s.pwr.rails = true ∧ s.hottest < 128 * (s.dieTarget - 5) ∧ s.thm.level ≠ 0 ∧ ∀ t, s.thm.coolAt = some t → t + 100000000 ≤ s.clk.ns
     (may → exec .ladderFall s = .next ({ s with thm := { s.thm with coolAt := some s.clk.ns } }.setLevel (s.thm.level.toNat - 1))) ∧
     (¬ may → exec .ladderFall s = .next s)) ∧
    (∀ n ≤ 5, (s.setLevel n).thm.level.toNat = n ∧ (s.setLevel n).clk.target.toNat ≤ ([31, 14, 12, 10, 8, 6] : List Nat).getD n 0 ∧
      { s.setLevel n with thm := s.thm, clk := s.clk } = s))

/-- Month boundaries and rotation (R491-R493): a boundary that global time has reached holds every rotating kind of its die, and the last die's
moves the month on, twelve to a season; a held kind whose units are idle moves its OFFSET on by the stride, its units lose their owners and its hold
ends; one not quiet within ROT_HOLD ends as a skip. -/
def Obligations.Rotation : Prop :=
  (∀ (s : State) (die : Fin 4) (at_ : Nat),
    at_ = s.thm.rotT0.toNat + (s.thm.rotK[die] + 1) * (gfOr s 128 0 16 4000) * 1000 + die.val * (gfOr s 128 0 16 4000) * 250 →
    (s.running = false ∨ s.thm.rotOn = false ∨ s.clk.gt.toNat < at_ → exec (.monthBoundary die) s = .next s) ∧
    (s.running = true → s.thm.rotOn = true → at_ ≤ s.clk.gt.toNat → ∃ t : State, exec (.monthBoundary die) s = .next t ∧
      { t with thm := s.thm } = s ∧
      (∀ e : Fin 4, t.thm.rotK[e] = if e = die then s.thm.rotK[die] + 1 else s.thm.rotK[e]) ∧
      (∀ h : Hold, h ∈ t.thm.holds ↔ (h ∈ s.thm.holds ∧ h.die ≠ die) ∨ (h.die = die ∧ h.since = s.clk.gt ∧ h.limit = gfOr s 131 0 8 20 ∧
        h.stride = 2 * s.thm.strideIx.toNat + 1)) ∧
      (die ≠ 3 → t.thm.month = s.thm.month ∧ t.thm.seasons = s.thm.seasons ∧ t.thm.strideIx = s.thm.strideIx) ∧
      (die = 3 → s.thm.month.toNat < 11 → t.thm.month = s.thm.month + 1 ∧ t.thm.seasons = s.thm.seasons ∧ t.thm.strideIx = s.thm.strideIx) ∧
      (die = 3 → 11 ≤ s.thm.month.toNat → t.thm.month = 0 ∧ t.thm.seasons = s.thm.seasons + 1 ∧ t.thm.strideIx = s.thm.strideIx + 1) ∧
      { t.thm with rotK := s.thm.rotK, holds := s.thm.holds, month := s.thm.month, seasons := s.thm.seasons, strideIx := s.thm.strideIx }
        = s.thm)) ∧
  (∀ (s : State) (die : Fin 4) (k : RotKind),
    ((∀ h ∈ s.thm.holds, ¬ (h.die = die ∧ h.k = k)) → exec (.rotationStep die k) s = .next s ∧ exec (.rotHoldExpiry die k) s = .next s) ∧
    (∀ h : Hold, (s.thm.holds.find? fun x => x.die == die && x.k == k) = some h →
      ∀ rest : List Hold, rest = s.thm.holds.filter (fun x => !(x.die == die && x.k == k)) →
      (s.kindIdle die.val k = false → exec (.rotationStep die k) s = .next s) ∧
      (s.kindIdle die.val k = true → ∃ t : State, exec (.rotationStep die k) s = .next t ∧ { t with thm := s.thm, owners := s.owners } = s ∧
        { t.thm with off := s.thm.off, holds := s.thm.holds } = s.thm ∧ t.thm.holds = rest ∧
        (∀ e : Fin 4, e ≠ die → t.thm.off[e] = s.thm.off[e]) ∧
        (k = .mxa → t.thm.off[die] = { s.thm.off[die] with mxa := s.thm.off[die].mxa + BitVec.ofNat 3 h.stride }) ∧
        (k = .mvp → t.thm.off[die] = { s.thm.off[die] with mvp := s.thm.off[die].mvp + BitVec.ofNat 3 h.stride }) ∧
        (k = .ssu → t.thm.off[die] = { s.thm.off[die] with ssu := s.thm.off[die].ssu + BitVec.ofNat 3 h.stride }) ∧
        (k = .lse → t.thm.off[die] = { s.thm.off[die] with lse := s.thm.off[die].lse + BitVec.ofNat 2 h.stride }) ∧
        (k = .gse → t.thm.off[die] = { s.thm.off[die] with gse := s.thm.off[die].gse + BitVec.ofNat 1 h.stride }) ∧
        (∀ w : Owner, w ∈ t.owners ↔ w ∈ s.owners ∧ ¬ (w.k = rotQ k ∧ w.unit / rotN k = die.val))) ∧
      (s.clk.gt.toNat < h.since.toNat + 1000 * h.limit → exec (.rotHoldExpiry die k) s = .next s) ∧
      (h.since.toNat + 1000 * h.limit ≤ s.clk.gt.toNat → exec (.rotHoldExpiry die k) s =
        .next { s with thm := { s.thm with holds := rest, skip := satAdd s.thm.skip 1 } })))

/-! ## TAP and debug (22) -/

/-- The TAP (R510, R511, R518): with the standby rail up its instruction register takes the code; IDCODE gives 0x1041_6A53; the boundary test
instructions drive only in test mode and are BYPASS otherwise; on I1 the IO1 cells hold 0; a TAP reset selects IDCODE; nothing else changes. The
LEDs (R507, Table 22.4): LOCATE blinks all three; the lowest row that applies governs; with no standby rail they are off, which is the model's
reading (log 84). -/
def Obligations.TapInstructions : Prop :=
  ∀ s : State,
    (s.pwr.vsb = false → (∀ i ∈ [Instr.idcode, .extest, .extestPulse, .extestTrain, .clamp, .highz, .tapReset], exec i s = .next s) ∧
      (∀ v, exec (.samplePreload v) s = .next s) ∧ (∀ c, exec (.tapBypass c) s = .next s) ∧ ∀ w o v, exec (.dbg w o v) s = .next s) ∧
    (s.pwr.vsb = true →
      exec .idcode s = .next { s with tap := { s.tap with ir := 0x01, drive := .mission }, tdo := 0x10416A53 } ∧
      exec .tapReset s = .next { s with tap := { s.tap with ir := 0x01, drive := .mission } } ∧
      (∀ e ∈ ([ (.extest, 0x03, .extest), (.extestPulse, 0x04, .pulse), (.extestTrain, 0x05, .train), (.clamp, 0x06, .clamp)
              , (.highz, 0x07, .highz) ] : List (Instr × Byte × TapDrive)),
        exec e.1 s = .next { s with tap := { s.tap with ir := e.2.1, drive := if s.pwr.testMode then e.2.2 else .mission } }) ∧
      (∀ v : BitVec 148, ∃ b : BitVec 148,
        exec (.samplePreload v) s = .next { s with tap := { ir := 0x02, boundary := b, drive := .mission } } ∧
        (s.fuses.i2 = true → b = v) ∧ (s.fuses.i2 = false → ∀ n < 148, b.getLsbD n = (v.getLsbD n && !io1Cells.testBit n))) ∧
      (∀ c : Byte, (8 ≤ c.toNat ∨ c = 0) → c ≠ 0x10 →
        exec (.tapBypass c) s = .next { s with tap := { s.tap with ir := c, drive := .mission } }) ∧
      (∀ (w : Bool) (o : BitVec 12) (v : W64), s.dbg.isOpen = false ∨ s.pwr.rails = false ∨ o.toNat % 8 ≠ 0 →
        exec (.dbg w o v) s = .next { s with tap := { s.tap with ir := 0x10, drive := .mission } }) ∧
      (∀ (o : BitVec 12) (v : W64), s.dbg.isOpen = true → s.pwr.rails = true → o.toNat % 8 = 0 →
        ∀ u : State, u = { s with tap := { s.tap with ir := 0x10, drive := .mission } } →
          exec (.dbg false o v) s = .next { u with tdo := BitVec.ofNat 64 (u.dbgRead o.toNat + u.dbgRead (o.toNat + 4) * 2 ^ 32) } ∧
          exec (.dbg true o v) s =
            .next ((u.dbgWrite o.toNat (v.toNat % 2 ^ 32)).dbgWrite (o.toNat + 4) (v.toNat / 2 ^ 32)))) ∧
    (s.pwr.vsb = false → s.leds = (.off, .off, .off)) ∧
    (s.pwr.vsb = true → s.gcr.led = true → s.leds = (.blink 2, .blink 2, .blink 2)) ∧
    (s.pwr.vsb = true → s.gcr.led = false →
      (s.leds.1 = .off ↔ s.pwr.st = .off) ∧ (s.leds.1 = .steady ↔ s.pwr.st = .on) ∧ (s.leds.1 = .blink 4 ↔ s.pwr.st = .shuttingDown) ∧
      (s.leds.1 = .blink 1 ↔ s.pwr.st = .starting ∨ s.pwr.st = .offHold) ∧
      (s.leds.2.1 = .blink 4 ↔ s.ringl.map[0].down ≠ []) ∧
      (s.ringl.map[0].down = [] → (s.leds.2.1 = .off ↔ s.ringl.st = .unjoined) ∧ (s.leds.2.1 = .steady ↔ s.ringl.st = .joined) ∧
        (s.leds.2.1 = .blink 1 ↔ s.ringl.st = .joining ∨ s.ringl.st = .leaving)) ∧
      (s.leds.2.2 = .steady ↔ s.err.fatal = true ∨ s.pwr.stage = 7) ∧
      (s.leds.2.2 = .blink 1 ↔ s.err.fatal = false ∧ s.pwr.stage ≠ 7 ∧ (s.anyFenced = true ∨ s.thm.tray ≠ .valid)) ∧
      (s.leds.2.2 = .off ∨ s.leds.2.2 = .blink 1 ∨ s.leds.2.2 = .steady))

/-- Debug (R512, R514-R517): a function that does not reach the block changes nothing; GO and RELOCK are discarded while BUSY is 1; RELOCK closes
the lock and clears DBG_HALT and DBG_TRACE_EN; halts and steps take effect only with the lock open and its halt scope; a step takes each named
halted cluster, which runs the instruction at its PC and is halted again, or raises PC_RANGE past its text; a verified block opens the lock with
its scope, and a failed one counts, the eighth setting REFUSED, and renews the challenge. -/
def Obligations.DebugAccess : Prop :=
  (∀ (s : State) (fn : Fn), (s.fnAlive fn = false ∨ fn ≠ .pf 0) →
    exec (.dbgGo fn) s = .next s ∧ exec (.relock fn) s = .next s ∧ ∀ m, exec (.dbgHalt fn m) s = .next s ∧ exec (.dbgStep fn m) s = .next s) ∧
  (∀ s : State, s.fnAlive (.pf 0) = true →
    (s.dbg.busy = true → exec (.dbgGo (.pf 0)) s = .next s ∧ exec (.relock (.pf 0)) s = .next s) ∧
    (s.dbg.busy = false →
      exec (.dbgGo (.pf 0)) s =
        .next { s with dbg := if s.dbg.refused then { s.dbg with result := 4 } else { s.dbg with busy := true } } ∧
      exec (.relock (.pf 0)) s = .next { s with dbg := { s.dbg with isOpen := false, scope := 0, halt := 0, traceEn := 0 } }) ∧
    (∀ m : W32,
      (s.dbg.isOpen = true → s.dbg.scope.getLsbD 0 = true →
        exec (.dbgHalt (.pf 0) m) s = .next { s with dbg := { s.dbg with halt := m } } ∧
        exec (.dbgStep (.pf 0) m) s = .next (s.each ((List.finRange 32).filter fun c => m.getLsbD c.val) State.stepOne)) ∧
      (s.dbg.isOpen = false ∨ s.dbg.scope.getLsbD 0 = false →
        exec (.dbgHalt (.pf 0) m) s = .next s ∧ exec (.dbgStep (.pf 0) m) s = .next s))) ∧
  (∀ (s : State) (c : Fin 32),
    (s.dbg.halt.getLsbD c.val = false → s.stepOne c = s) ∧
    (s.dbg.halt.getLsbD c.val = true →
      let u := { s with dbg := { s.dbg with halt := setBit s.dbg.halt c.val false } }
      let k := s.cl[c]
      let w := rdLe k.istore k.pc.toNat 4
      let v := rdLe k.istore (k.pc.toNat + 4) 4
      let size := if w / 2 ^ 28 % 16 = 14 then 8 else 4
      ∀ j, k.job.bind s.job? = some j → u.canIssue c = true → k.stall = .none →
        (k.textEnd < k.pc.toNat + size → s.stepOne c = (u.except j.id j.ptn c.val c k.pc 0 0 exPcRange).setHalt c true) ∧
        (k.pc.toNat + size ≤ k.textEnd → ∀ i t, decodeWord (fun sp => fld (k.rs sp) 12 3) c w v = some i → runInsn i u = .next t → s.stepOne c = t.setHalt c true))) ∧
  (∀ s : State, (s.dbg.busy = false → exec .dbgVerifyDone s = .next s) ∧
    (s.dbg.busy = true →
      ∀ d : Dbg, d = { s.dbg with busy := false, challenge := Config.challenge s.free
                                  result := BitVec.ofNat 3 (s.unlockCode (leBytes 208 s.dbg.block.toNat)) } →
        (s.unlockCode (leBytes 208 s.dbg.block.toNat) = 0 →
          exec .dbgVerifyDone s = .next { s with free := s.free + 1, dbg := { d with isOpen := true, scope := s.dbg.block.extractLsb' 48 2 } }) ∧
        (s.unlockCode (leBytes 208 s.dbg.block.toNat) ≠ 0 →
          exec .dbgVerifyDone s =
            .next { s with free := s.free + 1
                           dbg := { d with fails := s.dbg.fails + 1, refused := decide (7 ≤ s.dbg.fails.toNat) } })))

/-! ## Reset, the fuses, and the encodings -/

/-- What the standby rail's coming up leaves (R481, R220, R440-R443, R510; Tables 19.8 and 22.1): OFF at stage 0, both switches closed with
CLOSE_CAUSE 1, the boot status zero; every partition's sets zero, SWAP_STATUS IDLE with ACTIVE 1 and no set valid; no ring, the clock plan of step
10 and its ceiling; IDCODE selected; LEDs of POWER OFF, unjoined, tray not VALID; SCRATCH one zero byte; the log empty; no job, operation, tally
or command. -/
def Obligations.ResetValues : Prop :=
  let s := State.reset
  s.pending = [] ∧ s.pwr.vsb = true ∧ s.pwr.st = .off ∧ s.pwr.stage = 0 ∧ s.pwr.rails = false ∧ s.pwr.failA = 0 ∧ s.pwr.failB = 0 ∧
    s.pwr.failR = 0 ∧ s.pwr.bootMode = 0 ∧ s.pwr.sdCause = 0 ∧ s.pwr.triggers = 0 ∧
    (∀ i : Fin 2, s.dlk.sw[i].closed = true ∧ s.dlk.sw[i].cause = 1) ∧
    (∀ p : Fin 16, (s.P p).cfgA = 0 ∧ (s.P p).cfgB = 0 ∧ (s.P p).swap.st = .idle ∧ (s.P p).swap.active = true ∧ (s.P p).activeValid = false) ∧
    s.ringl.st = .unjoined ∧ s.planned = 10 ∧ s.clk.cur = 10 ∧ s.thm.tray = .unknown ∧ s.ceiling = 10 ∧ s.tap.ir = 0x01 ∧
    s.leds = (.off, .off, .blink 1) ∧ s.mbs.scratch = [0] ∧ (∀ i : Fin 64, s.err.log[i] = 0) ∧ s.err.logTotal = 0 ∧ s.err.firstS4 = none ∧ s.jobs = [] ∧ s.ops = [] ∧
    s.tallies = []

/-- An invariant of every step: the fused configuration (the stacks and IO dies present, the serial number, the debug fuse, the key hashes and the
minimum security version) never changes, and a step takes from the queue exactly the command it runs: nothing but the outside puts commands there.
-/
def Obligations.FusesAndQueueKept : Prop :=
  ∀ (f : Fuses) (s t : State), s.fuses = f → step s = .next t → t.fuses = f ∧ t.pending = s.pending.tail

/-- Encode and decode agree on every conductor instruction: every operand at every value its field admits comes back, KVCMP with the FUNC its SP
points to; and a word that decodes is the word the instruction encodes to, so no bit of it is dropped. -/
def Obligations.EncodeDecode : Prop :=
  (∀ (i : Instr) (w : W32 × W32), encodeWord i = some w →
    (∀ c o, i ∉ [Instr.kvcmpOpen c o, .kvcmpReserve c o, .kvcmpSetlen c o, .kvcmpCompact c o, .kvcmpState c o, .kvcmpClose c o]) →
    ∃ c : Fin 32, ∀ kf, decodeWord kf c w.1.toNat w.2.toNat = some i) ∧
  (∀ (c : Fin 32) (o : EngF) (kf : Fin 32 → Nat),
    ∀ e ∈ ([ (.kvcmpOpen c o, 0), (.kvcmpReserve c o, 1), (.kvcmpSetlen c o, 2), (.kvcmpCompact c o, 3), (.kvcmpState c o, 4)
           , (.kvcmpClose c o, 5) ] : List (Instr × Nat)), kf o.sp = e.2 →
      ∃ w, encodeWord e.1 = some w ∧ decodeWord kf c w.1.toNat w.2.toNat = some e.1) ∧
  (∀ (kf : Fin 32 → Nat) (c : Fin 32) (w v : W32) (i : Instr), decodeWord kf c w.toNat v.toNat = some i →
    ∃ u : W32, encodeWord i = some (w, u) ∧ (w.extractLsb' 28 4 = 0xE → u = v))
end

