-- ==== Sys2Proof/Laws/Dispatch.lean ====
section
/-! SUPPORT. Each arm of the dispatch as an equation. -/

namespace Sys2Proof.Machine

@[simp] theorem exec_registerWrite (fn : Fn) (off : BitVec 25) (bytes : Nat) (val : W64) (sp : Space) (s : State) : exec (.registerWrite fn off bytes val sp) s = execRegisterWrite fn off bytes val s sp := rfl
@[simp] theorem exec_rcRegisterRead (fn : Fn) (off : BitVec 25) (bytes : Nat) (sp : Space) (s : State) : exec (.rcRegisterRead fn off bytes sp) s = execRcRegisterRead fn off bytes s sp := rfl
@[simp] theorem exec_gtNowRead (fn : Fn) (half : GtRead) (s : State) : exec (.gtNowRead fn half) s = execGtNowRead fn half s := rfl
@[simp] theorem exec_jrTailDb (fn : Fn) (r : Fin 8) (val : W32) (s : State) : exec (.jrTailDb fn r val) s = execJrTailDb fn r val s := rfl
@[simp] theorem exec_fetchBatch (p : Fin 16) (r : Fin 8) (s : State) : exec (.fetchBatch p r) s = execFetchBatch p r s := rfl
@[simp] theorem exec_descriptorArrival (p : Fin 16) (r : Fin 8) (d : Option (BitVec 1024)) (wait : Bool) (s : State) : exec (.descriptorArrival p r d wait) s = execDescriptorArrival p r d s wait := rfl
@[simp] theorem exec_argBlockFetched (job : Nat) (d : HostRead) (s : State) : exec (.argBlockFetched job d) s = execArgBlockFetched job d s := rfl
@[simp] theorem exec_jobStart (p : Fin 16) (m : List MemEv) (s : State) : exec (.jobStart p m) s = execJobStart p s m := rfl
@[simp] theorem exec_deferPromote (p : Fin 16) (cls : Fin 4) (s : State) : exec (.deferPromote p cls) s = execDeferPromote p cls s := rfl
@[simp] theorem exec_deadlineExpiry (job : Nat) (s : State) : exec (.deadlineExpiry job) s = execDeadlineExpiry job s := rfl
@[simp] theorem exec_jobFinalCompletion (job : Nat) (s : State) : exec (.jobFinalCompletion job) s = execJobFinalCompletion job s := rfl
@[simp] theorem exec_crHeadDb (fn : Fn) (r : Fin 8) (val : W32) (s : State) : exec (.crHeadDb fn r val) s = execCrHeadDb fn r val s := rfl
@[simp] theorem exec_srHeadDb (fn : Fn) (r : Fin 16) (val : W32) (s : State) : exec (.srHeadDb fn r val) s = execSrHeadDb fn r val s := rfl
@[simp] theorem exec_erHeadDb (fn : Fn) (val : W32) (s : State) : exec (.erHeadDb fn val) s = execErHeadDb fn val s := rfl
@[simp] theorem exec_gerHeadDb (fn : Fn) (val : W32) (s : State) : exec (.gerHeadDb fn val) s = execGerHeadDb fn val s := rfl
@[simp] theorem exec_faultResumeDb (fn : Fn) (val : W32) (s : State) : exec (.faultResumeDb fn val) s = execFaultResumeDb fn val s := rfl
@[simp] theorem exec_cancelDb (fn : Fn) (val : W32) (s : State) : exec (.cancelDb fn val) s = execCancelDb fn val s := rfl
@[simp] theorem exec_ringEnable (fn : Fn) (p : Fin 16) (ring : RingRef) (size : BitVec 3) (s : State) : exec (.ringEnable fn p ring size) s = execRingEnable fn p ring size s := rfl
@[simp] theorem exec_ringDisable (fn : Fn) (p : Fin 16) (ring : RingRef) (s : State) : exec (.ringDisable fn p ring) s = execRingDisable fn p ring s := rfl
@[simp] theorem exec_errorRingDisable (fn : Fn) (p : Option (Fin 16)) (s : State) : exec (.errorRingDisable fn p) s = execErrorRingDisable fn p s := rfl
@[simp] theorem exec_functionLevelReset (fn : Fn) (s : State) : exec (.functionLevelReset fn) s = execFunctionLevelReset fn s := rfl
@[simp] theorem exec_hostLinkDown (io : Fin 2) (s : State) : exec (.hostLinkDown io) s = execHostLinkDown io s := rfl
@[simp] theorem exec_linkLossTimeout (io : Fin 2) (s : State) : exec (.linkLossTimeout io) s = execLinkLossTimeout io s := rfl
@[simp] theorem exec_perst1Assert (s : State) : exec .perst1Assert s = execPerst1Assert s := rfl
@[simp] theorem exec_add (c : Fin 32) (o : R3) (s : State) : exec (.add c o) s = execAdd c o s := rfl
@[simp] theorem exec_sub (c : Fin 32) (o : R3) (s : State) : exec (.sub c o) s = execSub c o s := rfl
@[simp] theorem exec_and (c : Fin 32) (o : R3) (s : State) : exec (.and c o) s = execAnd c o s := rfl
@[simp] theorem exec_or (c : Fin 32) (o : R3) (s : State) : exec (.or c o) s = execOr c o s := rfl
@[simp] theorem exec_xor (c : Fin 32) (o : R3) (s : State) : exec (.xor c o) s = execXor c o s := rfl
@[simp] theorem exec_sll (c : Fin 32) (o : R3) (s : State) : exec (.sll c o) s = execSll c o s := rfl
@[simp] theorem exec_srl (c : Fin 32) (o : R3) (s : State) : exec (.srl c o) s = execSrl c o s := rfl
@[simp] theorem exec_sra (c : Fin 32) (o : R3) (s : State) : exec (.sra c o) s = execSra c o s := rfl
@[simp] theorem exec_mul (c : Fin 32) (o : R3) (s : State) : exec (.mul c o) s = execMul c o s := rfl
@[simp] theorem exec_mulh (c : Fin 32) (o : R3) (s : State) : exec (.mulh c o) s = execMulh c o s := rfl
@[simp] theorem exec_mulhu (c : Fin 32) (o : R3) (s : State) : exec (.mulhu c o) s = execMulhu c o s := rfl
@[simp] theorem exec_min (c : Fin 32) (o : R3) (s : State) : exec (.min c o) s = execMin c o s := rfl
@[simp] theorem exec_max (c : Fin 32) (o : R3) (s : State) : exec (.max c o) s = execMax c o s := rfl
@[simp] theorem exec_minu (c : Fin 32) (o : R3) (s : State) : exec (.minu c o) s = execMinu c o s := rfl
@[simp] theorem exec_maxu (c : Fin 32) (o : R3) (s : State) : exec (.maxu c o) s = execMaxu c o s := rfl
@[simp] theorem exec_addi (c : Fin 32) (o : I12) (s : State) : exec (.addi c o) s = execAddi c o s := rfl
@[simp] theorem exec_andi (c : Fin 32) (o : I12) (s : State) : exec (.andi c o) s = execAndi c o s := rfl
@[simp] theorem exec_ori (c : Fin 32) (o : I12) (s : State) : exec (.ori c o) s = execOri c o s := rfl
@[simp] theorem exec_xori (c : Fin 32) (o : I12) (s : State) : exec (.xori c o) s = execXori c o s := rfl
@[simp] theorem exec_slli (c : Fin 32) (o : I12) (s : State) : exec (.slli c o) s = execSlli c o s := rfl
@[simp] theorem exec_srli (c : Fin 32) (o : I12) (s : State) : exec (.srli c o) s = execSrli c o s := rfl
@[simp] theorem exec_srai (c : Fin 32) (o : I12) (s : State) : exec (.srai c o) s = execSrai c o s := rfl
@[simp] theorem exec_lui (c : Fin 32) (o : U20) (s : State) : exec (.lui c o) s = execLui c o s := rfl
@[simp] theorem exec_ceq (c : Fin 32) (o : R3) (s : State) : exec (.ceq c o) s = execCeq c o s := rfl
@[simp] theorem exec_cne (c : Fin 32) (o : R3) (s : State) : exec (.cne c o) s = execCne c o s := rfl
@[simp] theorem exec_clt (c : Fin 32) (o : R3) (s : State) : exec (.clt c o) s = execClt c o s := rfl
@[simp] theorem exec_cltu (c : Fin 32) (o : R3) (s : State) : exec (.cltu c o) s = execCltu c o s := rfl
@[simp] theorem exec_cge (c : Fin 32) (o : R3) (s : State) : exec (.cge c o) s = execCge c o s := rfl
@[simp] theorem exec_cgeu (c : Fin 32) (o : R3) (s : State) : exec (.cgeu c o) s = execCgeu c o s := rfl
@[simp] theorem exec_pand (c : Fin 32) (o : R3) (s : State) : exec (.pand c o) s = execPand c o s := rfl
@[simp] theorem exec_por (c : Fin 32) (o : R3) (s : State) : exec (.por c o) s = execPor c o s := rfl
@[simp] theorem exec_pxor (c : Fin 32) (o : R3) (s : State) : exec (.pxor c o) s = execPxor c o s := rfl
@[simp] theorem exec_pnot (c : Fin 32) (o : R3) (s : State) : exec (.pnot c o) s = execPnot c o s := rfl
@[simp] theorem exec_ldb (c : Fin 32) (o : I12) (s : State) : exec (.ldb c o) s = execLdb c o s := rfl
@[simp] theorem exec_ldh (c : Fin 32) (o : I12) (s : State) : exec (.ldh c o) s = execLdh c o s := rfl
@[simp] theorem exec_ldw (c : Fin 32) (o : I12) (s : State) : exec (.ldw c o) s = execLdw c o s := rfl
@[simp] theorem exec_ldd (c : Fin 32) (o : I12) (s : State) : exec (.ldd c o) s = execLdd c o s := rfl
@[simp] theorem exec_ldbu (c : Fin 32) (o : I12) (s : State) : exec (.ldbu c o) s = execLdbu c o s := rfl
@[simp] theorem exec_ldhu (c : Fin 32) (o : I12) (s : State) : exec (.ldhu c o) s = execLdhu c o s := rfl
@[simp] theorem exec_ldwu (c : Fin 32) (o : I12) (s : State) : exec (.ldwu c o) s = execLdwu c o s := rfl
@[simp] theorem exec_ldx (c : Fin 32) (o : I12) (m : List MemEv) (s : State) : exec (.ldx c o m) s = execLdx c o s m := rfl
@[simp] theorem exec_stb (c : Fin 32) (o : I12) (s : State) : exec (.stb c o) s = execStb c o s := rfl
@[simp] theorem exec_sth (c : Fin 32) (o : I12) (s : State) : exec (.sth c o) s = execSth c o s := rfl
@[simp] theorem exec_stw (c : Fin 32) (o : I12) (s : State) : exec (.stw c o) s = execStw c o s := rfl
@[simp] theorem exec_std (c : Fin 32) (o : I12) (s : State) : exec (.std c o) s = execStd c o s := rfl
@[simp] theorem exec_stx (c : Fin 32) (o : I12) (s : State) : exec (.stx c o) s = execStx c o s := rfl
@[simp] theorem exec_jal (c : Fin 32) (o : U20) (s : State) : exec (.jal c o) s = execJal c o s := rfl
@[simp] theorem exec_jalr (c : Fin 32) (o : I12) (s : State) : exec (.jalr c o) s = execJalr c o s := rfl
@[simp] theorem exec_vadd (c : Fin 32) (o : V3) (s : State) : exec (.vadd c o) s = execVadd c o s := rfl
@[simp] theorem exec_vadds (c : Fin 32) (o : V3) (s : State) : exec (.vadds c o) s = execVadds c o s := rfl
@[simp] theorem exec_vsub (c : Fin 32) (o : V3) (s : State) : exec (.vsub c o) s = execVsub c o s := rfl
@[simp] theorem exec_vmul (c : Fin 32) (o : V3) (s : State) : exec (.vmul c o) s = execVmul c o s := rfl
@[simp] theorem exec_vmax (c : Fin 32) (o : V3) (s : State) : exec (.vmax c o) s = execVmax c o s := rfl
@[simp] theorem exec_vmin (c : Fin 32) (o : V3) (s : State) : exec (.vmin c o) s = execVmin c o s := rfl
@[simp] theorem exec_vand (c : Fin 32) (o : V3) (s : State) : exec (.vand c o) s = execVand c o s := rfl
@[simp] theorem exec_vor (c : Fin 32) (o : V3) (s : State) : exec (.vor c o) s = execVor c o s := rfl
@[simp] theorem exec_vxor (c : Fin 32) (o : V3) (s : State) : exec (.vxor c o) s = execVxor c o s := rfl
@[simp] theorem exec_vshl (c : Fin 32) (o : V3) (s : State) : exec (.vshl c o) s = execVshl c o s := rfl
@[simp] theorem exec_vshr (c : Fin 32) (o : V3) (s : State) : exec (.vshr c o) s = execVshr c o s := rfl
@[simp] theorem exec_vsplat (c : Fin 32) (o : V3) (s : State) : exec (.vsplat c o) s = execVsplat c o s := rfl
@[simp] theorem exec_vext (c : Fin 32) (o : V3) (s : State) : exec (.vext c o) s = execVext c o s := rfl
@[simp] theorem exec_vredadd (c : Fin 32) (o : V3) (s : State) : exec (.vredadd c o) s = execVredadd c o s := rfl
@[simp] theorem exec_vredmax (c : Fin 32) (o : V3) (s : State) : exec (.vredmax c o) s = execVredmax c o s := rfl
@[simp] theorem exec_vcmpgt (c : Fin 32) (o : V3) (s : State) : exec (.vcmpgt c o) s = execVcmpgt c o s := rfl
@[simp] theorem exec_vsel (c : Fin 32) (o : V3) (s : State) : exec (.vsel c o) s = execVsel c o s := rfl
@[simp] theorem exec_vexp2 (c : Fin 32) (o : V3) (s : State) : exec (.vexp2 c o) s = execVexp2 c o s := rfl
@[simp] theorem exec_vlog2 (c : Fin 32) (o : V3) (s : State) : exec (.vlog2 c o) s = execVlog2 c o s := rfl
@[simp] theorem exec_vbsort (c : Fin 32) (o : V3) (s : State) : exec (.vbsort c o) s = execVbsort c o s := rfl
@[simp] theorem exec_vmov (c : Fin 32) (o : V3) (s : State) : exec (.vmov c o) s = execVmov c o s := rfl
@[simp] theorem exec_vld (c : Fin 32) (o : R3) (m : List MemEv) (s : State) : exec (.vld c o m) s = execVld c o s m := rfl
@[simp] theorem exec_vst (c : Fin 32) (o : R3) (s : State) : exec (.vst c o) s = execVst c o s := rfl
@[simp] theorem exec_dld (c : Fin 32) (o : DMem) (s : State) : exec (.dld c o) s = execDld c o s := rfl
@[simp] theorem exec_dst (c : Fin 32) (o : DMem) (s : State) : exec (.dst c o) s = execDst c o s := rfl
@[simp] theorem exec_dsetw (c : Fin 32) (o : DReg) (s : State) : exec (.dsetw c o) s = execDsetw c o s := rfl
@[simp] theorem exec_dgetw (c : Fin 32) (o : DReg) (s : State) : exec (.dgetw c o) s = execDgetw c o s := rfl
@[simp] theorem exec_daddo (c : Fin 32) (o : DReg) (s : State) : exec (.daddo c o) s = execDaddo c o s := rfl
@[simp] theorem exec_dmov (c : Fin 32) (o : DReg) (s : State) : exec (.dmov c o) s = execDmov c o s := rfl
@[simp] theorem exec_wait (c : Fin 32) (o : R3) (s : State) : exec (.wait c o) s = execWait c o s := rfl
@[simp] theorem exec_waitTimeout (c : Fin 32) (s : State) : exec (.waitTimeout c) s = execWaitTimeout c s := rfl
@[simp] theorem exec_signal (c : Fin 32) (o : R3) (s : State) : exec (.signal c o) s = execSignal c o s := rfl
@[simp] theorem exec_tadd (c : Fin 32) (o : R3) (s : State) : exec (.tadd c o) s = execTadd c o s := rfl
@[simp] theorem exec_tread (c : Fin 32) (o : R3) (s : State) : exec (.tread c o) s = execTread c o s := rfl
@[simp] theorem exec_pin (c : Fin 32) (o : Ten) (s : State) : exec (.pin c o) s = execPin c o s := rfl
@[simp] theorem exec_unpin (c : Fin 32) (o : Ten) (s : State) : exec (.unpin c o) s = execUnpin c o s := rfl
@[simp] theorem exec_mig (c : Fin 32) (o : Ten) (s : State) : exec (.mig c o) s = execMig c o s := rfl
@[simp] theorem exec_rsend (c : Fin 32) (o : Rng) (s : State) : exec (.rsend c o) s = execRsend c o s := rfl
@[simp] theorem exec_rrecv (c : Fin 32) (o : Rng) (s : State) : exec (.rrecv c o) s = execRrecv c o s := rfl
@[simp] theorem exec_rreduce (c : Fin 32) (o : Rng) (s : State) : exec (.rreduce c o) s = execRreduce c o s := rfl
@[simp] theorem exec_xmul (c : Fin 32) (o : EngF) (s : State) : exec (.xmul c o) s = execXmul c o s := rfl
@[simp] theorem exec_mvmul (c : Fin 32) (o : EngF) (s : State) : exec (.mvmul c o) s = execMvmul c o s := rfl
@[simp] theorem exec_topk (c : Fin 32) (o : EngF) (s : State) : exec (.topk c o) s = execTopk c o s := rfl
@[simp] theorem exec_lscan (c : Fin 32) (o : EngF) (s : State) : exec (.lscan c o) s = execLscan c o s := rfl
@[simp] theorem exec_gath (c : Fin 32) (o : EngF) (s : State) : exec (.gath c o) s = execGath c o s := rfl
@[simp] theorem exec_scat (c : Fin 32) (o : EngF) (s : State) : exec (.scat c o) s = execScat c o s := rfl
@[simp] theorem exec_kvcmpOpen (c : Fin 32) (o : EngF) (s : State) : exec (.kvcmpOpen c o) s = execKvcmpOpen c o s := rfl
@[simp] theorem exec_kvcmpReserve (c : Fin 32) (o : EngF) (s : State) : exec (.kvcmpReserve c o) s = execKvcmpReserve c o s := rfl
@[simp] theorem exec_kvcmpSetlen (c : Fin 32) (o : EngF) (s : State) : exec (.kvcmpSetlen c o) s = execKvcmpSetlen c o s := rfl
@[simp] theorem exec_kvcmpCompact (c : Fin 32) (o : EngF) (s : State) : exec (.kvcmpCompact c o) s = execKvcmpCompact c o s := rfl
@[simp] theorem exec_kvcmpState (c : Fin 32) (o : EngF) (s : State) : exec (.kvcmpState c o) s = execKvcmpState c o s := rfl
@[simp] theorem exec_kvcmpClose (c : Fin 32) (o : EngF) (s : State) : exec (.kvcmpClose c o) s = execKvcmpClose c o s := rfl
@[simp] theorem exec_samp (c : Fin 32) (o : EngF) (s : State) : exec (.samp c o) s = execSamp c o s := rfl
@[simp] theorem exec_mconv (c : Fin 32) (o : EngF) (s : State) : exec (.mconv c o) s = execMconv c o s := rfl
@[simp] theorem exec_ttok (c : Fin 32) (o : EngF) (s : State) : exec (.ttok c o) s = execTtok c o s := rfl
@[simp] theorem exec_tdtk (c : Fin 32) (o : EngF) (s : State) : exec (.tdtk c o) s = execTdtk c o s := rfl
@[simp] theorem exec_hrd (c : Fin 32) (o : EngF) (s : State) : exec (.hrd c o) s = execHrd c o s := rfl
@[simp] theorem exec_hwr (c : Fin 32) (o : EngF) (s : State) : exec (.hwr c o) s = execHwr c o s := rfl
@[simp] theorem exec_nop (c : Fin 32) (o : CtlF) (s : State) : exec (.nop c o) s = execNop c o s := rfl
@[simp] theorem exec_endc (c : Fin 32) (o : EndF) (s : State) : exec (.endc c o) s = execEndc c o s := rfl
@[simp] theorem exec_drain (c : Fin 32) (o : CtlF) (s : State) : exec (.drain c o) s = execDrain c o s := rfl
@[simp] theorem exec_time (c : Fin 32) (o : CtlF) (s : State) : exec (.time c o) s = execTime c o s := rfl
@[simp] theorem exec_csrr (c : Fin 32) (o : CtlF) (s : State) : exec (.csrr c o) s = execCsrr c o s := rfl
@[simp] theorem exec_trap (c : Fin 32) (o : CtlF) (s : State) : exec (.trap c o) s = execTrap c o s := rfl
@[simp] theorem exec_engineOpStart (c : Fin 32) (k : QKind) (m : List MemEv) (s : State) : exec (.engineOpStart c k m) s = execEngineOpStart c k s m := rfl
@[simp] theorem exec_xmulDone (op : Nat) (parity : Bool) (m : List MemEv) (s : State) : exec (.xmulDone op parity m) s = execXmulDone op parity s m := rfl
@[simp] theorem exec_mvmulDone (op : Nat) (parity : Bool) (m : List MemEv) (s : State) : exec (.mvmulDone op parity m) s = execMvmulDone op parity s m := rfl
@[simp] theorem exec_topkDone (op : Nat) (parity : Bool) (m : List MemEv) (s : State) : exec (.topkDone op parity m) s = execTopkDone op parity s m := rfl
@[simp] theorem exec_lscanDone (op : Nat) (parity : Bool) (m : List MemEv) (s : State) : exec (.lscanDone op parity m) s = execLscanDone op parity s m := rfl
@[simp] theorem exec_gathDone (op : Nat) (parity : Bool) (m : List MemEv) (s : State) : exec (.gathDone op parity m) s = execGathDone op parity s m := rfl
@[simp] theorem exec_scatDone (op : Nat) (parity : Bool) (m : List MemEv) (s : State) : exec (.scatDone op parity m) s = execScatDone op parity s m := rfl
@[simp] theorem exec_compactDone (op : Nat) (parity : Bool) (m : List MemEv) (s : State) : exec (.compactDone op parity m) s = execCompactDone op parity s m := rfl
@[simp] theorem exec_sampDone (op : Nat) (parity : Bool) (m : List MemEv) (s : State) : exec (.sampDone op parity m) s = execSampDone op parity s m := rfl
@[simp] theorem exec_mconvDone (op : Nat) (parity : Bool) (src cb : HostRead) (m : List MemEv) (s : State) : exec (.mconvDone op parity src cb m) s = execMconvDone op parity src cb s m := rfl
@[simp] theorem exec_ttokDone (op : Nat) (parity : Bool) (m : List MemEv) (s : State) : exec (.ttokDone op parity m) s = execTtokDone op parity s m := rfl
@[simp] theorem exec_tdtkDone (op : Nat) (parity : Bool) (m : List MemEv) (s : State) : exec (.tdtkDone op parity m) s = execTdtkDone op parity s m := rfl
@[simp] theorem exec_hrdDone (op : Nat) (d : HostRead) (m : List MemEv) (s : State) : exec (.hrdDone op d m) s = execHrdDone op d s m := rfl
@[simp] theorem exec_hwrDone (op : Nat) (m : List MemEv) (s : State) : exec (.hwrDone op m) s = execHwrDone op s m := rfl
@[simp] theorem exec_mgeLoadDone (p : Fin 16) (base : Nat) (d : HostRead) (m : List MemEv) (s : State) : exec (.mgeLoadDone p base d m) s = execMgeLoadDone p base d s m := rfl
@[simp] theorem exec_writebackDone (p : Fin 16) (base : Nat) (m : List MemEv) (s : State) : exec (.writebackDone p base m) s = execWritebackDone p base s m := rfl
@[simp] theorem exec_moveDone (p : Fin 16) (base : Nat) (m : List MemEv) (s : State) : exec (.moveDone p base m) s = execMoveDone p base s m := rfl
@[simp] theorem exec_pageWalkDone (p : Fin 16) (cfg : Bool) (page : BitVec 36) (w : WalkRead) (s : State) : exec (.pageWalkDone p cfg page w) s = execPageWalkDone p cfg page w s := rfl
@[simp] theorem exec_faultHoldExpiry (p : Fin 16) (fid : W16) (s : State) : exec (.faultHoldExpiry p fid) s = execFaultHoldExpiry p fid s := rfl
@[simp] theorem exec_iotlbInvRange (fn : Fn) (p : Fin 16) (s : State) : exec (.iotlbInvRange fn p) s = execIotlbInvRange fn p s := rfl
@[simp] theorem exec_iotlbInvAll (fn : Fn) (p : Fin 16) (s : State) : exec (.iotlbInvAll fn p) s = execIotlbInvAll fn p s := rfl
@[simp] theorem exec_iotlbInvDone (p : Fin 16) (s : State) : exec (.iotlbInvDone p) s = execIotlbInvDone p s := rfl
@[simp] theorem exec_create (fn : Fn) (p : Fin 16) (s : State) : exec (.create fn p) s = execCreate fn p s := rfl
@[simp] theorem exec_destroy (fn : Fn) (p : Fin 16) (s : State) : exec (.destroy fn p) s = execDestroy fn p s := rfl
@[simp] theorem exec_query (fn : Fn) (p : Fin 16) (s : State) : exec (.query fn p) s = execQuery fn p s := rfl
@[simp] theorem exec_flush (fn : Fn) (p : Fin 16) (s : State) : exec (.flush fn p) s = execFlush fn p s := rfl
@[simp] theorem exec_zeroingComplete (p : Fin 16) (s : State) : exec (.zeroingComplete p) s = execZeroingComplete p s := rfl
@[simp] theorem exec_kvPoolWrite (fn : Fn) (p : Fin 16) (val : W32) (s : State) : exec (.kvPoolWrite fn p val) s = execKvPoolWrite fn p val s := rfl
@[simp] theorem exec_kvGeomWrite (fn : Fn) (p : Fin 16) (val : W32) (s : State) : exec (.kvGeomWrite fn p val) s = execKvGeomWrite fn p val s := rfl
@[simp] theorem exec_load (fn : Fn) (p : Fin 16) (set : Byte) (s : State) : exec (.load fn p set) s = execLoad fn p set s := rfl
@[simp] theorem exec_unload (fn : Fn) (p : Fin 16) (set : Byte) (s : State) : exec (.unload fn p set) s = execUnload fn p set s := rfl
@[simp] theorem exec_csLoadDone (p : Fin 16) (m : List MemEv) (s : State) : exec (.csLoadDone p m) s = execCsLoadDone p s m := rfl
@[simp] theorem exec_csUnloadDone (p : Fin 16) (s : State) : exec (.csUnloadDone p) s = execCsUnloadDone p s := rfl
@[simp] theorem exec_cfgWindowWrite (fn : Fn) (p : Fin 16) (cfg : Bool) (off : BitVec 9) (bytes : Nat) (val : W64) (s : State) : exec (.cfgWindowWrite fn p cfg off bytes val) s = execCfgWindowWrite fn p cfg off bytes val s := rfl
@[simp] theorem exec_fence (fn : Fn) (p : Fin 16) (s : State) : exec (.fence fn p) s = execFence fn p s := rfl
@[simp] theorem exec_unfence (fn : Fn) (p : Fin 16) (s : State) : exec (.unfence fn p) s = execUnfence fn p s := rfl
@[simp] theorem exec_partitionReset (fn : Fn) (p : Fin 16) (s : State) : exec (.partitionReset fn p) s = execPartitionReset fn p s := rfl
@[simp] theorem exec_swap (fn : Fn) (p : Fin 16) (s : State) : exec (.swap fn p) s = execSwap fn p s := rfl
@[simp] theorem exec_swapCancel (fn : Fn) (p : Fin 16) (s : State) : exec (.swapCancel fn p) s = execSwapCancel fn p s := rfl
@[simp] theorem exec_swapValidationDone (p : Fin 16) (img : HostRead) (s : State) : exec (.swapValidationDone p img) s = execSwapValidationDone p img s := rfl
@[simp] theorem exec_swapTakeEffect (p : Fin 16) (s : State) : exec (.swapTakeEffect p) s = execSwapTakeEffect p s := rfl
@[simp] theorem exec_gswap (fn : Fn) (s : State) : exec (.gswap fn) s = execGswap fn s := rfl
@[simp] theorem exec_gswapTakeEffect (s : State) : exec .gswapTakeEffect s = execGswapTakeEffect s := rfl
@[simp] theorem exec_gtSet (fn : Fn) (val : W64) (s : State) : exec (.gtSet fn val) s = execGtSet fn val s := rfl
@[simp] theorem exec_cclkStep (s : State) : exec .cclkStep s = execCclkStep s := rfl
@[simp] theorem exec_timeExchange (port : Fin 4) (s : State) : exec (.timeExchange port) s = execTimeExchange port s := rfl
@[simp] theorem exec_timeMsg (port : Fin 4) (neighbour : W64) (delay : Nat) (s : State) : exec (.timeMsg port neighbour delay) s = execTimeMsg port neighbour delay s := rfl
@[simp] theorem exec_holdoverTimeout (s : State) : exec .holdoverTimeout s = execHoldoverTimeout s := rfl
@[simp] theorem exec_pllLockLoss (dom : Fin 9) (s : State) : exec (.pllLockLoss dom) s = execPllLockLoss dom s := rfl
@[simp] theorem exec_oscillatorStop (s : State) : exec .oscillatorStop s = execOscillatorStop s := rfl
@[simp] theorem exec_fabricError (link : Fin 14) (corrected : Bool) (s : State) : exec (.fabricError link corrected) s = execFabricError link corrected s := rfl
@[simp] theorem exec_erAck (fn : Fn) (p : Fin 16) (seq : W32) (s : State) : exec (.erAck fn p seq) s = execErAck fn p seq s := rfl
@[simp] theorem exec_gerAck (fn : Fn) (seq : W32) (s : State) : exec (.gerAck fn seq) s = execGerAck fn seq s := rfl
@[simp] theorem exec_flitReceived (port : Fin 4) (flit : BitVec 2048) (shared first : Option (Fin 545)) (bufErr : Bool) (s : State) : exec (.flitReceived port flit shared first bufErr) s = execFlitReceived port flit shared first s bufErr := rfl
@[simp] theorem exec_replayTimeout (port : Fin 4) (s : State) : exec (.replayTimeout port) s = execReplayTimeout port s := rfl
@[simp] theorem exec_dlkErrThreshold (port : Fin 4) (th : ErrTh) (s : State) : exec (.dlkErrThreshold port th) s = execDlkErrThreshold port th s := rfl
@[simp] theorem exec_signalLoss (port : Fin 4) (s : State) : exec (.signalLoss port) s = execSignalLoss port s := rfl
@[simp] theorem exec_trainingPatternDetected (port : Fin 4) (s : State) : exec (.trainingPatternDetected port) s = execTrainingPatternDetected port s := rfl
@[simp] theorem exec_autoTrainingTimer (port : Fin 4) (s : State) : exec (.autoTrainingTimer port) s = execAutoTrainingTimer port s := rfl
@[simp] theorem exec_retrainAttemptDone (port : Fin 4) (r : TrainRes) (s : State) : exec (.retrainAttemptDone port r) s = execRetrainAttemptDone port r s := rfl
@[simp] theorem exec_fullTrainingDone (port : Fin 4) (r : TrainRes) (s : State) : exec (.fullTrainingDone port r) s = execFullTrainingDone port r s := rfl
@[simp] theorem exec_retrain (fn : Fn) (port : Fin 4) (s : State) : exec (.retrain fn port) s = execRetrain fn port s := rfl
@[simp] theorem exec_bypass (fn : Fn) (sw : Fin 2) (s : State) : exec (.bypass fn sw) s = execBypass fn sw s := rfl
@[simp] theorem exec_joinWindowExpiry (pair : Fin 2) (s : State) : exec (.joinWindowExpiry pair) s = execJoinWindowExpiry pair s := rfl
@[simp] theorem exec_switchSenseTimeout (pair : Fin 2) (s : State) : exec (.switchSenseTimeout pair) s = execSwitchSenseTimeout pair s := rfl
@[simp] theorem exec_pairDownTimeout (pair : Fin 2) (s : State) : exec (.pairDownTimeout pair) s = execPairDownTimeout pair s := rfl
@[simp] theorem exec_req (h : MsgHdr) (len : W64) (tag : BitVec 14) (vc : BitVec 2) (rop : BitVec 3) (fmt : Byte) (rank : BitVec 6) (s : State) : exec (.req h len tag vc rop fmt rank) s = execReq h len tag vc rop fmt rank s := rfl
@[simp] theorem exec_reqRetry (xid : W16) (s : State) : exec (.reqRetry xid) s = execReqRetry xid s := rfl
@[simp] theorem exec_grantIssue (src : BitVec 17) (xid : W16) (s : State) : exec (.grantIssue src xid) s = execGrantIssue src xid s := rfl
@[simp] theorem exec_grant (h : MsgHdr) (first : W32) (n : W16) (s : State) : exec (.grant h first n) s = execGrant h first n s := rfl
@[simp] theorem exec_data (h : MsgHdr) (off : BitVec 28) (payload : BitVec 1888) (s : State) : exec (.data h off payload) s = execData h off payload s := rfl
@[simp] theorem exec_xack (h : MsgHdr) (first : W32) (n : W16) (s : State) : exec (.xack h first n) s = execXack h first n s := rfl
@[simp] theorem exec_refuse (h : MsgHdr) (reason : Byte) (s : State) : exec (.refuse h reason) s = execRefuse h reason s := rfl
@[simp] theorem exec_tally (h : MsgHdr) (t : BitVec 17) (signal : Bool) (val : W32) (s : State) : exec (.tally h t signal val) s = execTally h t signal val s := rfl
@[simp] theorem exec_topo (port : Fin 4) (kind : Byte) (dev : BitVec 17) (lport : Byte) (s : State) : exec (.topo port kind dev lport) s = execTopo port kind dev lport s := rfl
@[simp] theorem exec_state (port : Fin 4) (src : BitVec 17) (ports : BitVec 12) (s : State) : exec (.state port src ports) s = execState port src ports s := rfl
@[simp] theorem exec_stateBroadcast (s : State) : exec .stateBroadcast s = execStateBroadcast s := rfl
@[simp] theorem exec_xferTimeout (xid : W16) (sender : Bool) (partner : BitVec 17) (s : State) : exec (.xferTimeout xid sender partner) s = execXferTimeout xid sender partner s := rfl
@[simp] theorem exec_hopAudit (port : Fin 4) (peerFree : Nat) (inFlight : Nat) (s : State) : exec (.hopAudit port peerFree inFlight) s = execHopAudit port peerFree inFlight s := rfl
@[simp] theorem exec_creditReclaim (port : Fin 4) (s : State) : exec (.creditReclaim port) s = execCreditReclaim port s := rfl
@[simp] theorem exec_leaveTimeout (pair : Fin 2) (s : State) : exec (.leaveTimeout pair) s = execLeaveTimeout pair s := rfl
@[simp] theorem exec_vsbUp (addr : BitVec 3) (autoOn : Bool) (testMode : Bool) (pwrEn : Bool) (pwrWarn : Bool) (s : State) : exec (.vsbUp addr autoOn testMode pwrEn pwrWarn) s = execVsbUp addr autoOn testMode pwrEn pwrWarn s := rfl
@[simp] theorem exec_vsbLoss (s : State) : exec .vsbLoss s = execVsbLoss s := rfl
@[simp] theorem exec_startCondition (recovery : Bool) (s : State) : exec (.startCondition recovery) s = execStartCondition recovery s := rfl
@[simp] theorem exec_startupStageDone (r : StageRes) (s : State) : exec (.startupStageDone r) s = execStartupStageDone r s := rfl
@[simp] theorem exec_pwrEnRise (s : State) : exec .pwrEnRise s = execPwrEnRise s := rfl
@[simp] theorem exec_pwrEnFall (s : State) : exec .pwrEnFall s = execPwrEnFall s := rfl
@[simp] theorem exec_pwrWarnAssert (s : State) : exec .pwrWarnAssert s = execPwrWarnAssert s := rfl
@[simp] theorem exec_pwrWarnDeassert (s : State) : exec .pwrWarnDeassert s = execPwrWarnDeassert s := rfl
@[simp] theorem exec_vinOutOfRange (v : W16) (s : State) : exec (.vinOutOfRange v) s = execVinOutOfRange v s := rfl
@[simp] theorem exec_shutdown (fn : Fn) (stayOff : Bool) (s : State) : exec (.shutdown fn stayOff) s = execShutdown fn stayOff s := rfl
@[simp] theorem exec_offHoldExpiry (s : State) : exec .offHoldExpiry s = execOffHoldExpiry s := rfl
@[simp] theorem exec_perst0Assert (s : State) : exec .perst0Assert s = execPerst0Assert s := rfl
@[simp] theorem exec_perst0Deassert (s : State) : exec .perst0Deassert s = execPerst0Deassert s := rfl
@[simp] theorem exec_pwrClrst (fn : Fn) (mask : W32) (s : State) : exec (.pwrClrst fn mask) s = execPwrClrst fn mask s := rfl
@[simp] theorem exec_go (fn : Fn) (s : State) : exec (.go fn) s = execGo fn s := rfl
@[simp] theorem exec_flashRead (fn : Fn) (s : State) : exec (.flashRead fn) s = execFlashRead fn s := rfl
@[simp] theorem exec_flashProgram (fn : Fn) (s : State) : exec (.flashProgram fn) s = execFlashProgram fn s := rfl
@[simp] theorem exec_flashErase (fn : Fn) (s : State) : exec (.flashErase fn) s = execFlashErase fn s := rfl
@[simp] theorem exec_flashCmdDone (ok : Bool) (s : State) : exec (.flashCmdDone ok) s = execFlashCmdDone ok s := rfl
@[simp] theorem exec_identity (pec : Bool) (s : State) : exec (.identity pec) s = execIdentity pec s := rfl
@[simp] theorem exec_health (pec : Bool) (s : State) : exec (.health pec) s = execHealth pec s := rfl
@[simp] theorem exec_temps (pec : Bool) (s : State) : exec (.temps pec) s = execTemps pec s := rfl
@[simp] theorem exec_power (pec : Bool) (s : State) : exec (.power pec) s = execPower pec s := rfl
@[simp] theorem exec_bypassStatus (pec : Bool) (s : State) : exec (.bypassStatus pec) s = execBypassStatus pec s := rfl
@[simp] theorem exec_ring (pec : Bool) (s : State) : exec (.ring pec) s = execRing pec s := rfl
@[simp] theorem exec_logHead (pec : Bool) (s : State) : exec (.logHead pec) s = execLogHead pec s := rfl
@[simp] theorem exec_logSelect (val : Byte) (pec : Option Byte) (s : State) : exec (.logSelect val pec) s = execLogSelect val pec s := rfl
@[simp] theorem exec_logSelectRead (pec : Bool) (s : State) : exec (.logSelectRead pec) s = execLogSelectRead pec s := rfl
@[simp] theorem exec_logRead (pec : Bool) (s : State) : exec (.logRead pec) s = execLogRead pec s := rfl
@[simp] theorem exec_busStatus (pec : Bool) (s : State) : exec (.busStatus pec) s = execBusStatus pec s := rfl
@[simp] theorem exec_scratchWrite (bs : List Byte) (pec : Option Byte) (s : State) : exec (.scratchWrite bs pec) s = execScratchWrite bs pec s := rfl
@[simp] theorem exec_scratchRead (pec : Bool) (s : State) : exec (.scratchRead pec) s = execScratchRead pec s := rfl
@[simp] theorem exec_mbSclTimeout (cmd : Byte) (s : State) : exec (.mbSclTimeout cmd) s = execMbSclTimeout cmd s := rfl
@[simp] theorem exec_mbSdaTimeout (s : State) : exec .mbSdaTimeout s = execMbSdaTimeout s := rfl
@[simp] theorem exec_mirrorUpdate (s : State) : exec .mirrorUpdate s = execMirrorUpdate s := rfl
@[simp] theorem exec_tbSampleSlot (scl : Bool) (sda : Bool) (s : State) : exec (.tbSampleSlot scl sda) s = execTbSampleSlot scl sda s := rfl
@[simp] theorem exec_tbSampleDone (r : TbRaw) (pin : W16) (s : State) : exec (.tbSampleDone r pin) s = execTbSampleDone r pin s := rfl
@[simp] theorem exec_tbSclTimeout (scl : Bool) (freedAt : Option (Fin 9)) (s : State) : exec (.tbSclTimeout scl freedAt) s = execTbSclTimeout scl freedAt s := rfl
@[simp] theorem exec_tbSdaTimeout (scl : Bool) (freedAt : Option (Fin 9)) (s : State) : exec (.tbSdaTimeout scl freedAt) s = execTbSdaTimeout scl freedAt s := rfl
@[simp] theorem exec_dieSensorRead (die : Fin 4) (t : Vector W16 64) (s : State) : exec (.dieSensorRead die t) s = execDieSensorRead die t s := rfl
@[simp] theorem exec_ladderRise (s : State) : exec .ladderRise s = execLadderRise s := rfl
@[simp] theorem exec_ladderFall (s : State) : exec .ladderFall s = execLadderFall s := rfl
@[simp] theorem exec_monthBoundary (die : Fin 4) (s : State) : exec (.monthBoundary die) s = execMonthBoundary die s := rfl
@[simp] theorem exec_rotationStep (die : Fin 4) (k : RotKind) (s : State) : exec (.rotationStep die k) s = execRotationStep die k s := rfl
@[simp] theorem exec_rotHoldExpiry (die : Fin 4) (k : RotKind) (s : State) : exec (.rotHoldExpiry die k) s = execRotHoldExpiry die k s := rfl
@[simp] theorem exec_idcode (s : State) : exec .idcode s = execIdcode s := rfl
@[simp] theorem exec_samplePreload (capture : BitVec 148) (s : State) : exec (.samplePreload capture) s = execSamplePreload capture s := rfl
@[simp] theorem exec_extest (s : State) : exec .extest s = execExtest s := rfl
@[simp] theorem exec_extestPulse (s : State) : exec .extestPulse s = execExtestPulse s := rfl
@[simp] theorem exec_extestTrain (s : State) : exec .extestTrain s = execExtestTrain s := rfl
@[simp] theorem exec_clamp (s : State) : exec .clamp s = execClamp s := rfl
@[simp] theorem exec_highz (s : State) : exec .highz s = execHighz s := rfl
@[simp] theorem exec_dbg (write : Bool) (off : BitVec 12) (val : W64) (s : State) : exec (.dbg write off val) s = execDbg write off val s := rfl
@[simp] theorem exec_tapBypass (code : Byte) (s : State) : exec (.tapBypass code) s = execTapBypass code s := rfl
@[simp] theorem exec_tapReset (s : State) : exec .tapReset s = execTapReset s := rfl
@[simp] theorem exec_dbgHalt (fn : Fn) (mask : W32) (s : State) : exec (.dbgHalt fn mask) s = execDbgHalt fn mask s := rfl
@[simp] theorem exec_dbgStep (fn : Fn) (mask : W32) (s : State) : exec (.dbgStep fn mask) s = execDbgStep fn mask s := rfl
@[simp] theorem exec_dbgGo (fn : Fn) (s : State) : exec (.dbgGo fn) s = execDbgGo fn s := rfl
@[simp] theorem exec_relock (fn : Fn) (s : State) : exec (.relock fn) s = execRelock fn s := rfl
@[simp] theorem exec_dbgVerifyDone (s : State) : exec .dbgVerifyDone s = execDbgVerifyDone s := rfl
@[simp] theorem exec_hostLinkUp (io : Fin 2) (width : BitVec 2) (rate : BitVec 3) (s : State) : exec (.hostLinkUp io width rate) s = execHostLinkUp io width rate s := rfl
@[simp] theorem exec_perst1Deassert (s : State) : exec .perst1Deassert s = execPerst1Deassert s := rfl
@[simp] theorem exec_pcieConfigWrite (fn : Fn) (w : CfgWrite) (s : State) : exec (.pcieConfigWrite fn w) s = execPcieConfigWrite fn w s := rfl
@[simp] theorem exec_gswapCheckDone (s : State) : exec .gswapCheckDone s = execGswapCheckDone s := rfl
@[simp] theorem exec_mainRailsDown (s : State) : exec .mainRailsDown s = execMainRailsDown s := rfl
@[simp] theorem exec_vinInRange (v : W16) (s : State) : exec (.vinInRange v) s = execVinInRange v s := rfl
@[simp] theorem exec_clusterResetDone (c : Fin 32) (s : State) : exec (.clusterResetDone c) s = execClusterResetDone c s := rfl
@[simp] theorem exec_engineSliceExpiry (k : QKind) (unit : Nat) (s : State) : exec (.engineSliceExpiry k unit) s = execEngineSliceExpiry k unit s := rfl
@[simp] theorem exec_dlkErrWindowEnd (port : Fin 4) (s : State) : exec (.dlkErrWindowEnd port) s = execDlkErrWindowEnd port s := rfl
@[simp] theorem exec_pllLockRegained (dom : Fin 9) (s : State) : exec (.pllLockRegained dom) s = execPllLockRegained dom s := rfl
@[simp] theorem exec_mbBadCommand (code : Byte) (s : State) : exec (.mbBadCommand code) s = execMbBadCommand code s := rfl

end Sys2Proof.Machine
end

