-- ==== Sys2Proof/Laws/Memory.lean ====
section
/-! SUPPORT. The laws of sparse storage: read after write, the canonical form kept by every operation, and the bytes of a little-endian store. -/

namespace Sys2Proof.Machine

variable {β : Type} [DecidableEq β]

theorem sabove_mono {j k : Nat} (h : j < k) {m : Sparse β} (hm : sabove k m = true) : sabove j m = true := by
  simp only [sabove, List.all_eq_true, decide_eq_true_eq] at *
  exact fun e he => lt_trans h (hm e he)

theorem swf_cons {d : β} {e : Nat × β} {t : Sparse β} (h : swf d (e :: t) = true) : e.2 ≠ d ∧ sabove e.1 t = true ∧ swf d t = true := by
  simpa [swf, and_assoc] using h

theorem sget_filter (d : β) (m : Sparse β) (k j : Nat) : sget d (m.filter (·.1 != k)) j = if j = k then d else sget d m j := by
  induction m with
  | nil => simp [sget]
  | cons e t ih =>
    obtain ⟨a, b⟩ := e
    by_cases hk : a = k
    · subst hk
      by_cases hj : j = a
      · simpa [List.filter_cons, hj] using ih
      · simpa [List.filter_cons, sget, hj, Ne.symm hj] using ih
    · by_cases hj : a = j
      · subst hj; simp [List.filter_cons, sget, hk]
      · simp [List.filter_cons, sget, hk, hj, ih]

theorem sget_sins (d : β) (m : Sparse β) (k j : Nat) (v : β) (hm : ∀ e ∈ m, e.1 ≠ k) :
    sget d (sins k v m) j = if j = k then v else sget d m j := by
  induction m with
  | nil => simp [sins, sget, eq_comm]
  | cons e t ih =>
    obtain ⟨a, b⟩ := e
    have ha : a ≠ k := hm (a, b) (by simp)
    have ih := ih (fun e he => hm e (by simp [he]))
    simp only [sins]
    split
    · by_cases hj : j = k
      · simp [sget, hj]
      · simp [sget, hj, Ne.symm hj]
    · by_cases hj : a = j
      · subst hj; simp [sget, ha]
      · simp only [sget, hj, if_false, ih]

/-- What a write leaves at an index: the value at the written one, the former contents elsewhere. -/
theorem sget_sput (d : β) (m : Sparse β) (k j : Nat) (v : β) : sget d (sput d m k v) j = if j = k then v else sget d m j := by
  unfold sput
  split
  · next h => rw [sget_filter, h]
  · rw [sget_sins d _ k j v (by simp), sget_filter]
    by_cases hj : j = k <;> simp [hj]

theorem swf_filter (d : β) (m : Sparse β) (h : swf d m = true) (f : Nat × β → Bool) : swf d (m.filter f) = true := by
  induction m with
  | nil => rfl
  | cons e t ih =>
    obtain ⟨hb, ha, ht⟩ := swf_cons h
    have hs : sabove e.1 (t.filter f) = true := by
      simp only [sabove, List.all_eq_true, decide_eq_true_eq, List.mem_filter] at *
      exact fun x hx => ha x hx.1
    rw [List.filter_cons]
    split
    · simp [swf, hb, hs, ih ht]
    · exact ih ht

theorem sabove_sins (n k : Nat) (v : β) (m : Sparse β) (hn : n < k) (h : sabove n m = true) : sabove n (sins k v m) = true := by
  induction m with
  | nil => simp [sins, sabove, hn]
  | cons e t ih =>
    simp only [sabove, List.all_cons, Bool.and_eq_true, decide_eq_true_eq] at h
    have ih := ih (by simpa [sabove] using h.2)
    simp only [sins]
    split
    · simp only [sabove, List.all_cons, Bool.and_eq_true, decide_eq_true_eq]; exact ⟨hn, h⟩
    · simp only [sabove, List.all_cons, Bool.and_eq_true, decide_eq_true_eq] at ih ⊢; exact ⟨h.1, ih⟩

theorem swf_sins (d : β) (k : Nat) (v : β) (m : Sparse β) (hv : v ≠ d) (hm : ∀ e ∈ m, e.1 ≠ k) (h : swf d m = true) : swf d (sins k v m) = true := by
  induction m with
  | nil => simp [sins, swf, sabove, hv]
  | cons e t ih =>
    obtain ⟨hb, ha, ht⟩ := swf_cons h
    have hk : e.1 ≠ k := hm e (by simp)
    simp only [sins]
    split
    · next hlt =>
      have : sabove k (e :: t) = true := by
        simp only [sabove, List.all_cons, Bool.and_eq_true, decide_eq_true_eq]
        exact ⟨hlt, by simpa [sabove] using sabove_mono hlt ha⟩
      have h2 : swf d (e :: t) = true := h
      simp only [swf, Bool.and_eq_true, decide_eq_true_eq] at h2 ⊢
      exact ⟨⟨hv, this⟩, h2⟩
    · have := sabove_sins e.1 k v t (by omega) ha
      have ih := ih (fun x hx => hm x (by simp [hx])) ht
      simp [swf, hb, this, ih]

/-- A write keeps the canonical form. -/
theorem swf_sput (d : β) (m : Sparse β) (h : swf d m = true) (k : Nat) (v : β) : swf d (sput d m k v) = true := by
  unfold sput
  split
  · exact swf_filter d m h _
  · next hv => exact swf_sins d k v _ hv (by simp) (swf_filter d m h _)

/-- Erasing a range keeps the canonical form. -/
theorem swf_sclear (d : β) (m : Sparse β) (h : swf d m = true) (lo n : Nat) : swf d (sclear m lo n) = true := swf_filter d m h _

/-- Storing bytes keeps the canonical form. -/
theorem wf_wrBytes (m : Cells) (h : Memory.wf m = true) (a : Nat) (bs : List Byte) : Memory.wf (wrBytes m a bs) = true := by
  induction bs generalizing m a with
  | nil => exact h
  | cons b t ih => exact ih _ (swf_sput 0 m h a b) _

/-- What storing bytes leaves at an address. -/
theorem sget_wrBytes (m : Cells) (a : Nat) (bs : List Byte) (x : Nat) :
    sget 0 (wrBytes m a bs) x = if a ≤ x ∧ x < a + bs.length then bs.getD (x - a) 0 else sget 0 m x := by
  induction bs generalizing m a with
  | nil => simp [wrBytes]
  | cons b t ih =>
    rw [wrBytes, ih, sget_sput]
    by_cases hx : x = a
    · subst hx; simp
    · by_cases h1 : a ≤ x ∧ x < a + (t.length + 1)
      · have h2 : a + 1 ≤ x ∧ x < a + 1 + t.length := by omega
        have h3 : x - a = (x - (a + 1)) + 1 := by omega
        simp [h1, h2, h3]
      · have h2 : ¬ (a + 1 ≤ x ∧ x < a + 1 + t.length) := by omega
        simp only [List.length_cons, if_neg h1, if_neg h2, if_neg hx]

theorem leBytes_length (n v : Nat) : (leBytes n v).length = n := by simp [leBytes]

theorem leBytes_getD (n v i : Nat) (h : i < n) : (leBytes n v).getD i 0 = BitVec.ofNat 8 (v / 256 ^ i) := by
  simp [leBytes, List.getD, h]

/-- A little-endian store leaves each byte of the number at its place and every other byte as it was. -/
theorem sget_wrLe (m : Cells) (a n v x : Nat) :
    sget 0 (wrLe m a n v) x = if a ≤ x ∧ x < a + n then BitVec.ofNat 8 (v / 256 ^ (x - a)) else sget 0 m x := by
  rw [wrLe, sget_wrBytes, leBytes_length]
  split
  · next hx => rw [leBytes_getD n v _ (by omega)]
  · rfl

/-- The memory made from a list of bytes has the canonical form. -/
theorem wf_memOf (bs : List Byte) : Memory.wf (memOf bs) = true := wf_wrBytes [] rfl 0 bs

end Sys2Proof.Machine
end

