-- ==== Sys2Proof/Laws/State.lean ====
section
/-! SUPPORT. What the named updates of the state leave in each part of it. -/

namespace Sys2Proof.Machine

theorem vec_set_self {α : Type} {n : Nat} (v : Vector α n) (i : Fin n) (x : α) : (v.set i x)[i] = x := by simp

theorem vec_set_ne {α : Type} {n : Nat} (v : Vector α n) (i j : Fin n) (x : α) (h : j ≠ i) : (v.set i x)[j] = v[j] := by
  have : (i : Nat) ≠ j := fun e => h (Fin.ext e.symm)
  simp [this]

theorem vec_set_set {α : Type} {n : Nat} (v : Vector α n) (i : Fin n) (x y : α) : (v.set i x).set i y = v.set i y := by simp

theorem vec_set_get {α : Type} {n : Nat} (v : Vector α n) (i : Fin n) : v.set i v[i] = v := by simp

theorem modC_same (s : State) (c : Fin 32) (f : Cluster → Cluster) : (s.modC c f).cl[c] = f s.cl[c] := vec_set_self ..

theorem modC_other (s : State) (c d : Fin 32) (f : Cluster → Cluster) (h : d ≠ c) : (s.modC c f).cl[d] = s.cl[d] := vec_set_ne _ _ _ _ h

theorem modC_modC (s : State) (c : Fin 32) (f g : Cluster → Cluster) : (s.modC c f).modC c g = s.modC c (fun k => g (f k)) := by
  simp [State.modC]

theorem modC_frame (s : State) (c : Fin 32) (f : Cluster → Cluster) : { s.modC c f with cl := s.cl } = s := rfl

theorem modP_same (s : State) (p : Fin 16) (f : Ptn → Ptn) : (s.modP p f).P p = f (s.P p) := vec_set_self ..

theorem modP_other (s : State) (p q : Fin 16) (f : Ptn → Ptn) (h : q ≠ p) : (s.modP p f).P q = s.P q := vec_set_ne _ _ _ _ h

theorem modP_modP (s : State) (p : Fin 16) (f g : Ptn → Ptn) : (s.modP p f).modP p g = s.modP p (fun k => g (f k)) := by
  simp [State.modP]

theorem modP_frame (s : State) (p : Fin 16) (f : Ptn → Ptn) : { s.modP p f with ptn := s.ptn } = s := rfl

theorem modPort_same (s : State) (k : Fin 4) (f : Port → Port) : (s.modPort k f).dlk.port[k] = f s.dlk.port[k] := vec_set_self ..

theorem modPort_other (s : State) (k l : Fin 4) (f : Port → Port) (h : l ≠ k) : (s.modPort k f).dlk.port[l] = s.dlk.port[l] := vec_set_ne _ _ _ _ h

theorem modSw_same (s : State) (k : Fin 2) (f : Switch → Switch) : (s.modSw k f).dlk.sw[k] = f s.dlk.sw[k] := vec_set_self ..

theorem modIo_same (s : State) (k : Fin 2) (f : IoDie → IoDie) : (s.modIo k f).io[k] = f s.io[k] := vec_set_self ..

theorem modIo_other (s : State) (k l : Fin 2) (f : IoDie → IoDie) (h : l ≠ k) : (s.modIo k f).io[l] = s.io[l] := vec_set_ne _ _ _ _ h

@[simp] theorem modC_ptn (s : State) (c : Fin 32) (f : Cluster → Cluster) : (s.modC c f).ptn = s.ptn := rfl
@[simp] theorem modC_P (s : State) (c : Fin 32) (f : Cluster → Cluster) (p : Fin 16) : (s.modC c f).P p = s.P p := rfl
@[simp] theorem modC_jobs (s : State) (c : Fin 32) (f : Cluster → Cluster) : (s.modC c f).jobs = s.jobs := rfl
@[simp] theorem modC_ops (s : State) (c : Fin 32) (f : Cluster → Cluster) : (s.modC c f).ops = s.ops := rfl
@[simp] theorem modC_tallies (s : State) (c : Fin 32) (f : Cluster → Cluster) : (s.modC c f).tallies = s.tallies := rfl
@[simp] theorem modC_dbg (s : State) (c : Fin 32) (f : Cluster → Cluster) : (s.modC c f).dbg = s.dbg := rfl
@[simp] theorem modC_clk (s : State) (c : Fin 32) (f : Cluster → Cluster) : (s.modC c f).clk = s.clk := rfl
@[simp] theorem modC_err (s : State) (c : Fin 32) (f : Cluster → Cluster) : (s.modC c f).err = s.err := rfl
@[simp] theorem modC_io (s : State) (c : Fin 32) (f : Cluster → Cluster) : (s.modC c f).io = s.io := rfl
@[simp] theorem modC_pwr (s : State) (c : Fin 32) (f : Cluster → Cluster) : (s.modC c f).pwr = s.pwr := rfl
@[simp] theorem modC_fuses (s : State) (c : Fin 32) (f : Cluster → Cluster) : (s.modC c f).fuses = s.fuses := rfl
@[simp] theorem modC_pending (s : State) (c : Fin 32) (f : Cluster → Cluster) : (s.modC c f).pending = s.pending := rfl
@[simp] theorem modP_cl (s : State) (p : Fin 16) (f : Ptn → Ptn) : (s.modP p f).cl = s.cl := rfl
@[simp] theorem modP_jobs (s : State) (p : Fin 16) (f : Ptn → Ptn) : (s.modP p f).jobs = s.jobs := rfl
@[simp] theorem modP_ops (s : State) (p : Fin 16) (f : Ptn → Ptn) : (s.modP p f).ops = s.ops := rfl
@[simp] theorem modP_tallies (s : State) (p : Fin 16) (f : Ptn → Ptn) : (s.modP p f).tallies = s.tallies := rfl
@[simp] theorem modP_dbg (s : State) (p : Fin 16) (f : Ptn → Ptn) : (s.modP p f).dbg = s.dbg := rfl
@[simp] theorem modP_clk (s : State) (p : Fin 16) (f : Ptn → Ptn) : (s.modP p f).clk = s.clk := rfl
@[simp] theorem modP_err (s : State) (p : Fin 16) (f : Ptn → Ptn) : (s.modP p f).err = s.err := rfl
@[simp] theorem modP_io (s : State) (p : Fin 16) (f : Ptn → Ptn) : (s.modP p f).io = s.io := rfl
@[simp] theorem modP_pwr (s : State) (p : Fin 16) (f : Ptn → Ptn) : (s.modP p f).pwr = s.pwr := rfl
@[simp] theorem modP_fuses (s : State) (p : Fin 16) (f : Ptn → Ptn) : (s.modP p f).fuses = s.fuses := rfl
@[simp] theorem modP_pending (s : State) (p : Fin 16) (f : Ptn → Ptn) : (s.modP p f).pending = s.pending := rfl

/-- A tally reads what was written to it; every other tally reads as before. -/
theorem tallyGet_tallyPut (s : State) (y z : Nat) (v : W32) : (s.tallyPut y v).tallyGet z = if z = y then v else s.tallyGet z :=
  sget_sput 0 s.tallies y z v

/-- The memories of the state at reset list nothing. -/
theorem reset_memories : State.reset.tallies = [] ∧ State.reset.pwr.flash = [] ∧ State.reset.pwr.window = [] ∧
    (∀ p : Fin 16, (State.reset.P p).mem = []) ∧ (∀ c : Fin 32, State.reset.cl[c].sds = [] ∧ State.reset.cl[c].istore = []) := by
  refine ⟨rfl, rfl, rfl, fun p => ?_, fun c => ?_⟩
  · simp [State.P, State.reset, Ptn.reset]
  · simp [State.reset, Cluster.reset]

end Sys2Proof.Machine
end

