-- ==== Sys2Proof/Laws/Issue.lean ====
section
/-! SUPPORT. What issuing an instruction does when its conductor is ready, and the frames of a register write. -/

namespace Sys2Proof.Machine

open Sys2Proof

/-- An instruction that completes moves the PC past itself. -/
theorem issue_done {i : Instr} {c : Fin 32} {p : Fin 8} {n : Nat} {s : State} {body : State → Job → Res} {j : Job} {t : State}
    (h : Ready s c p n j) (hb : body s j = .done t) :
    issue i c p n s body = .next (t.modC c fun k => { k with pc := k.pc + BitVec.ofNat 16 n }) := by
  have h1 := h.job; have h2 := h.can; have h3 := h.text; have h4 := h.pred
  simp only [Fin.getElem_fin] at *
  simp [issue, h1, h2, h4, hb, Nat.not_lt.mpr h3]

/-- A jump sets the PC. -/
theorem issue_jump {i : Instr} {c : Fin 32} {p : Fin 8} {n : Nat} {s : State} {body : State → Job → Res} {j : Job} {t : State} {pc : W16}
    (h : Ready s c p n j) (hb : body s j = .jump t pc) : issue i c p n s body = .next (t.modC c fun k => { k with pc := pc }) := by
  have h1 := h.job; have h2 := h.can; have h3 := h.text; have h4 := h.pred
  simp only [Fin.getElem_fin] at *
  simp [issue, h1, h2, h4, hb, Nat.not_lt.mpr h3]

/-- An instruction that stalls leaves its reason; stalls whose reason has ended are released at once. -/
theorem issue_stall {i : Instr} {c : Fin 32} {p : Fin 8} {n : Nat} {s : State} {body : State → Job → Res} {j : Job} {t : State} {x : Stall}
    (h : Ready s c p n j) (hb : body s j = .stall t x) : issue i c p n s body = .next (t.modC c fun k => { k with stall := x }).settle := by
  have h1 := h.job; have h2 := h.can; have h3 := h.text; have h4 := h.pred
  simp only [Fin.getElem_fin] at *
  simp [issue, h1, h2, h4, hb, Nat.not_lt.mpr h3]

/-- An exception fails the job at the instruction's PC. -/
theorem issue_exc {i : Instr} {c : Fin 32} {p : Fin 8} {n : Nat} {s : State} {body : State → Job → Res} {j : Job} {e : Exc}
    (h : Ready s c p n j) (hb : body s j = .exc e) :
    issue i c p n s body =
      .next (s.except j.id j.ptn c.val c s.cl[c].pc ((encodeWord i).getD (0, 0)).1 ((encodeWord i).getD (0, 0)).2 e) := by
  have h1 := h.job; have h2 := h.can; have h3 := h.text; have h4 := h.pred
  simp only [Fin.getElem_fin] at *
  simp [issue, h1, h2, h4, hb, Nat.not_lt.mpr h3]

/-- A predicate that reads 0 leaves the PC's move alone. -/
theorem issue_pred {i : Instr} {c : Fin 32} {p : Fin 8} {n : Nat} {s : State} {body : State → Job → Res} {j : Job}
    (h1 : s.cl[c].job.bind s.job? = some j) (h2 : s.canIssue c = true) (h3 : s.cl[c].pc.toNat + n ≤ s.cl[c].textEnd)
    (h4 : s.cl[c].rp p = false) :
    issue i c p n s body = .next (s.modC c fun k => { k with pc := k.pc + BitVec.ofNat 16 n }) := by
  simp only [Fin.getElem_fin] at *
  simp [issue, h1, h2, h4, Nat.not_lt.mpr h3]

/-- A fetch past TEXT raises PC_RANGE. -/
theorem issue_range {i : Instr} {c : Fin 32} {p : Fin 8} {n : Nat} {s : State} {body : State → Job → Res} {j : Job}
    (h1 : s.cl[c].job.bind s.job? = some j) (h2 : s.canIssue c = true) (h3 : s.cl[c].textEnd < s.cl[c].pc.toNat + n) :
    issue i c p n s body = .next (s.except j.id j.ptn c.val c s.cl[c].pc 0 0 exPcRange) := by
  simp only [Fin.getElem_fin] at *
  simp [issue, h1, h2, h3]

/-- A conductor with no job issues nothing. -/
theorem issue_idle {i : Instr} {c : Fin 32} {p : Fin 8} {n : Nat} {s : State} {body : State → Job → Res}
    (h : s.cl[c].job.bind s.job? = none) : issue i c p n s body = .next s := by
  simp only [Fin.getElem_fin] at *
  simp [issue, h]

theorem onlyC_modC (s : State) (c : Fin 32) (f : Cluster → Cluster) : OnlyC c s (s.modC c f) :=
  ⟨modC_frame s c f, fun _ h => modC_other s c _ f h⟩

/-- Two changes of one conductor, the second of which sets the PC. -/
theorem modC_pc (s : State) (c : Fin 32) (f : Cluster → Cluster) (g : Cluster → W16) :
    (s.modC c f).modC c (fun k => { k with pc := g k }) = s.modC c (fun k => { f k with pc := g (f k) }) := modC_modC ..

theorem writesS_modC (s : State) (c rd : Fin 32) (v : W64) (pc : W16) : WritesS s (s.modC c fun k => { k.ws rd v with pc := pc }) c rd v pc := by
  refine ⟨onlyC_modC .., ?_, fun r => ?_⟩
  · rw [modC_same]; unfold Cluster.ws; split <;> rfl
  · rw [modC_same]
    unfold Cluster.ws
    split
    · next h =>
      have : ¬(r = rd ∧ r ≠ 0) := fun e => e.2 (e.1.trans h)
      rw [if_neg this]
    · next h =>
      show (s.cl[c].s.set rd v)[r] = _
      by_cases hr : r = rd
      · subst hr; simp [h]
      · simp only [hr, false_and, if_false]; exact vec_set_ne _ _ _ _ hr

theorem writesP_modC (s : State) (c : Fin 32) (pd : Fin 8) (v : Bool) :
    WritesP s (s.modC c fun k => { k.wp pd v with pc := s.cl[c].pc + 4 }) c pd v := by
  refine ⟨onlyC_modC .., ?_, fun r => ?_⟩
  · rw [modC_same]; unfold Cluster.wp; split <;> rfl
  · rw [modC_same]
    unfold Cluster.wp
    split
    · next h =>
      have : ¬(r = pd ∧ r ≠ 0) := fun e => e.2 (e.1.trans h)
      rw [if_neg this]
    · next h =>
      show (s.cl[c].p.set pd v)[r] = _
      by_cases hr : r = pd
      · subst hr; simp [h]
      · simp only [hr, false_and, if_false]; exact vec_set_ne _ _ _ _ hr

theorem writesV_modC (s : State) (c rd : Fin 32) (v : BitVec 2048) : WritesV s (s.modC c fun k => { k.wv rd v with pc := s.cl[c].pc + 4 }) c rd v := by
  refine ⟨onlyC_modC .., ?_, fun r => ?_⟩
  · rw [modC_same]; rfl
  · rw [modC_same]
    show (s.cl[c].v.set rd v)[r] = _
    by_cases hr : r = rd
    · subst hr; simp
    · simp only [hr, if_false]; exact vec_set_ne _ _ _ _ hr

theorem writesD_modC (s : State) (c : Fin 32) (rd : Fin 16) (v : BitVec 256) :
    WritesD s (s.modC c fun k => { k.wd rd v with pc := s.cl[c].pc + 4 }) c rd v := by
  refine ⟨onlyC_modC .., ?_, fun r => ?_⟩
  · rw [modC_same]; rfl
  · rw [modC_same]
    show (s.cl[c].d.set rd v)[r] = _
    by_cases hr : r = rd
    · subst hr; simp
    · simp only [hr, if_false]; exact vec_set_ne _ _ _ _ hr

theorem writesSds_modC (s : State) (c : Fin 32) (a n v : Nat) :
    WritesSds s (s.modC c fun k => { k with sds := wrLe k.sds a n v, pc := s.cl[c].pc + 4 }) c a n v := by
  refine ⟨onlyC_modC .., ?_, fun b => ?_⟩
  · rw [modC_same]
  · rw [modC_same]; exact sget_wrLe ..

/-- An instruction that writes one scalar register. -/
theorem issue_ws {i : Instr} {c : Fin 32} {p : Fin 8} {s : State} {body : State → Job → Res} {j : Job} {rd : Fin 32} {f : Cluster → W64}
    (h : Ready s c p 4 j) (hb : body s j = onC s c fun k => k.ws rd (f k)) :
    ∃ t, issue i c p 4 s body = .next t ∧ WritesS s t c rd (f s.cl[c]) (s.cl[c].pc + 4) := by
  refine ⟨_, issue_done h hb, ?_⟩
  have e : ((s.modC c fun k => k.ws rd (f k)).modC c fun k => { k with pc := k.pc + BitVec.ofNat 16 4 }) =
      s.modC c fun k => { k.ws rd (f s.cl[c]) with pc := s.cl[c].pc + 4 } := by
    rw [modC_modC]; unfold State.modC; congr 2; unfold Cluster.ws; split <;> rfl
  rw [e]; exact writesS_modC ..

theorem issue_wp {i : Instr} {c : Fin 32} {p : Fin 8} {s : State} {body : State → Job → Res} {j : Job} {pd : Fin 8} {f : Cluster → Bool}
    (h : Ready s c p 4 j) (hb : body s j = onC s c fun k => k.wp pd (f k)) :
    ∃ t, issue i c p 4 s body = .next t ∧ WritesP s t c pd (f s.cl[c]) := by
  refine ⟨_, issue_done h hb, ?_⟩
  have e : ((s.modC c fun k => k.wp pd (f k)).modC c fun k => { k with pc := k.pc + BitVec.ofNat 16 4 }) =
      s.modC c fun k => { k.wp pd (f s.cl[c]) with pc := s.cl[c].pc + 4 } := by
    rw [modC_modC]; unfold State.modC; congr 2; unfold Cluster.wp; split <;> rfl
  rw [e]; exact writesP_modC ..

theorem issue_wv {i : Instr} {c : Fin 32} {p : Fin 8} {s : State} {body : State → Job → Res} {j : Job} {rd : Fin 32} {f : Cluster → BitVec 2048}
    (h : Ready s c p 4 j) (hb : body s j = onC s c fun k => k.wv rd (f k)) :
    ∃ t, issue i c p 4 s body = .next t ∧ WritesV s t c rd (f s.cl[c]) := by
  refine ⟨_, issue_done h hb, ?_⟩
  have e : ((s.modC c fun k => k.wv rd (f k)).modC c fun k => { k with pc := k.pc + BitVec.ofNat 16 4 }) =
      s.modC c fun k => { k.wv rd (f s.cl[c]) with pc := s.cl[c].pc + 4 } := by
    rw [modC_modC]; rfl
  rw [e]; exact writesV_modC ..

theorem issue_wd {i : Instr} {c : Fin 32} {p : Fin 8} {s : State} {body : State → Job → Res} {j : Job} {rd : Fin 16} {f : Cluster → BitVec 256}
    (h : Ready s c p 4 j) (hb : body s j = onC s c fun k => k.wd rd (f k)) :
    ∃ t, issue i c p 4 s body = .next t ∧ WritesD s t c rd (f s.cl[c]) := by
  refine ⟨_, issue_done h hb, ?_⟩
  have e : ((s.modC c fun k => k.wd rd (f k)).modC c fun k => { k with pc := k.pc + BitVec.ofNat 16 4 }) =
      s.modC c fun k => { k.wd rd (f s.cl[c]) with pc := s.cl[c].pc + 4 } := by
    rw [modC_modC]; rfl
  rw [e]; exact writesD_modC ..

/-- An instruction that stores `n` bytes in the scalar data store. -/
theorem issue_sds {i : Instr} {c : Fin 32} {p : Fin 8} {s : State} {body : State → Job → Res} {j : Job} {a n : Nat} {f : Cluster → Nat}
    (h : Ready s c p 4 j) (hb : body s j = onC s c fun k => { k with sds := wrLe k.sds a n (f k) }) :
    ∃ t, issue i c p 4 s body = .next t ∧ WritesSds s t c a n (f s.cl[c]) := by
  refine ⟨_, issue_done h hb, ?_⟩
  have e : ((s.modC c fun k => { k with sds := wrLe k.sds a n (f k) }).modC c fun k => { k with pc := k.pc + BitVec.ofNat 16 4 }) =
      s.modC c fun k => { k with sds := wrLe k.sds a n (f s.cl[c]), pc := s.cl[c].pc + 4 } := by
    rw [modC_modC]; rfl
  rw [e]; exact writesSds_modC ..

end Sys2Proof.Machine
end

