-- ==== Sys2Proof/Laws/Scalar.lean ====
section
/-! SUPPORT. What each shared operation of the scalar instructions does when its conductor is ready. -/

namespace Sys2Proof.Machine

open Sys2Proof

theorem aluOp_next {i : Instr} {c : Fin 32} {o : R3} {s : State} {j : Job} (f : W64 → W64 → W64) (h : Ready s c o.p 4 j) :
    ∃ t, aluOp i c o s f = .next t ∧ WritesS s t c o.rd (f (s.cl[c].rs o.ra) (s.cl[c].rs o.rb)) (s.cl[c].pc + 4) :=
  issue_ws (f := fun k => f (k.rs o.ra) (k.rs o.rb)) h rfl

theorem aluiOp_next {i : Instr} {c : Fin 32} {o : I12} {s : State} {j : Job} (f : W64 → W64 → W64) (h : Ready s c o.p 4 j) :
    ∃ t, aluiOp i c o s f = .next t ∧ WritesS s t c o.rd (f (s.cl[c].rs o.ra) (o.imm.signExtend 64)) (s.cl[c].pc + 4) :=
  issue_ws (f := fun k => f (k.rs o.ra) (o.imm.signExtend 64)) h rfl

theorem shiftiOp_next {i : Instr} {c : Fin 32} {o : I12} {s : State} {j : Job} (f : W64 → Nat → W64) (h : Ready s c o.p 4 j) (hn : o.imm.toNat < 64) :
    ∃ t, shiftiOp i c o s f = .next t ∧ WritesS s t c o.rd (f (s.cl[c].rs o.ra) o.imm.toNat) (s.cl[c].pc + 4) :=
  issue_ws (f := fun k => f (k.rs o.ra) o.imm.toNat) h (if_neg (by omega))

theorem pReg_of {r : Fin 32} {d : Fin 8} (h : r.val = d.val) : pReg r = some d := by
  have : r.val < 8 := by omega
  simp [pReg, this, h]

theorem cmpOp_next {i : Instr} {c : Fin 32} {o : R3} {s : State} {j : Job} {d : Fin 8} (f : W64 → W64 → Bool) (h : Ready s c o.p 4 j)
    (hd : o.rd.val = d.val) : ∃ t, cmpOp i c o s f = .next t ∧ WritesP s t c d (f (s.cl[c].rs o.ra) (s.cl[c].rs o.rb)) :=
  issue_wp (f := fun k => f (k.rs o.ra) (k.rs o.rb)) h (by simp only [pReg_of hd])

theorem predOp_next {i : Instr} {c : Fin 32} {o : R3} {s : State} {j : Job} {d a b : Fin 8} (f : Bool → Bool → Bool) (h : Ready s c o.p 4 j)
    (hd : o.rd.val = d.val) (ha : o.ra.val = a.val) (hb : o.rb.val = b.val) :
    ∃ t, predOp i c o s f = .next t ∧ WritesP s t c d (f (s.cl[c].rp a) (s.cl[c].rp b)) :=
  issue_wp (f := fun k => f (k.rp a) (k.rp b)) h (by simp only [pReg_of hd, pReg_of ha, pReg_of hb])

theorem sdsAddr_of {k : Cluster} {o : I12} {n a : Nat} (h : (k.rs o.ra + o.imm.signExtend 64).toNat = a) (h1 : a % n = 0) (h2 : a + n ≤ 32768) :
    sdsAddr k o n = some a := by
  unfold sdsAddr imm12; rw [h]; simp [h1, h2]

theorem loadOp_next {i : Instr} {c : Fin 32} {o : I12} {s : State} {j : Job} {n a : Nat} (ext : Nat → W64) (h : Ready s c o.p 4 j)
    (ha : (s.cl[c].rs o.ra + o.imm.signExtend 64).toNat = a) (h1 : a % n = 0) (h2 : a + n ≤ 32768) :
    ∃ t, loadOp i c o s n ext = .next t ∧ WritesS s t c o.rd (ext (rdLe s.cl[c].sds a n)) (s.cl[c].pc + 4) :=
  issue_ws (f := fun k => ext (rdLe k.sds a n)) h (by simp only [sdsAddr_of ha h1 h2])

theorem storeOp_next {i : Instr} {c : Fin 32} {o : I12} {s : State} {j : Job} {n a : Nat} (h : Ready s c o.p 4 j)
    (ha : (s.cl[c].rs o.ra + o.imm.signExtend 64).toNat = a) (h1 : a % n = 0) (h2 : a + n ≤ 32768) :
    ∃ t, storeOp i c o s n = .next t ∧ WritesSds s t c a n (s.cl[c].rs o.rd).toNat :=
  issue_sds (f := fun k => (k.rs o.rd).toNat) h (by simp only [sdsAddr_of ha h1 h2])

/-- Sign extension by bytes is sign extension of the word. -/
theorem sext_eq (w v : Nat) (hw : 0 < w) : BitVec.ofInt 64 (sx w v) = (BitVec.ofNat w v).signExtend 64 := by
  have : sx w v = (BitVec.ofNat w v).toInt := by
    unfold sx
    rw [BitVec.toInt_eq_msb_cond, BitVec.msb_eq_getLsbD_last]
    simp [BitVec.getLsbD, BitVec.toNat_ofNat]
  rw [this]; rfl

theorem trace_off {s : State} {c : Fin 32} {a b : Nat} (h : s.dbg.traceEn.getLsbD c.val = false) : s.trace c a b = s := by
  have : bit s.dbg.traceEn c.val = false := h
  simp [State.trace, this]

theorem jumpTo_next {i : Instr} {c : Fin 32} {p : Fin 8} {s : State} {body : State → Job → Res} {j : Job} {rd : Fin 32} {pc : W16}
    (h : Ready s c p 4 j) (ht : s.dbg.traceEn.getLsbD c.val = false) (hb : body s j = jumpTo s c rd pc) :
    ∃ t, issue i c p 4 s body = .next t ∧ WritesS s t c rd (BitVec.ofNat 64 (s.cl[c].pc.toNat + 4)) pc := by
  have hb' : body s j = .jump (s.modC c fun k => k.ws rd (BitVec.ofNat 64 (s.cl[c].pc.toNat + 4))) pc := by
    rw [hb]; unfold jumpTo; simp only; rw [trace_off]; exact ht
  refine ⟨_, issue_jump h hb', ?_⟩
  rw [modC_modC]; exact writesS_modC ..

end Sys2Proof.Machine
end

