-- ==== Sys2Proof/Laws/Vector.lean ====
section
/-! SUPPORT. Lanes of a vector register, and what the shared vector operations do when their conductor is ready. -/

namespace Sys2Proof.Machine

open Sys2Proof

/-- The digits of a sum of scaled digits. -/
theorem digits_sum (b : Nat) (hb : 0 < b) (f : Nat → Nat) (n i : Nat) (hi : i < n) (a0 : Nat) (h0 : a0 = 0) :
    ((List.range n).foldl (fun acc k => acc + f k % b * b ^ k) a0) / b ^ i % b = f i % b := by
  subst h0
  have key : ∀ n, ((List.range n).foldl (fun acc k => acc + f k % b * b ^ k) 0) < b ^ n ∧
      ∀ i < n, ((List.range n).foldl (fun acc k => acc + f k % b * b ^ k) 0) / b ^ i % b = f i % b := by
    intro n
    induction n with
    | zero => simp
    | succ n ih =>
      rw [List.range_succ, List.foldl_append, List.foldl_cons, List.foldl_nil]
      generalize (List.range n).foldl (fun acc k => acc + f k % b * b ^ k) 0 = x at ih
      obtain ⟨hx, hd⟩ := ih
      have hm := Nat.mod_lt (f n) hb
      refine ⟨?_, fun i hi => ?_⟩
      · calc x + f n % b * b ^ n < b ^ n + f n % b * b ^ n := by omega
          _ = (f n % b + 1) * b ^ n := by ring
          _ ≤ b * b ^ n := Nat.mul_le_mul_right _ hm
          _ = b ^ (n + 1) := by ring
      · by_cases h : i = n
        · subst h
          rw [Nat.add_mul_div_right _ _ (Nat.pow_pos hb), Nat.div_eq_of_lt hx, Nat.zero_add, Nat.mod_mod]
        · have hlt : i < n := by omega
          obtain ⟨m, rfl⟩ : ∃ m, n = i + 1 + m := ⟨n - (i + 1), by omega⟩
          have : x + f (i + 1 + m) % b * b ^ (i + 1 + m) = x + (f (i + 1 + m) % b * b ^ m * b) * b ^ i := by ring
          rw [this, Nat.add_mul_div_right _ _ (Nat.pow_pos hb), Nat.add_mul_mod_self_right, hd i hlt]
  exact (key n).2 i hi

/-- Lane `i` of a register made from its lanes. -/
theorem ofLanes_lane (w : Bool) (f : Nat → Nat) (i : Nat) (hi : i < laneN w) :
    (ofLanes w f).extractLsb' (laneW w * i) (laneW w) = BitVec.ofNat (laneW w) (f i) := by
  apply BitVec.eq_of_toNat_eq
  rw [BitVec.extractLsb'_toNat, ofLanes, BitVec.toNat_ofNat, BitVec.toNat_ofNat, Nat.shiftRight_eq_div_pow]
  have hw : laneW w * i + laneW w ≤ 2048 := by
    have : i + 1 ≤ 2048 / laneW w := hi
    calc laneW w * i + laneW w = laneW w * (i + 1) := by ring
      _ ≤ laneW w * (2048 / laneW w) := Nat.mul_le_mul_left _ this
      _ ≤ 2048 := Nat.mul_div_le ..
  have e : ∀ k, 2 ^ (laneW w * k) = (2 ^ laneW w) ^ k := fun k => by rw [pow_mul]
  simp only [e]
  have hd := digits_sum (2 ^ laneW w) (by positivity) f (laneN w) i hi 0 rfl
  generalize (List.range (laneN w)).foldl (fun acc k => acc + f k % 2 ^ laneW w * (2 ^ laneW w) ^ k) 0 = x at hd ⊢
  rw [← hd]
  have h2 : (2 : Nat) ^ 2048 = 2 ^ (laneW w * i) * (2 ^ laneW w * 2 ^ (2048 - (laneW w * i + laneW w))) := by
    rw [← pow_add, ← pow_add]; congr 1; omega
  rw [← e i, h2, Nat.mod_mul_right_div_self, Nat.mod_mul_right_mod]

/-- A lane read as a bit vector. -/
theorem laneU_eq (w : Bool) (v : BitVec 2048) (i : Nat) : laneU w v i = (v.extractLsb' (laneW w * i) (laneW w)).toNat := by
  simp [laneU, fld, bits, BitVec.extractLsb'_toNat, Nat.shiftRight_eq_div_pow]

theorem sx_toInt (w v : Nat) : sx w v = (BitVec.ofNat w v).toInt := by
  unfold sx
  rw [BitVec.toInt_eq_msb_cond, BitVec.msb_eq_getLsbD_last]
  simp [BitVec.getLsbD, BitVec.toNat_ofNat]

theorem laneS_eq (w : Bool) (v : BitVec 2048) (i : Nat) : laneS w v i = (v.extractLsb' (laneW w * i) (laneW w)).toInt := by
  rw [laneS, sx_toInt, laneU_eq, BitVec.ofNat_toNat, BitVec.setWidth_eq]

/-- A wrapped integer as a lane. -/
theorem ofNat_wrap (w : Nat) (x : Int) : BitVec.ofNat w (wrap w x) = BitVec.ofInt w x := by
  apply BitVec.eq_of_toNat_eq
  have h : 0 ≤ x % (2 ^ w : Int) := Int.emod_nonneg _ (by positivity)
  have h2 : x % (2 ^ w : Int) < 2 ^ w := Int.emod_lt_of_pos _ (by positivity)
  rw [BitVec.toNat_ofInt, BitVec.toNat_ofNat, wrap]
  have : (x % (2 ^ w : Int)).toNat < 2 ^ w := by zify; rw [Int.toNat_of_nonneg h]; exact_mod_cast h2
  rw [Nat.mod_eq_of_lt this]; push_cast; rfl

/-- A lane-wise function of two registers. -/
theorem vecOp_next {i : Instr} {c : Fin 32} {o : V3} {s : State} {j : Job} (f : Int → Int → Int) (h : Ready s c o.p 4 j) :
    ∃ t v, vecOp i c o s f = .next t ∧ WritesV s t c o.rd v ∧ ∀ n < laneN o.w, v.extractLsb' (laneW o.w * n) (laneW o.w) =
      BitVec.ofInt (laneW o.w) (f (s.cl[c].v[o.ra].extractLsb' (laneW o.w * n) (laneW o.w)).toInt
        (s.cl[c].v[o.rb].extractLsb' (laneW o.w * n) (laneW o.w)).toInt) := by
  obtain ⟨t, h1, h2⟩ := issue_wv (i := i) (f := fun k => ofLanes o.w fun n => wrap (laneW o.w) (f (laneS o.w k.v[o.ra] n) (laneS o.w k.v[o.rb] n)))
    (body := fun s _ => onC s c fun k => k.wv o.rd (ofLanes o.w fun n => wrap (laneW o.w) (f (laneS o.w k.v[o.ra] n) (laneS o.w k.v[o.rb] n)))) h rfl
  refine ⟨t, _, h1, h2, fun n hn => ?_⟩
  rw [ofLanes_lane _ _ _ hn, ofNat_wrap, laneS_eq, laneS_eq]

end Sys2Proof.Machine
end

