-- ==== Sys2Proof/WellFormed.lean ====
section
/-! DEFINITION. The operands a command can carry. -/

namespace Sys2Proof

/-- The operand data has the length its rule fixes. -/
def Instr.wf (i : Instr) : Bool :=
  match i with
  | .pageWalkDone _ _ _ (.entries es) => 1 ≤ es.length && es.length ≤ 4
  | .argBlockFetched _ (.data bs) => bs.length % 64 == 0 && bs.length ≤ 65536
  | .scratchWrite bs _ => bs.length ≤ 32
  | _ => true

end Sys2Proof
end

