-- ==== Sys2Proof/Tests/Slice0.lean ====
section
/-! SUPPORT. The model's own tests: the smoke test of well-formedness, words decoded from the spec's encodings, one step of a command on a small state,
and for each statement with hypotheses states that meet them. Expected values are worked by hand from the rules cited beside them. -/

namespace Sys2Proof.Tests

open Sys2Proof.Machine

set_option Elab.async false

/-! ## Small states -/

/-- Set CFG-B of a partition on IO0: clusters 0 to 7, two C0 slots, tallies 0 to 2,047, one deferred C0 job, the work ceiling 1,000, and segment 0
open to every unit. -/
def setB : BitVec 4096 :=
  BitVec.ofNat 4096 (0xFF * 2 ^ 32 + 2 * 2 ^ 64 + 0x3 * 2 ^ 256 + 1000 * 2 ^ 1120 + 1 * 2 ^ 1152 + 8 * 2 ^ 1248
    + (7 + 0x7FF * 2 ^ 64 + 16 * 2 ^ 76) * 2 ^ 2048)

/-- The device operates: both links up, every PLL locked. -/
def up : State :=
  { State.reset with
    pwr := { Pwr.reset with st := .on, stage := 6, rails := true, pwrEn := true, vinOk := true, vin := 5400, perst0 := false, perst1 := false }
    io := Vector.replicate 2 { IoDie.reset with link := true, inReset := false, sriov := true }
    clk := { Clk.reset with lock := 0x1FF } }

/-- Partition 3 has the set in force. -/
def part : State := up.modP 3 fun q => { q with cfgB := setB, activeValid := true }

def job : Job :=
  { id := 7, ptn := 3, ring := 0, slot := 0, fseq := 0, desc := 0, ph := .running, cfg := true, order := 0, k := 1, slotHeld := true, start := 0
    startCyc := 0, clusters := [2], idx := [], tbl := [], resT0 := [], argT0 := [], resT1 := [], resKv := 0, resBuf := 0, argReady := true
    arg := [], pins := [], exhausted := false, chans := [], resultLen := 0, result := 0, trunc := false }

/-- A tensor of two pages, pinned in T0 by the job. -/
def tensor : Tensor :=
  { base := 0, size := 2, backed := true, place := 0, home := 0, t2 := 0x40000, pins := 1, tier := 0, dirty := false, die := 0, lastUnpin := 0
    homed := some 0, frames := [((false, 0), 2)], dest := [], moving := none, cause := none, next := [], drop := 0 }

/-- A descriptor of one row of n 32-bit integers at offset 0 of segment 0. -/
def desc (fmt n : Nat) : BitVec 256 := BitVec.ofNat 256 (fmt * 2 ^ 52 + 1 * 2 ^ 56 + n * 2 ^ 64)

/-- The job runs on conductor 2 at PC 8; `f` sets its registers. -/
def run (f : Cluster → Cluster) : State :=
  ({ part.modP 3 (fun q => { q with dir := [tensor] }) with jobs := [job] }).modC 2
    fun k => f { k with job := some 7, textEnd := 64, pc := 8, d := k.d.set 1 (desc 4 128) }

/-- An XMUL of the job. -/
def op : Op :=
  { id := 5, k := .mxa, mn := .xmul, c := 2, job := 7, ptn := 3, cfg := true, pc := 8, w1 := 0, w2 := 0, dA := desc 4 128, dB := desc 4 128
    dC := desc 4 128, dD := 0, rA := 1, rB := 1, rC := 1, rD := 0, den := false, accum := false, notally := true, sp := 0, tally := 0
    run := none, startCyc := 0, sliceCyc := 0, issued := 0, stale := [], home := none, cuts := [], hid := 0, doom := none, cbs := [] }

/-- A transfer of the partition, issued. -/
def xfer : Xfer :=
  { id := 9, ptn := 3, cfg := true, chan := 0, job := some 7, op := none, base := 0, iova := 0x5000, len := 8192, write := false, done := 0
    st := .issued, ring := RingRef.jr 0, slot := 0, fseq := 0, live := true, data := [], bad1 := none }

/-- What a next state shows. -/
def shows {α : Type} (o : Out) (f : State → α) : Option α := match o with | .next t => some (f t) | _ => none

/-- A general register, the PC and a predicate of conductor 2. -/
def sreg (r : Fin 32) (s : State) : W64 × W16 := (s.cl[(2 : Fin 32)].s[r], s.cl[(2 : Fin 32)].pc)

def preg (r : Fin 8) (s : State) : Bool × W16 := (s.cl[(2 : Fin 32)].p[r], s.cl[(2 : Fin 32)].pc)

/-- s6 and s7 of the conductor. -/
def ab (a b : W64) : State := run fun k => { k with s := (k.s.set 6 a).set 7 b }

def r567 : R3 := { p := 0, rd := 5, ra := 6, rb := 7 }

/-- A function of s6 and s7 to s5. -/
def alu (f : Fin 32 → R3 → Instr) (a b : W64) : Option (W64 × W16) := shows (exec (f 2 r567) (ab a b)) (sreg 5)

/-! ## Syntax and well-formedness -/

theorem test_wf_walk : Instr.wf (.pageWalkDone 0 false 0 (.entries [])) = false ∧ Instr.wf (.pageWalkDone 0 false 0 (.entries [1, 1, 1, 1, 1])) = false ∧
    Instr.wf (.pageWalkDone 0 false 0 (.entries [1])) = true := by decide +kernel
theorem test_wf_arg : Instr.wf (.argBlockFetched 0 (.data [0])) = false ∧ Instr.wf (.argBlockFetched 0 (.data (List.replicate 65600 0))) = false ∧
    Instr.wf (.argBlockFetched 0 (.data (List.replicate 64 0))) = true := by decide +kernel
theorem test_wf_scratch : Instr.wf (.scratchWrite (List.replicate 33 0) none) = false ∧ Instr.wf (.scratchWrite [1] none) = true := by decide +kernel

/-! ## Words of the spec's encodings, bit by bit (05 Tables 5.3 to 5.17) -/

def dec (w v : Nat) : Option Instr := decodeWord (fun _ => 4) 2 w v

/-- LUI s1: class 2, RD 1, the immediate 1. -/
theorem test_decode_lui : dec 0x20100001 0 = some (.lui 2 { p := 0, rd := 1, imm := 1 }) := by decide +kernel
/-- ADDI s21, s21, 0x400 under p0: class 1, RD 21, RA 21, FUNC 0. -/
theorem test_decode_addi : dec 0b0001_000_10101_10101_000_010000000000 0 = some (.addi 2 { p := 0, rd := 21, ra := 21, imm := 0x400 }) := by decide +kernel
/-- SUB s3, s4, s5 under p2: class 0, PRED 2, RD 3, RA 4, RB 5, FUNC 1. -/
theorem test_decode_sub : dec 0b0000_010_00011_00100_00101_00000_00001 0 = some (.sub 2 { p := 2, rd := 3, ra := 4, rb := 5 }) := by decide +kernel
/-- PNOT p3, p4: class 3, FUNC 11. -/
theorem test_decode_pnot : dec 0b0011_000_00011_00100_00000_00000_01011 0 = some (.pnot 2 { p := 0, rd := 3, ra := 4, rb := 0 }) := by decide +kernel
/-- LDWU and STX: classes 4 and 5, SZ at [14:12]. -/
theorem test_decode_mem : dec 0b0100_000_00001_00010_110_000000001000 0 = some (.ldwu 2 { p := 0, rd := 1, ra := 2, imm := 8 }) ∧
    dec 0b0101_000_00001_00010_111_000110000000 0 = some (.stx 2 { p := 0, rd := 1, ra := 2, imm := 0x180 }) := by decide +kernel
/-- JAL and JALR: classes 6 and 7. -/
theorem test_decode_jump : dec 0b0110_000_00001_11111111111111111110 0 = some (.jal 2 { p := 0, rd := 1, imm := 0xFFFFE }) ∧
    dec 0b0111_000_00001_00010_000_000000000100 0 = some (.jalr 2 { p := 0, rd := 1, ra := 2, imm := 4 }) ∧
    dec 0b0111_000_00001_00010_001_000000000100 0 = none := by decide +kernel
/-- VADD with W 1: class 8; VST: class 9, bit 0. -/
theorem test_decode_vec : dec 0b1000_000_00001_00010_00011_1_000_000000 0 = some (.vadd 2 { p := 0, rd := 1, ra := 2, rb := 3, w := true }) ∧
    dec 0b1001_000_00001_00010_00011_0000000001 0 = some (.vst 2 { p := 0, rd := 1, ra := 2, rb := 3 }) := by decide +kernel
/-- DLD with its 10-bit field, DSETW word 2: class 10. -/
theorem test_decode_desc : dec 0b1010_000_00001_00010_0000000011_00_000 0 = some (.dld 2 { p := 0, rd := 1, ra := 2, off := 3 }) ∧
    dec 0b1010_000_00001_00000_00011_00000_10_010 0 = some (.dsetw 2 { p := 0, rd := 1, ra := 0, rs := 3, w := 2 }) := by decide +kernel
/-- WAIT of s21 for s22: class 11, FUNC 0. -/
theorem test_decode_wait : dec 0b1011_000_00000_10101_10110_0000000000 0 = some (.wait 2 { p := 0, rd := 0, ra := 21, rb := 22 }) := by decide +kernel
/-- PIN of three tensors with NT; RSEND on VC1: classes 12 and 13. -/
theorem test_decode_ten : dec 0b1100_000_00001_00010_00011_0_0010_00_1_00 0
      = some (.pin 2 { p := 0, rd := 1, ra := 2, rb := 3, cnt := 2, tier := 0, nt := true }) ∧
    dec 0b1101_000_00001_00010_00011_000_000_01_00 0 = some (.rsend 2 { p := 0, rd := 1, ra := 2, rb := 3, rop := 0, vc := 1 }) := by decide +kernel
/-- XMUL and TOPK: class 14, ENG 0 and 2, OP 0, SP 23 and 24, with d1, d2, d3 and the tally 0x1400. -/
theorem test_decode_engine : dec 0xE000B800 0x12301400 = some (.xmul 2 { p := 0, sp := 23, dD := 0, den := false, notally := false, accum := false
                                                                       , dA := 1, dB := 2, dC := 3, tally := 0x1400 }) ∧
    dec 0xE040C000 0x30401400 = some (.topk 2 { p := 0, sp := 24, dD := 0, den := false, notally := false, accum := false
                                              , dA := 3, dB := 0, dC := 4, tally := 0x1400 }) ∧
    dec 0xE082C000 0 = some (.kvcmpState 2 { p := 0, sp := 24, dD := 0, den := false, notally := false, accum := false
                                           , dA := 0, dB := 0, dC := 0, tally := 0 }) := by decide +kernel
/-- END with T, CSRR of 5: class 15. -/
theorem test_decode_control : dec 0b1111_000_00001_00010_00011_0000_1_00001 0 = some (.endc 2 { p := 0, rd := 1, ra := 2, rb := 3, t := true }) ∧
    dec 0b1111_000_00001_00000_0000000101_00100 0 = some (.csrr 2 { p := 0, rd := 1, imm := 5 }) := by decide +kernel
/-- Reserved classes of functions decode to nothing. -/
theorem test_decode_reserved : dec 0x0000000F 0 = none ∧ dec 0x00000020 0 = none ∧ dec 0xE0A10000 0 = none ∧ dec 0xF0000006 0 = none := by decide +kernel
/-- The table gives its rows no bits, so no word spells a command. -/
theorem test_decode_table : decodeTableWord 32 0x20100001 = none ∧ (State.reset.withFetchWord 32 1).pending = [] := by decide +kernel

/-! ## The block's form -/

theorem test_step_front : shows (step { up with pending := [.tapReset, .idcode] }) (fun t => (t.pending, t.tap.ir)) = some ([.idcode], 1) := by decide +kernel
/-- An empty queue with GCLK unlocked (reset) and locked; with nothing to slew, and at a correction. -/
theorem witness_tick : State.reset.pending = [] ∧ State.reset.clk.lock.getLsbD 4 = false ∧ up.pending = [] ∧ up.clk.lock.getLsbD 4 = true ∧
    up.clk.slew = 0 := by decide +kernel
theorem test_tick : shows (step up) (fun t => (t.clk.gt, t.clk.cyc10)) = some (1, 10) ∧ shows (step State.reset) (fun t => t.clk.gt) = some 0 ∧
    shows (step { up with clk := { up.clk with slew := 3, slewCnt := 1999 } }) (fun t => (t.clk.gt, t.clk.slew)) = some (2, 2) := by decide +kernel

/-! ## Folainar: scalars, predicates, memory, jumps -/

theorem witness_ready : Ready (run id) 2 0 4 job ∧ Ready (run id) 2 0 8 job := ⟨⟨rfl, by decide +kernel, by decide +kernel, by decide +kernel⟩, rfl, by decide +kernel, by decide +kernel, by decide +kernel⟩
theorem test_add : alu .add 0xFFFFFFFFFFFFFFFF 2 = some (1, 12) := by decide +kernel
theorem test_sub : alu .sub 1 2 = some (0xFFFFFFFFFFFFFFFF, 12) := by decide +kernel
theorem test_logic : alu .and 12 10 = some (8, 12) ∧ alu .or 12 10 = some (14, 12) ∧ alu .xor 12 10 = some (6, 12) := by decide +kernel
theorem test_shift : alu .sll 1 65 = some (2, 12) ∧ alu .srl 0x8000000000000000 63 = some (1, 12) ∧
    alu .sra 0x8000000000000000 63 = some (0xFFFFFFFFFFFFFFFF, 12) := by decide +kernel
theorem test_mul : alu .mul 0xFFFFFFFFFFFFFFFF 3 = some (0xFFFFFFFFFFFFFFFD, 12) ∧ alu .mulh 0xFFFFFFFFFFFFFFFF 3 = some (0xFFFFFFFFFFFFFFFF, 12) ∧
    alu .mulhu 0xFFFFFFFFFFFFFFFF 3 = some (2, 12) := by decide +kernel
theorem test_minmax : alu .min 0xFFFFFFFFFFFFFFFF 1 = some (0xFFFFFFFFFFFFFFFF, 12) ∧ alu .max 0xFFFFFFFFFFFFFFFF 1 = some (1, 12) ∧
    alu .minu 0xFFFFFFFFFFFFFFFF 1 = some (1, 12) ∧ alu .maxu 0xFFFFFFFFFFFFFFFF 1 = some (0xFFFFFFFFFFFFFFFF, 12) := by decide +kernel
/-- A write to s0 is discarded; its read is 0. -/
theorem test_s0 : shows (exec (.add 2 { p := 0, rd := 0, ra := 6, rb := 7 }) (ab 1 2)) (sreg 0) = some (0, 12) := by decide +kernel
/-- The immediate −1, and the largest shift. -/
theorem test_alui : shows (exec (.addi 2 { p := 0, rd := 5, ra := 6, imm := 0xFFF }) (ab 1 2)) (sreg 5) = some (0, 12) ∧
    shows (exec (.srli 2 { p := 0, rd := 5, ra := 6, imm := 63 }) (ab 0x8000000000000000 2)) (sreg 5) = some (1, 12) ∧
    (63 : BitVec 12).toNat < 64 := by decide +kernel
theorem test_lui : shows (exec (.lui 2 { p := 0, rd := 5, imm := 0x80000 }) (run id)) (sreg 5) = some (0xFFFFFFFF80000000, 12) := by decide +kernel
theorem test_cmp : shows (exec (.clt 2 { r567 with rd := 3 }) (ab 0xFFFFFFFFFFFFFFFF 1)) (preg 3) = some (true, 12) ∧
    shows (exec (.cltu 2 { r567 with rd := 3 }) (ab 0xFFFFFFFFFFFFFFFF 1)) (preg 3) = some (false, 12) ∧
    ((3 : Fin 32).val = (3 : Fin 8).val ∧ (7 : Fin 32).val = (7 : Fin 8).val) := by decide +kernel
theorem test_pnot : shows (exec (.pnot 2 { p := 0, rd := 3, ra := 0, rb := 0 }) (run id)) (preg 3) = some (false, 12) := by decide +kernel
/-- The highest doubleword of the scalar data store: 32,760, by a store and a load. -/
theorem test_std : shows (exec (.std 2 { p := 0, rd := 7, ra := 6, imm := 0xFF8 }) (ab 32768 0x1122334455667788))
      (fun t => (rdLe t.cl[(2 : Fin 32)].sds 32760 8, rdLe t.cl[(2 : Fin 32)].sds 32760 1)) = some (0x1122334455667788, 0x88) := by decide +kernel
theorem test_ldb : shows (exec (.ldb 2 { p := 0, rd := 5, ra := 6, imm := 1 })
      (run fun k => { k with s := k.s.set 6 32766, sds := [(32767, 0x80)] })) (sreg 5) = some (0xFFFFFFFFFFFFFF80, 12) := by decide +kernel
theorem witness_memory : ((32768 : W64) + (0xFF8 : BitVec 12).signExtend 64).toNat = 32760 ∧ 32760 % 8 = 0 ∧ 32760 + 8 ≤ 32768 := by decide +kernel
theorem witness_jump : (run id).dbg.traceEn.getLsbD 2 = false := by decide +kernel
theorem test_jal : shows (exec (.jal 2 { p := 0, rd := 5, imm := 0xFFFFF }) (run id)) (sreg 5) = some (12, 4) := by decide +kernel
theorem test_jalr : shows (exec (.jalr 2 { p := 0, rd := 5, ra := 6, imm := 3 }) (ab 0x20 0)) (sreg 5) = some (12, 0x20) := by decide +kernel

/-! ## Folainar: vectors, tensors, descriptors, tallies, control -/

/-- A vector register of 32-bit lanes. -/
def lanes (l : List Int) : BitVec 2048 := BitVec.ofNat 2048 (ofLe (l.flatMap fun x => leBytes 4 (wrap 32 x)))

/-- v1 and v2 of the conductor, and s7. -/
def vv (a b : List Int) (n : W64) : State := run fun k => { k with v := (k.v.set 1 (lanes a)).set 2 (lanes b), s := k.s.set 7 n }

/-- A lane of v3 after a function of v1 and v2. -/
def vec (f : Fin 32 → V3 → Instr) (i : Nat) (a b : List Int) : Option W32 :=
  shows (exec (f 2 { p := 0, rd := 3, ra := 1, rb := 2, w := true }) (vv a b 0)) fun t => (t.cl[(2 : Fin 32)].v[3]).extractLsb' (32 * i) 32

theorem test_vadd : vec .vadd 1 [0, 0x7FFFFFFF] [0, 1] = some 0x80000000 ∧ vec .vadds 1 [0, 0x7FFFFFFF] [0, 1] = some 0x7FFFFFFF ∧
    vec .vsub 0 [1] [2] = some 0xFFFFFFFF ∧ vec .vmul 63 ((List.replicate 63 0) ++ [7]) ((List.replicate 63 0) ++ [-3]) = some (-21) := by decide +kernel
theorem test_vcmp : vec .vmax 0 [-1] [1] = some 1 ∧ vec .vmin 0 [-1] [1] = some 0xFFFFFFFF ∧ vec .vcmpgt 0 [1] [-1] = some 0xFFFFFFFF ∧
    vec .vcmpgt 0 [1] [1] = some 0 := by decide +kernel
theorem test_vlogic : vec .vand 0 [12] [10] = some 8 ∧ vec .vor 0 [12] [10] = some 14 ∧ vec .vxor 0 [12] [10] = some 6 ∧
    vec .vshl 0 [1] [33] = some 2 ∧ vec .vshr 0 [-4] [1] = some (-2) := by decide +kernel
theorem test_vred : shows (exec (.vredadd 2 { p := 0, rd := 5, ra := 1, rb := 0, w := true }) (vv [0x7FFFFFFF, 0x7FFFFFFF] [] 0)) (sreg 5)
      = some (0xFFFFFFFE, 12) ∧
    shows (exec (.vredmax 2 { p := 0, rd := 5, ra := 1, rb := 0, w := true }) (vv (List.replicate 64 (-5)) [] 0)) (sreg 5)
      = some (0xFFFFFFFFFFFFFFFB, 12) := by decide +kernel
/-- VEXT of the last lane, 63. -/
theorem test_vext : shows (exec (.vext 2 { p := 0, rd := 5, ra := 1, rb := 7, w := true }) (vv (List.replicate 64 (-2)) [] 63)) (sreg 5)
      = some (0xFFFFFFFFFFFFFFFE, 12) ∧ (63 : W64).toNat < 2048 / 32 ∧ (255 : W64).toNat < 2048 / 8 := by decide +kernel
/-- 06 R158: 2^0 × 2^24, the last nonzero, and the zero; and the logarithm's ends. -/
theorem test_exp2 : exp2Q 0 = 16777216 ∧ exp2Q 256 = 8388608 ∧ exp2Q 4095 = 0 ∧ log2Q 0 = 4095 ∧ log2Q 16777216 = 0 ∧ log2Q 8388608 = 256 ∧
    0 < 8388608 ∧ 8388608 < 2 ^ 24 ∧ log2Q 8388608 < 4094 := by decide +kernel
theorem test_vbsort_overlap : shows (exec (.vbsort 2 { p := 0, rd := 8, ra := 8, rb := 0, w := true }) (run id)) (fun t => (t.P 3).excCause) = some 1 := by
  decide +kernel
theorem witness_vbsort : (8 : Fin 32).val % 8 = 0 ∧ (16 : Fin 32).val % 8 = 0 ∧ (24 : Fin 32).val % 8 = 0 ∧ (8 : Fin 32) ≠ 24 := by decide +kernel
theorem test_vbsort : shows (exec (.vbsort 2 { p := 0, rd := 8, ra := 0, rb := 0, w := true })
      (run fun k => { k with v := k.v.set 7 (lanes ((List.replicate 63 0) ++ [9])) }))
      (fun t => ((t.cl[(2 : Fin 32)].v[8]).extractLsb' 0 32, (t.cl[(2 : Fin 32)].v[8]).extractLsb' 32 32, (t.cl[(2 : Fin 32)].v[15]).extractLsb' 2016 32))
      = some (511, 0, 510) := by decide +kernel

/-- The tensor's first and last aligned doubleword and the last vector row it holds lie at the segment's start and end. -/
def tRun (at_ : W64) : State := run fun k => { k with s := (k.s.set 7 at_).set 5 0xAB }

theorem witness_tensor : dReg 1 = some 1 ∧ (0x380 : BitVec 12).toNat = 128 * (7 : Fin 32).val ∧ tOk (desc 4 128) = true ∧
    (tOff (desc 4 128) + (504 : W64).toNat) % 8 = 0 ∧ ((run id).cl[(2 : Fin 32)].d[1]) = desc 4 128 ∧
    (match (run id).locate job.cnd 1 (desc 4 128) 8184 8 true false with | .ok l => l == .mem 8184 0 | _ => false) = true ∧
    (match (run id).locate job.cnd 1 (desc 4 128) 8184 8 false true with | .ok l => l == .mem 8184 0 | _ => false) = true ∧
    (match (run id).locate job.cnd 1 (desc 4 128) 7936 256 true true with | .ok l => l == .mem 7936 0 | _ => false) = true ∧
    (match (run id).locate job.cnd 1 (desc 4 128) 8185 8 true false with | .ok _ => false | _ => true) = true ∧
    (run id).badIn job.cnd (.mem 8184 0) 8 = false ∧ (run id).badEdge job.cnd (.mem 7936 0) 256 = false ∧ (7936 : W64).toNat % 64 = 0 := by
  decide +kernel
theorem test_stx : shows (exec (.stx 2 { p := 0, rd := 5, ra := 1, imm := 0x380 }) (tRun 8184))
      (fun t => (rdLe (t.P 3).mem 8184 8, (t.P 3).dir.map (·.dirty), t.cl[(2 : Fin 32)].pc)) = some (0xAB, [true], 12) := by decide +kernel
theorem test_ldx : shows (exec (.ldx 2 { p := 0, rd := 6, ra := 1, imm := 0x380 } [])
      ((tRun 8).modP 3 fun q => { q with mem := [(8, 0x11), (15, 0x22)] })) (sreg 6) = some (0x2200000000000011, 12) := by decide +kernel
theorem test_vld : shows (exec (.vld 2 { p := 0, rd := 4, ra := 1, rb := 7 } []) ((tRun 64).modP 3 fun q => { q with mem := [(65, 0x11)] }))
      (fun t => (t.cl[(2 : Fin 32)].v[4]).toNat) = some 0x1100 := by decide +kernel
theorem test_vst : shows (exec (.vst 2 { p := 0, rd := 1, ra := 1, rb := 7 }) (vv [5] [] 7936)) (fun t => rdLe (t.P 3).mem 7936 8) = some 5 := by
  decide +kernel
/-- Past the segment's limit the job fails with SEG_VIOLATION, cause 5. -/
theorem test_seg : shows (exec (.ldx 2 { p := 0, rd := 6, ra := 1, imm := 0x380 } []) (tRun 65536)) (fun t => ((t.P 3).excCause, (t.P 3).excPc)) = some (5, 8) := by
  decide +kernel

/-- The last descriptor the scalar data store holds. -/
theorem witness_desc : ((32736 : W64) + BitVec.ofNat 64 (32 * (0 : BitVec 10).toNat)).toNat = 32736 ∧ 32736 % 32 = 0 ∧ 32736 + 32 ≤ 32768 ∧
    (15 : Fin 32).val = (15 : Fin 16).val := by decide +kernel
theorem test_dld : shows (exec (.dld 2 { p := 0, rd := 15, ra := 6, off := 1 })
      (run fun k => { k with s := k.s.set 6 32704, sds := [(32736, 7)] })) (fun t => (t.cl[(2 : Fin 32)].d[15]).toNat) = some 7 := by decide +kernel
theorem test_dst : shows (exec (.dst 2 { p := 0, rd := 1, ra := 6, off := 0 }) (ab 32736 0)) (fun t => rdLe t.cl[(2 : Fin 32)].sds 32736 32)
      = some (desc 4 128).toNat := by decide +kernel
theorem test_dsetw : shows (exec (.dsetw 2 { p := 0, rd := 1, ra := 0, rs := 7, w := 3 }) (ab 0 9))
      (fun t => ((t.cl[(2 : Fin 32)].d[1]).extractLsb' 192 64, (t.cl[(2 : Fin 32)].d[1]).extractLsb' 0 192)) = some (9, (desc 4 128).extractLsb' 0 192) := by
  decide +kernel
theorem test_dgetw : shows (exec (.dgetw 2 { p := 0, rd := 5, ra := 1, rs := 0, w := 1 }) (run id)) (sreg 5) = some (128, 12) := by decide +kernel
/-- OFFSET wraps within its 48 bits. -/
theorem test_daddo : shows (exec (.daddo 2 { p := 0, rd := 1, ra := 0, rs := 7, w := 0 }) (ab 0 0xFFFFFFFFFFFF))
      (fun t => tOff t.cl[(2 : Fin 32)].d[1]) = some 0xFFFFFFFFFFFF ∧
    shows (exec (.dmov 2 { p := 0, rd := 15, ra := 1, rs := 0, w := 0 }) (run id)) (fun t => t.cl[(2 : Fin 32)].d[15] == desc 4 128) = some true := by
  decide +kernel

/-- The last tally the partition holds, 2,047: reached, and not reached by 1. -/
theorem witness_tally : (2047 : W64).toNat < 2 ^ 34 ∧ (2047 : W64).toNat % 2 ^ 17 = 2047 ∧ ((run id).owns 3 csTallies).testBit (2047 / 1024) = true ∧
    ((run id).owns 3 csTallies).testBit (2048 / 1024) = false ∧
    (0 : Int) ≤ (((run id).tallyPut 2047 5).tallyGet 2047 - (5 : W32)).toInt ∧ (((run id).tallyPut 2047 4).tallyGet 2047 - (5 : W32)).toInt < 0 := by
  decide +kernel
/-- A WAIT on tally 2,047 for 5. -/
def waitAt (v : W32) : Out := exec (.wait 2 { p := 0, rd := 0, ra := 6, rb := 7 }) ((ab 2047 5).tallyPut 2047 v)
theorem test_wait : shows (waitAt 5) (fun t => (t.cl[(2 : Fin 32)].stall == .none, t.cl[(2 : Fin 32)].pc)) = some (true, 12) ∧
    shows (waitAt 4) (fun t => (t.cl[(2 : Fin 32)].stall == .wait 2047 5 0, t.cl[(2 : Fin 32)].pc)) = some (true, 8) ∧
    shows (waitAt 0x80000004) (fun t => t.cl[(2 : Fin 32)].pc) = some 12 := by decide +kernel
theorem test_tadd : shows (exec (.tadd 2 { p := 0, rd := 0, ra := 6, rb := 7 }) ((ab 2047 0xFFFFFFFF).tallyPut 2047 5)) (fun t => t.tallyGet 2047) = some 4 ∧
    shows (exec (.signal 2 { p := 0, rd := 0, ra := 6, rb := 7 }) (ab 2047 9)) (fun t => (t.tallyGet 2047, t.tallyGet 2046)) = some (9, 0) ∧
    shows (exec (.tread 2 { p := 0, rd := 5, ra := 6, rb := 0 }) ((ab 2047 0).tallyPut 2047 0x80000000)) (sreg 5) = some (0x80000000, 12) := by decide +kernel
/-- A conductor stalled on a WAIT of tally 1 for 5 since time 0, at the time and tally given. -/
def stalled (gt : W64) (v : W32) : State :=
  let s := ((run fun k => { k with stall := .wait 1 5 0 }).tallyPut 1 v).modP 3 fun q => { q with waitLimit := 2 }
  { s with clk := { s.clk with gt := gt } }
theorem witness_wait : (stalled 2001 4).cl[(2 : Fin 32)].stall = .wait 1 5 0 ∧ (stalled 2001 4).running = true ∧
    (stalled 2001 4).dbg.halt.getLsbD 2 = false ∧ (0 : W64).toNat + 1000 * ((stalled 2001 4).P 3).waitLimit.toNat < (stalled 2001 4).clk.gt.toNat ∧
    ((stalled 2001 4).P 3).waitLimit ≠ 0 ∧ ((stalled 2001 4).tallyGet 1 - (5 : W32)).toInt < 0 ∧
    (stalled 2000 4).clk.gt.toNat ≤ (0 : W64).toNat + 1000 * ((stalled 2000 4).P 3).waitLimit.toNat ∧
    0 ≤ ((stalled 2001 5).tallyGet 1 - (5 : W32)).toInt := by decide +kernel
theorem test_wait_timeout : shows (exec (.waitTimeout 2) (stalled 2001 4)) (fun t => ((t.P 3).excCause, t.cl[(2 : Fin 32)].job)) = some (0x08, none) ∧
    shows (exec (.waitTimeout 2) (stalled 2000 4)) (fun t => t.cl[(2 : Fin 32)].job) = some (some 7) := by decide +kernel

theorem witness_control : (run id).pendingOf 2 = [] ∧ { run id with ops := [op] }.pendingOf 2 ≠ [] ∧ (run id).cl[(2 : Fin 32)].rank = 0 ∧
    (run id).canIssue 2 = true ∧ (8 : W16).toNat + 8 ≤ (run id).cl[(2 : Fin 32)].textEnd := by decide +kernel
theorem test_time : shows (exec (.time 2 { p := 0, rd := 5, imm := 0 }) { run id with clk := { (run id).clk with gt := 77 } }) (sreg 5) = some (77, 12) ∧
    shows (exec (.csrr 2 { p := 0, rd := 5, imm := 1 }) (run id)) (sreg 5) = some (3, 12) ∧
    shows (exec (.nop 2 { p := 0, rd := 0, imm := 0 }) (run id)) (sreg 5) = some (0, 12) := by decide +kernel
theorem test_drain : shows (exec (.drain 2 { p := 0, rd := 0, imm := 0 }) (run id)) (fun t => t.cl[(2 : Fin 32)].pc) = some 12 ∧
    shows (exec (.drain 2 { p := 0, rd := 0, imm := 0 }) { run id with ops := [op] }) (fun t => (t.cl[(2 : Fin 32)].pc, t.cl[(2 : Fin 32)].stall == .drain))
      = some (8, true) := by decide +kernel
theorem test_trap : shows (exec (.trap 2 { p := 0, rd := 0, imm := 3 }) (run id)) (fun t => ((t.P 3).excPc, (t.P 3).excCluster, t.cl[(2 : Fin 32)].job))
      = some (8, 2, none) := by decide +kernel
theorem test_end : shows (exec (.endc 2 { p := 0, rd := 5, ra := 6, rb := 7, t := true }) (ab 3 4))
      (fun t => ((t.jobs.map fun j => (j.trunc, j.resultLen, j.result.toNat)), t.cl[(2 : Fin 32)].ended)) = some ([(true, 0, 4 * 2 ^ 64 + 3)], true) := by
  decide +kernel
/-- p1 reads 0: the instruction moves the PC alone, whatever it holds. -/
theorem test_predicate : (run id).cl[(2 : Fin 32)].rp 1 = false ∧
    shows (exec (.add 2 { r567 with p := 1 }) (ab 1 2)) (sreg 5) = some (0, 12) ∧
    shows (exec (.trap 2 { p := 1, rd := 0, imm := 3 }) (run id)) (sreg 5) = some (0, 12) := by decide +kernel
/-- Past TEXT: PC_RANGE; a predicate number above 7: ILLEGAL_INSN; the byte 32,768: SDS_BOUNDS. -/
theorem test_exceptions : shows (exec (.add 2 r567) ((run id).modC 2 fun k => { k with pc := 61 })) (fun t => (t.P 3).excPc) = some 61 ∧
    (64 < (61 : W16).toNat + 4) ∧ 8 ≤ (8 : Fin 32).val ∧
    shows (exec (.ceq 2 { r567 with rd := 8 }) (run id)) (fun t => (t.P 3).excCause) = some 1 ∧
    shows (exec (.stb 2 { p := 0, rd := 7, ra := 6, imm := 0 }) (ab 32768 0)) (fun t => (t.P 3).excPc) = some 8 := by decide +kernel

/-! ## Folainar: engine, ring and tensor issue; the engines -/

/-- The job with s7 and s8 set, and operations already issued. -/
def eng (sp n : W64) (l : List Op) : State := { run (fun k => { k with s := (k.s.set 7 sp).set 8 n }) with ops := l, nextOp := 40 }

/-- The engine form with descriptors d1, d1, d1 and SP s7. -/
def ef : EngF := { p := 0, sp := 7, dD := 0, den := false, notally := false, accum := false, dA := 1, dB := 1, dC := 1, tally := 2047 }

/-- What an issue leaves: the operations' kinds and tallies, the PC. -/
def issued (i : Instr) (s : State) : Option (List (QKind × EngOp × Nat) × W16) :=
  shows (exec i s) fun t => (t.ops.map fun o => (o.k, o.mn, o.tally), t.cl[(2 : Fin 32)].pc)

theorem witness_engine : (ef.notally = true ∧ ef.tally = 0 ∨ ef.notally = false) ∧ ((run id).owns 3 csTallies).testBit (ef.tally.toNat / 1024) = true ∧
    ((eng 0 0 (List.replicate 15 op)).queued 2 .mxa).length < 16 ∧ 16 ≤ ((eng 0 0 (List.replicate 16 op)).queued 2 .mxa).length := by decide +kernel
theorem test_issue_xmul : issued (.xmul 2 ef) (eng 0 0 []) = some ([(.mxa, .xmul, 2047)], 16) ∧
    issued (.mvmul 2 ef) (eng 0 0 []) = some ([(.mvp, .mvmul, 2047)], 16) := by decide +kernel
theorem test_issue_topk : issued (.topk 2 { ef with dB := 0 }) (eng 0 0 []) = some ([(.ssu, .topk, 2047)], 16) ∧
    issued (.lscan 2 { ef with sp := 0 }) (eng 0 0 []) = some ([(.lse, .lscan, 2047)], 16) := by decide +kernel
theorem test_issue_gath : issued (.gath 2 ef) (eng 0 0 []) = some ([(.gse, .gath, 2047)], 16) ∧
    issued (.scat 2 ef) (eng 0 0 []) = some ([(.gse, .scat, 2047)], 16) := by decide +kernel
theorem test_issue_samp : issued (.samp 2 { ef with sp := 0 }) (eng 0 0 []) = some ([(.smu, .samp, 2047)], 16) ∧
    issued (.mconv 2 { ef with dB := 0 }) (eng 0 0 []) = some ([(.mge, .mconv, 2047)], 16) := by decide +kernel
theorem test_issue_text : issued (.ttok 2 ef) (eng 0 0 []) = some ([(.txu, .ttok, 2047)], 16) ∧
    issued (.tdtk 2 { ef with dC := 0 }) (eng 0 0 []) = some ([(.txu, .tdtk, 2047)], 16) := by decide +kernel
theorem test_issue_host : issued (.hrd 2 { ef with dA := 0, dB := 0 }) (eng 0 0 []) = some ([(.hdma, .hrd, 2047)], 16) ∧
    issued (.hwr 2 { ef with dB := 0, dC := 0 }) (eng 0 0 []) = some ([(.hdma, .hwr, 2047)], 16) := by decide +kernel
/-- The 17th stalls its conductor. -/
theorem test_queue_full : shows (exec (.xmul 2 ef) (eng 0 0 (List.replicate 16 op)))
      (fun t => (t.ops.length, t.cl[(2 : Fin 32)].pc, t.cl[(2 : Fin 32)].stall == .none)) = some (16, 8, false) := by decide +kernel
/-- FUNC 3 of Table 12.1 is COMPACT; a KVCMP whose SP names another function is another command. -/
theorem witness_kvcmp : fld ((eng 0x3000 0 []).cl[(2 : Fin 32)].rs 7) 12 3 = 3 ∧ fld ((eng 0x3000 0 []).cl[(2 : Fin 32)].rs 7) 12 3 ≠ 0 ∧
    fld ((eng 0x5000 0 []).cl[(2 : Fin 32)].rs 7) 12 3 = 5 := by decide +kernel
theorem test_kvcmp : issued (.kvcmpCompact 2 { ef with dC := 0 }) (eng 0x3000 0 []) = some ([(.gse, .kvcmp, 2047)], 16) ∧
    issued (.kvcmpOpen 2 { ef with dC := 0 }) (eng 0x3000 0 []) = some ([], 8) := by decide +kernel

/-- The ring form: data descriptor d1, peer word s7, tally word s8, VC1. -/
def rf : Rng := { p := 0, rd := 8, ra := 1, rb := 7, rop := 0, vc := 1 }
theorem witness_ring : rf.ra.val = (1 : Fin 16).val ∧ ((eng 0 2047 []).cl[(2 : Fin 32)].rs 8).toNat < 2 ^ 34 ∧
    ((eng 0 2047 []).cl[(2 : Fin 32)].rs 8).toNat % 2 ^ 17 = 2047 ∧ tFmt (desc 4 128) = 4 ∧ ((eng 0 2047 []).queued 2 .vc1).length < 16 := by decide +kernel
theorem test_rsend : issued (.rsend 2 rf) (eng 0 2047 []) = some ([(.vc1, .rsend, 2047)], 12) := by decide +kernel
theorem test_rrecv : issued (.rrecv 2 { rf with vc := 2 }) (eng 0 2047 []) = some ([(.vc2, .rrecv, 2047)], 12) ∧
    issued (.rreduce 2 { rf with rop := 2 }) (eng 0 2047 []) = some ([(.vc1, .rreduce, 2047)], 12) := by decide +kernel

/-- One tensor address in s31, NT, the status in s5. -/
def tf : Ten := { p := 0, rd := 5, ra := 31, rb := 0, cnt := 0, tier := 0, nt := true }
/-- The job with s31, and the tensor changed. -/
def ten (a : W64) (f : Tensor → Tensor) : State := (run fun k => { k with s := k.s.set 31 a }).modP 3 fun q => { q with dir := [f tensor] }
theorem witness_tensor_issue : tf.ra.val + tf.cnt.val ≤ 31 ∧ (tf.nt = true ∧ tf.rb = 0) ∧
    tenBases ((ten 8192 id).P 3) (ten 8192 id).cl[(2 : Fin 32)] tf = none ∧ tenBases ((ten 8191 id).P 3) (ten 8191 id).cl[(2 : Fin 32)] tf = some [0] ∧
    65535 ≤ ({ tensor with pins := 65535 } : Tensor).pins ∧ tensor.pins < 65535 ∧ ((ten 0 id).P 3).pinsLeft tensor ≠ 0 ∧
    ((ten 0 id).P 3).pinsLeft { tensor with pins := 0 } = 0 ∧ 0 < tensor.pins ∧
    ((ten 0 id).pinSet job 0 [tensor]).isSome = true ∧ ((ten 0 id).pinSet job 0 [{ tensor with tier := 2, pins := 0, frames := [] }]).isSome = false ∧
    ((ten 0 id).migSet job 0 2 [{ tensor with pins := 0 }]).isSome = true ∧ ((ten 0 id).migSet job 0 1 [{ tensor with pins := 0 }]).isSome = false := by
  decide +kernel
/-- Table 5.11: 0 OK, 1 NO_ROOM, 2 NOT_TENSOR, 3 PIN_LIMIT, 4 PINNED, 5 NOT_PINNED. -/
theorem test_pin : shows (exec (.pin 2 tf) (ten 8191 id)) (fun t => (t.cl[(2 : Fin 32)].s[5], (t.P 3).dir.map (·.pins))) = some (0, [2]) ∧
    shows (exec (.pin 2 tf) (ten 8192 id)) (sreg 5) = some (2, 12) ∧
    shows (exec (.pin 2 tf) (ten 0 fun t => { t with pins := 65535 })) (sreg 5) = some (3, 12) := by decide +kernel
theorem test_unpin : shows (exec (.unpin 2 tf) (ten 0 id)) (fun t => (t.cl[(2 : Fin 32)].s[5], (t.P 3).dir.map (·.pins))) = some (0, [0]) ∧
    shows (exec (.unpin 2 tf) (ten 0 fun t => { t with pins := 0 })) (sreg 5) = some (5, 12) := by decide +kernel
theorem test_mig : shows (exec (.mig 2 { tf with tier := 2 }) (ten 0 id)) (sreg 5) = some (4, 12) ∧
    shows (exec (.mig 2 { tf with tier := 1 }) (ten 0 fun t => { t with pins := 0 })) (sreg 5) = some (1, 12) := by decide +kernel

/-! ## Engines: starting and completing -/

theorem witness_start : (eng 0 0 [op]).headOf 2 .mxa = some op ∧ (eng 0 0 []).headOf 2 .mxa = none ∧ (eng 0 0 [op]).running = true ∧
    (eng 0 0 [op]).canStart op = true ∧ (eng 0 0 [op]).hasTurn op = true ∧ (eng 0 0 [op]).unitOf op = some 2 ∧
    (eng 0 0 [op, { op with id := 6, run := some 2 }]).canStart op = false ∧ op.started = false ∧ ({ op with cbs := [[]] } : Op).started = true := by
  decide +kernel
/-- The unit of a cluster kind is the cluster's; the operation's checks fail (M and N of its descriptors), and the job with them. -/
theorem test_start_fails : ((eng 0 0 [op]).putOn { op with dA := 0 } 2).ops.length = 0 ∧
    (((eng 0 0 [op]).putOn { op with dA := 0 } 2).P 3).excCause = 4 := by decide +kernel
/-- An HWR starts at once and its transfer walks. -/
theorem test_start_hwr : shows (exec (.engineOpStart 2 .hdma []) (eng 0 0 [{ op with k := .hdma, mn := .hwr, sp := 0x9000 }]))
      (fun t => (t.ops.map (·.run), t.xfers.map fun x => (x.iova, x.len, x.write))) = some ([some 2], [(0x9000, 512, true)]) := by decide +kernel
/-- A scan's slice ends with nobody else waiting: it goes on. -/
def scan : Op := { op with k := .lse, mn := .lscan, run := some 1, cbs := [[]] }
theorem witness_slice : (eng 0 0 [scan]).ops.find? (fun o => o.k == .lse && o.run == some 1) = some scan ∧ (eng 0 0 [scan]).running = true := by
  decide +kernel
theorem test_slice : shows (exec (.engineSliceExpiry .lse 1) (eng 0 0 [scan])) (fun t => t.ops.map (·.run)) = some [some 1] := by decide +kernel

/-- A running operation of each kind; a parity error fails its job with ENGINE_DATA, and another kind's command changes nothing. -/
def runs (mn : EngOp) (k : QKind) : State := eng 0 0 [{ op with mn := mn, k := k, run := some 2 }]
theorem witness_done : (runs .topk .ssu).op? 5 = some { op with mn := .topk, k := .ssu, run := some 2 } ∧ (runs .topk .ssu).running = true ∧
    (runs .xmul .mxa).op? 5 = some { op with run := some 2 } := by decide +kernel
def failed (i : Instr) (s : State) : Option (Nat × Byte) := shows (exec i s) fun t => (t.ops.length, (t.P 3).excCause)
theorem test_parity : failed (.xmulDone 5 true []) (runs .xmul .mxa) = some (0, 0x0A) ∧ failed (.mvmulDone 5 true []) (runs .mvmul .mvp) = some (0, 0x0A) ∧
    failed (.topkDone 5 true []) (runs .topk .ssu) = some (0, 0x0A) ∧ failed (.lscanDone 5 true []) (runs .lscan .lse) = some (0, 0x0A) := by decide +kernel
theorem test_parity' : failed (.gathDone 5 true []) (runs .gath .gse) = some (0, 0x0A) ∧ failed (.scatDone 5 true []) (runs .scat .gse) = some (0, 0x0A) ∧
    failed (.sampDone 5 true []) (runs .samp .smu) = some (0, 0x0A) ∧ failed (.ttokDone 5 true []) (runs .ttok .txu) = some (0, 0x0A) ∧ failed (.compactDone 5 true []) (runs .kvcmp .gse) = some (0, 0x0A) := by decide +kernel
theorem test_done_other : failed (.topkDone 5 false []) (runs .xmul .mxa) = some (1, 0) ∧ failed (.xmulDone 5 false []) (runs .topk .ssu) = some (1, 0) := by
  decide +kernel
/-- An HRD's 512 bytes arrive; an HWR's have left. -/
def dma (mn : EngOp) : State := { eng 0 0 [{ op with mn := mn, k := .hdma, run := some 2 }] with xfers := [{ xfer with op := some 5, chan := 8 }] }
theorem witness_dma : (dma .hrd).opIssued 5 = true ∧ tBytes (desc 4 128) = 512 ∧ (dma .hrd).op? 5 ≠ none ∧ (dma .mconv).opIssued 5 = true ∧
    (∀ x ∈ (dma .mconv).xfers, x.op = some 5 → x.write = false) ∧ { dma .hrd with xfers := [{ xfer with op := some 5, st := .walking }] }.opIssued 5 = false := by
  decide +kernel
theorem test_hrd : shows (exec (.hrdDone 5 (.data (0x77 :: List.replicate 511 0)) []) (dma .hrd)) (fun t => (t.ops.length, (t.P 3).mem)) = some (0, [(0, 0x77)]) ∧
    shows (exec (.hrdDone 5 (.data []) []) (dma .hrd)) (fun _ => ()) = none := by decide +kernel
/-- A TDTK command for another operation changes nothing. -/
theorem test_tdtk_other : failed (.tdtkDone 5 false []) (runs .ttok .txu) = some (1, 0) := by decide +kernel
theorem test_hwr : shows (exec (.hwrDone 5 []) (dma .hwr)) (fun t => (t.ops.length, t.xfers.length)) = some (0, 0) := by decide +kernel
theorem test_mconv : failed (.mconvDone 5 true .failed .failed []) (runs .ttok .txu) = some (1, 0) := by decide +kernel
/-- TOPK of 06's order: the two largest of four, equal keys by index. -/
theorem test_topk : (selectRow 2 false [3, 9, 9, 1]).1 = [1, 2] ∧ (selectRow 2 true [3, 9, 9, 1]).1 = [3, 0] ∧ (selectRow 9 false [5]).1 = [0] := by decide +kernel
/-- The accumulator's bounds, and a sum that leaves them moves its exponent on by one. -/
theorem witness_acc : -(2 ^ 23) ≤ (8388607 : Int) ∧ (8388607 : Int) < 2 ^ 23 ∧ (127 : Int) ≤ 127 ∧ (1 : Int).natAbs < 2 ^ 64 := by decide
theorem test_acc : (({ a := 8388607, f := 0, sat := false } : Acc).add 1 0) = { a := 4194304, f := 1, sat := false } ∧
    (({ a := 5, f := 0, sat := false } : Acc).add 6 0) = { a := 11, f := 0, sat := false } := by decide +kernel

/-! ## Host registers, doorbells, rings -/

def vf3 : Fn := .vf 0 3

/-- Partition 3 with its job ring 0 and completion ring 0 enabled and configured. -/
def rings : State :=
  part.modP 3 fun q => { q with
    jr := q.jr.set 0 { JRing.reset with en := true, size := 1 }
    cr := q.cr.set 0 { PRing.reset with en := true, size := 1, phase := true }
    sr := q.sr.set 15 { PRing.reset with en := true, size := 6, phase := true }
    er := { ErrRing.reset with en := true, phase := true } }

theorem witness_reach : rings.fnAlive vf3 = true ∧ rings.reach vf3 3 = true ∧ rings.reach vf3 4 = false ∧ rings.reach (.vf 1 3) 3 = false ∧
    rings.fnAlive (.vf 1 3) = true ∧ State.reset.fnAlive vf3 = false ∧ rings.owner (.pf 0) = true ∧ rings.owner (.pf 1) = false ∧
    rings.ioOf 3 = some 0 ∧ rings.ioOf 4 = none ∧ rings.up = true ∧ rings.reach (.pf 0) 15 = true := by decide +kernel
theorem witness_access : aligned 0x1FFFFFC 4 = true ∧ aligned 0x1FFFFF8 8 = true ∧ aligned 2 4 = false ∧ aligned 4 8 = false ∧ aligned 0 2 = false ∧
    (ctrAt 0x2160).isNone = true ∧ rings.ioOf 3 ≠ some 1 ∧ (0xFFFFF : BitVec 25).toNat < 0x100000 := by decide +kernel
/-- An unaligned read reads zero and leaves a record, SEQ 1; a read of an RC counter returns and clears it. -/
theorem test_access : shows (exec (.rcRegisterRead vf3 2 4 .bar0) { rings with readData := 5 }) (fun t => (t.readData, (t.P 3).er.nextSeq)) = some (0, 2) := by decide +kernel
theorem test_wait_limit : shows (exec (.registerWrite vf3 0x4000 4 77 .bar0) rings) (fun t => ((t.P 3).waitLimit, (t.P 4).waitLimit)) = some (77, 0x001E8480) ∧
    shows (exec (.rcRegisterRead vf3 0x4000 4 .bar0) rings) (fun t => t.readData) = some 0x001E8480 := by decide +kernel
/-- A read of the low half latches the high half, which the next read of it gives. -/
def clock (v : W64) (l : Option W32) : State := { up with clk := { up.clk with gt := v, latch := l } }
theorem witness_gt : (clock 5 (some 6)).owner (.pf 0) = true ∧ (clock 5 (some 6)).clk.latch = some 6 ∧ (clock 5 none).clk.latch = none := by decide +kernel
theorem test_gt_now : shows (exec (.gtNowRead (.pf 0) .low) (clock 0x500000006 none)) (fun t => (t.readData, t.clk.latch)) = some (6, some 5) ∧
    shows (exec (.gtNowRead (.pf 0) .high) (clock 0x900000006 (some 5))) (fun t => (t.readData, t.clk.latch)) = some (5, none) := by decide +kernel

theorem witness_doorbell : (rings.P 3).jr[0].en = true ∧ (rings.P 3).jr[7].en = false ∧ (rings.P 3).cr[0].en = true ∧ (rings.P 3).sr[15].en = true ∧
    rings.ioOf 3 = some 0 ∧ (0 : Fin 2) ≠ 1 := by decide +kernel
/-- SIZE 1 is 128 slots: the tail 130 is slot 2; a doorbell of a ring that is not enabled, or through the unbound VF, is counted. -/
theorem test_tail_db : shows (exec (.jrTailDb vf3 0 130) rings) (fun t => (t.P 3).jr[0].tail) = some 2 ∧
    shows (exec (.jrTailDb vf3 7 130) rings) (fun t => (t.P 3).cnt[Ctr.hlDbDrop.ix]) = some 1 ∧
    shows (exec (.jrTailDb (.vf 1 3) 0 130) rings) (fun t => ((t.P 3).cnt[Ctr.hlDbDrop.ix], (t.P 3).jr[0].tail)) = some (1, 0) := by decide +kernel
theorem test_head_db : shows (exec (.crHeadDb vf3 0 127) rings) (fun t => (t.P 3).cr[0].head) = some 127 ∧
    shows (exec (.srHeadDb vf3 15 4095) rings) (fun t => (t.P 3).sr[15].head) = some 4095 ∧
    shows (exec (.erHeadDb vf3 256) rings) (fun t => (t.P 3).er.head) = some 0 := by decide +kernel
theorem test_ger_head : shows (exec (.gerHeadDb (.pf 0) 1023) rings) (fun t => t.err.ger.head) = some 1023 := by decide +kernel
theorem test_ring_enable : shows (exec (.ringEnable vf3 3 (RingRef.jr 7) 6) rings) (fun t => ((t.P 3).jr[7].en, (t.P 3).jr[7].size)) = some (true, 6) ∧
    shows (exec (.ringEnable vf3 3 (.cr 7) 0) rings) (fun t => ((t.P 3).cr[7].en, (t.P 3).cr[7].phase)) = some (true, true) := by decide +kernel
theorem witness_ring_disable : (rings.P 3).cr[0].resv = 0 ∧ (rings.P 3).cr[0].outq = [] ∧ (rings.P 3).er.waitq = [] ∧ rings.xfers = [] ∧
    (rings.P 3).er.en = true ∧ (rings.P 3).sr[15].outq = [] ∧ up.err.ger.en = false ∧ (part.P 3).er.en = false := by decide +kernel
theorem test_ring_disable : shows (exec (.ringDisable vf3 3 (.cr 0)) rings) (fun t => (t.P 3).cr[0].en) = some false ∧
    shows (exec (.ringDisable vf3 3 (.cr 0)) (rings.modP 3 fun q => q.modCr 0 fun c => { c with resv := 2 }))
      (fun t => ((t.P 3).cr[0].en, (t.P 3).cr[0].clearing)) = some (true, true) := by decide +kernel
theorem test_er_disable : shows (exec (.errorRingDisable vf3 (some 3)) rings) (fun t => (t.P 3).er.en) = some false := by decide +kernel

/-! ## Host links -/

/-- IO0 out of L0 since time 5, at the time given. -/
def lost (gt : W64) : State :=
  let s := up.modIo 0 fun d => { d with link := false, downAt := some 5 }
  { s with clk := { s.clk with gt := gt } }
theorem witness_link : up.io[0].link = true ∧ (lost 0).io[0].downAt = some 5 ∧ (lost 0).io[0].link = false ∧ (lost 100000004).clk.gt.toNat < 5 + 100000000 ∧
    5 + 100000000 ≤ (lost 100000005).clk.gt.toNat ∧ (∀ p, (lost 0).ioOf p ≠ some 0) ∧ up.io[1].inReset = false ∧ up.fuses.i2 = true ∧
    up.pwr.rails = true ∧ up.fnHere vf3 = true := by decide +kernel
theorem test_link_down : shows (exec (.hostLinkDown 0) (clock 5 none)) (fun t => (t.io[0].link, t.io[0].downAt)) = some (false, some 5) := by decide +kernel
theorem test_link_loss : shows (exec (.linkLossTimeout 0) (lost 100000005)) (fun t => t.io[0].downAt) = some none ∧
    shows (exec (.linkLossTimeout 0) (lost 100000004)) (fun t => t.io[0].downAt) = some (some 5) := by decide +kernel
theorem test_link_up : shows (exec (.hostLinkUp 0 2 5) (lost 9)) (fun t => (t.io[0].link, t.io[0].width, t.io[0].downAt)) = some (true, 2, none) := by decide +kernel
theorem test_perst1 : shows (exec .perst1Assert up) (fun t => (t.io[1].inReset, t.io[0].inReset)) = some (true, false) ∧
    shows (exec .perst1Deassert { up with pwr := { up.pwr with perst1 := true } }) (fun t => (t.pwr.perst1, t.io[1].inReset)) = some (false, false) := by
  decide +kernel
theorem test_cfg_write : shows (exec (.pcieConfigWrite (.pf 1) (.sriovEnable false)) up) (fun t => t.io[1].sriov) = some false ∧
    shows (exec (.pcieConfigWrite vf3 (.power true)) rings) (fun t => t.fnAlive vf3) = some false := by decide +kernel
theorem test_flr : shows (exec (.functionLevelReset (.pf 1)) up) (fun t => (t.io[1].sriov, t.io[0].sriov)) = some (false, true) := by decide +kernel

/-! ## Fetching, admission, jobs -/

/-- A descriptor of class 1 with WORK_EST 100, TAG 9, and the deadline and VERSION given. -/
def jobDesc (dl ver : Nat) : BitVec 1024 := BitVec.ofNat 1024 (9 + ver * 2 ^ 64 + 1 * 2 ^ 72 + 100 * 2 ^ 96 + dl * 2 ^ 128)
/-- The partition with one entry point in its image and two slots of class 1. -/
def ready : State :=
  rings.modP 3 fun q => { q with
    imgB := { Image.reset with valid := true, textEnd := 64, entries := [{ pc := 16, k := 2, t0 := 0, t1 := 0, kv := 0, buf := 0 }] }
    cfgB := q.cfgB ||| BitVec.ofNat 4096 (2 * 2 ^ 80) }
/-- Two descriptors wait, the batch wraps at slot 127, and their read is issued. -/
def waiting : State := ready.modP 3 fun q => q.modJr 0 fun j => { j with head := 127, tail := 1 }
def arrived : State := { waiting with xfers := [{ xfer with chan := 5, job := none, slot := 127, len := 256, done := 256 }] }
theorem witness_fetch : waiting.fetching 3 0 = true ∧ waiting.batch 3 0 = [] ∧ waiting.io[waiting.dmaIo 3 true].link = true ∧
    (waiting.P 3).jr[0].waiting = 2 ∧ (ready.P 3).jr[0].waiting = 0 ∧ (waiting.P 3).cr[0].spare / 2 = 63 := by decide +kernel
theorem test_fetch : shows (exec (.fetchBatch 3 0) waiting) (fun t => (t.xfers.map fun x => (x.slot, x.len), (t.P 3).cr[0].resv)) = some ([(127, 128), (0, 128)], 4) ∧
    shows (exec (.fetchBatch 3 0) ready) (fun t => t.xfers.length) = some 0 := by decide +kernel
theorem witness_arrival : (arrived.batch 3 0).length = 1 ∧ arrived.running = true ∧ 128 * (0 + 1) ≤ (256 : Nat) ∧ 128 * (0 + 1) < (256 : Nat) := by decide +kernel
theorem test_arrival : (arrived.decideJob 3 0 127 0 (jobDesc 0 1)).jobs.map (·.slotHeld) = [true] := by decide +kernel
/-- 04 Table 4.2: FENCED with its two details, a version that is not 1, no slots of its class, ADMIT, DEFER, and a deadline that cannot be met. -/
def dec_ (s : State) (d : BitVec 1024) : Nat × Nat × Nat := let x := s.decision { job with desc := d, k := 2, clusters := [] }; (x.code, x.detail, x.off)
theorem test_decision : dec_ (ready.modP 3 fun q => { q with fenced := true }) (jobDesc 0 1) = (5, 1, 0) ∧
    dec_ (ready.modP 3 fun q => { q with fencing := true }) (jobDesc 0 1) = (5, 2, 0) ∧ dec_ ready (jobDesc 0 2) = (6, 2, 8) ∧
    dec_ rings (jobDesc 0 1) = (6, 3, 10) := by decide +kernel
theorem test_admit : dec_ ready (jobDesc 0 1) = (0, 0, 0) ∧ dec_ ready (jobDesc 749 1) = (4, 2, 0) ∧
    dec_ (ready.modP 3 fun q => { q with cfgB := setB }) (jobDesc 0 1) = (2, 1, 0) := by decide +kernel
theorem witness_decision : malformed (ready.P 3) (jobDesc 0 1) = none ∧ malformed (ready.P 3) (jobDesc 0 2) = some (8, 2) ∧ csSlots (part.P 3).act 1 = 0 := by
  decide +kernel

/-- An admitted job of class 1 and K 2, a deferred one, and a running one whose conductor has ended. -/
def admitted : State := { ready with jobs := [{ job with ph := .admitted, desc := jobDesc 0 1, k := 2, clusters := [] }] }
def deferred : State := { ready with jobs := [{ job with ph := .deferred, desc := jobDesc 0 1, k := 2, clusters := [], slotHeld := false }] }
def argWait : State :=
  { admitted with
    jobs := [{ job with ph := .admitted, desc := jobDesc 0 1 ||| BitVec.ofNat 1024 (64 * 2 ^ 256), argReady := false }]
    xfers := [{ xfer with chan := 6, len := 64 }] }
theorem witness_start_job : admitted.nextStart 3 = some { job with ph := .admitted, desc := jobDesc 0 1, k := 2, clusters := [] } ∧
    admitted.startOn { job with ph := .admitted, desc := jobDesc 0 1, k := 2, clusters := [] } = [0, 1] ∧ admitted.running = true ∧
    ((ready.P 3).img true).bad = false ∧ (((ready.P 3).img true).entries[dEntry (jobDesc 0 1)]?).isSome = true := by decide +kernel
theorem test_job_start : shows (exec (.jobStart 3 []) admitted)
      (fun t => (t.cl[(1 : Fin 32)].rank, t.cl[(1 : Fin 32)].pc, t.cl[(1 : Fin 32)].s[9], t.cl[(1 : Fin 32)].s[12], t.cl[(2 : Fin 32)].job)) = some (1, 16, 9, 2, none) := by
  decide +kernel
theorem witness_promote : deferred.slotsUsed 3 1 < csSlots (deferred.P 3).act 1 ∧ (firstBy jobBefore (deferred.jobsIn 3 1 Job.waits)).isSome = true ∧
    deferred.running = true ∧ (argWait.liveJob 7).isSome = true ∧ (argWait.xfers.find? fun x => x.chan == 6 && x.job == some 7).isSome = true ∧
    (List.replicate 64 (0 : Byte)).length = 64 := by decide +kernel
theorem test_promote : shows (exec (.deferPromote 3 1) deferred) (fun t => t.jobs.map fun j => (j.ph, j.slotHeld)) = some [(.admitted, true)] := by decide +kernel
theorem test_arg : shows (exec (.argBlockFetched 7 (.data (0x5A :: List.replicate 63 0))) argWait) (fun t => t.jobs.map fun j => (j.argReady, j.arg))
      = some [(true, [(0, 0x5A)])] ∧ shows (exec (.argBlockFetched 7 (.data [])) argWait) (fun _ => ()) = none := by decide +kernel

/-- The running job with a deadline of 100, at a time. Its completion ring is not enabled, so that its record is dropped and the job is gone at
once. -/
def due (gt : W64) : State := { run id with jobs := [{ job with desc := jobDesc 100 1 }], clk := { (run id).clk with gt := gt } }
/-- Its conductor has executed END, and nothing is outstanding. -/
def ended : State := (run id).modC 2 fun k => { k with ended := true }
theorem witness_end_job : (due 101).liveJob 7 = some { job with desc := jobDesc 100 1 } ∧ dDeadline (jobDesc 100 1) = 100 ∧
    (∀ c ∈ job.clusters, ended.cl[c].job = some 7 ∧ ended.cl[c].ended = true) ∧ ended.ops = [] ∧ (run id).cl[(2 : Fin 32)].ended = false := by decide +kernel
theorem test_deadline : shows (exec (.deadlineExpiry 7) (due 101)) (fun t => (t.jobs.map (·.ph), t.cl[(2 : Fin 32)].job, (t.P 3).cnt[Ctr.dlMiss.ix])) = some ([], none, 1) ∧
    shows (exec (.deadlineExpiry 7) (due 99)) (fun t => t.jobs.map (·.ph)) = some [.running] ∧
    shows (exec (.deadlineExpiry 7) (due 100)) (fun t => t.jobs.map (·.ph)) = some [] := by decide +kernel
theorem test_final : shows (exec (.jobFinalCompletion 7) ended) (fun t => (t.jobs.map (·.ph), t.cl[(2 : Fin 32)].job)) = some ([], none) ∧
    shows (exec (.jobFinalCompletion 7) (run id)) (fun t => t.jobs.map (·.ph)) = some [.running] := by decide +kernel
/-- A cancel of ring 0 slot 0; of a slot that holds no job. -/
theorem test_cancel : shows (exec (.cancelDb vf3 0) (run id)) (fun t => t.jobs.map (·.ph)) = some [] ∧
    shows (exec (.cancelDb vf3 1) (run id)) (fun t => (t.jobs.map (·.ph), (t.P 3).cnt[Ctr.hlDbDrop.ix])) = some ([.running], 1) := by decide +kernel

/-! ## Partitions, configuration sets, the global set -/

/-- Partition 3 with a change of its other set; and with its swap in a state. -/
def swapIn (st : SwapSt) : State := part.modP 3 fun q => { q with swap := { q.swap with st := st } }
def fencedP (fencing fenced : Bool) : State := part.modP 3 fun q => { q with fencing := fencing, fenced := fenced }
theorem witness_windows : (part.P 3).activeValid = true ∧ (part.P 3).swap.active = true ∧ (part.P 3).swap.busy = false ∧ part.bound 3 false = [] ∧
    ((swapIn .pending).P 3).swap.busy = true ∧ (508 : BitVec 9).toNat % 4 = 0 ∧ (124 : BitVec 9).toNat < 128 ∧ part.reach (.pf 0) 3 = true ∧
    part.reach (.vf 0 4) 3 = false := by decide +kernel
/-- The last word of CFG-A; the active set CFG-B; the grant section through a VF. -/
theorem test_window : shows (exec (.cfgWindowWrite vf3 3 false 508 4 0x80000001) part) (fun t => fld (t.P 3).cfgA 4064 32) = some 0x80000001 ∧
    shows (exec (.cfgWindowWrite vf3 3 true 508 4 5) part) (fun t => fld (t.P 3).cfgB 4064 32) = some 0 ∧
    shows (exec (.cfgWindowWrite vf3 3 false 124 4 5) part) (fun t => fld (t.P 3).cfgA 992 32) = some 0 := by decide +kernel
theorem test_window' : shows (exec (.cfgWindowWrite (.pf 0) 3 false 124 4 5) part) (fun t => fld (t.P 3).cfgA 992 32) = some 5 ∧
    shows (exec (.cfgWindowWrite (.pf 0) 3 false 124 4 5) (swapIn .pending)) (fun t => (fld (t.P 3).cfgA 992 32, (t.P 3).swap.wrDrop)) = some (0, true) := by
  decide +kernel
theorem witness_fence : ((fencedP true false).P 3).fencing = true ∧ ((fencedP false true).P 3).fenced = true ∧ (part.P 3).fencing = false ∧
    (fencedP false true).erPending (some 3) = false ∧ (fencedP false true).gerPendingOf 3 = false := by decide +kernel
theorem test_fence : shows (exec (.fence (.pf 0) 3) (run id)) (fun t => ((t.P 3).fencing, (t.P 3).fenceCause, t.cl[(2 : Fin 32)].job)) = some (true, 1, none) ∧
    shows (exec (.fence (.pf 0) 3) (fencedP false true)) (fun t => (t.P 3).fencing) = some false := by decide +kernel
theorem test_unfence : shows (exec (.unfence (.pf 0) 3) (fencedP false true)) (fun t => (t.P 3).fenced) = some false ∧
    shows (exec (.unfence (.pf 0) 3) (fencedP true false)) (fun t => ((t.P 3).fencing, (t.P 3).unfenceDrop)) = some (true, true) := by decide +kernel
theorem test_reset_ptn : shows (exec (.partitionReset (.pf 0) 3) (run id)) (fun t => ((t.P 3).resetting, (t.P 3).fenceCause, t.cl[(2 : Fin 32)].job)) = some (true, 5, none) := by
  decide +kernel

theorem witness_swap : ((swapIn .pending).P 3).swap.busy = true ∧ ((swapIn .validating).P 3).swap.st = .validating ∧ (part.P 3).swap.busy = false ∧
    ((swapIn .pending).P 3).swap.st = .pending ∧ ((swapIn .validating).P 3).cset false = 0 ∧ check1 0 = some ⟨1, 1, 0⟩ ∧
    (check2 Fuses.reset (BitVec.ofNat 4096 (2 ^ 1216))).isNone = true ∧ (check3 (BitVec.ofNat 4096 (2 ^ 2048))) = some ⟨3, 264, 0⟩ := by decide +kernel
theorem test_swap : shows (exec (.swap (.pf 0) 3) part) (fun t => (t.P 3).swap.st) = some .validating ∧
    shows (exec (.swap (.pf 0) 3) (swapIn .pending)) (fun t => ((t.P 3).swap.st, (t.P 3).swap.collapsed)) = some (.pending, true) ∧
    shows (exec (.swap (.pf 0) 3) (fencedP false true)) (fun t => (t.P 3).swap.st) = some .waitFence := by decide +kernel
theorem test_swap_cancel : shows (exec (.swapCancel (.pf 0) 3) (swapIn .pending)) (fun t => ((t.P 3).swap.st, (t.P 3).swap.reason)) = some (.refused, 8) ∧
    shows (exec (.swapCancel (.pf 0) 3) part) (fun t => (t.P 3).swap.st) = some .idle := by decide +kernel
/-- An empty set fails the first check, RESERVED, at a byte whose value may not be 0. -/
theorem test_swap_validation : shows (exec (.swapValidationDone 3 .failed) (swapIn .validating)) (fun t => ((t.P 3).swap.st, (t.P 3).swap.reason)) = some (.refused, 1) := by
  decide +kernel
theorem test_swap_effect : shows (exec (.swapTakeEffect 3) (swapIn .pending)) (fun t => ((t.P 3).swap.active, (t.P 3).swap.st, (t.P 3).cnt[Ctr.swapCnt.ix])) = some (false, .done, 1) := by
  decide +kernel

def gIn (st : GSwapSt) : State := { up with gcr := { up.gcr with st := st } }
theorem witness_gswap : up.fnAlive (.pf 0) = true ∧ (gIn .checking).gcr.st = .checking ∧ (gIn .pending).gcr.st = .pending ∧ (gIn .pending).gBusy = false ∧
    up.gcr.st ≠ .checking := by decide +kernel
theorem test_gswap : shows (exec (.gswap (.pf 0)) up) (fun t => t.gcr.st) = some .checking ∧
    shows (exec (.gswap (.pf 0)) (gIn .checking)) (fun t => t.gcr.collapsed) = some true ∧
    shows (exec (.gswap (.pf 1)) up) (fun t => t.gcr.st) = some .idle := by decide +kernel
theorem test_gswap_check : shows (exec .gswapCheckDone (gIn .checking)) (fun t => t.gcr.st) = some .refused := by decide +kernel
theorem test_gswap_effect : shows (exec .gswapTakeEffect { gIn .pending with pwr := { up.pwr with stage := 5 } }) (fun t => (t.gcr.st, t.gcr.valid, t.pwr.stage))
      = some (.done, true, 6) := by decide +kernel

/-! ## Clocks, global time, errors -/

theorem witness_clock : (∀ p, (up.P p).activeValid = false) ∧ up.clk.st = .free ∧ (part.P 3).activeValid = true ∧
    ({ up with clk := { up.clk with target := 16 } } : State).clk.cur ≠ 16 ∧ up.clk.cur = up.clk.target ∧ up.pwr.rails = true ∧ State.reset.pwr.rails = false := by
  decide +kernel
theorem test_gt_set : shows (exec (.gtSet (.pf 0) 99) up) (fun t => t.clk.gt) = some 99 ∧
    shows (exec (.gtSet (.pf 0) 99) part) (fun t => (t.clk.gt, t.clk.setDrop)) = some (0, true) := by decide +kernel
theorem test_cclk : shows (exec .cclkStep { up with clk := { up.clk with target := 16 } }) (fun t => (t.clk.cur, t.clk.walking)) = some (11, true) ∧
    shows (exec .cclkStep { up with clk := { up.clk with target := 9 } }) (fun t => (t.clk.cur, t.clk.walking)) = some (9, false) := by decide +kernel
/-- On the ring with TIME_SYNC, port 0 up and joined; the upstream port is port 0. -/
def onTime (st : GtSt) (gt : W64) : State :=
  { up with
    gcr := { up.gcr with valid := true, gB := BitVec.ofNat 2048 (1 * 2 ^ 520 + 3 * 2 ^ 32 + 1 * 2 ^ 96 + 1 * 2 ^ 528), active := true }
    ringl := { up.ringl with st := .joined }
    clk := { up.clk with st := st, gt := gt, lockRun := 15 }
    dlk := { up.dlk with
      sw := up.dlk.sw.set 0 { Switch.reset with drive := true, closed := false, joined := true }
      port := up.dlk.port.set 0 { Port.reset with st := .up } } }
/-- The last exchange was at time 0 of the device's own count of nanoseconds. -/
def lastExch (ns : Nat) : State := { onTime .locked 0 with clk := { (onTime .locked 0).clk with ns := ns } }
theorem test_holdover : shows (exec .holdoverTimeout (lastExch 1000000)) (fun t => t.clk.st) = some .holdover ∧
    shows (exec .holdoverTimeout (lastExch 999999)) (fun t => t.clk.st) = some .locked := by decide +kernel
theorem test_pll : shows (exec (.pllLockRegained 1) { up with clk := { up.clk with lock := 0x1FD } }) (fun t => t.clk.lock) = some 0x1FF := by
  decide +kernel
theorem test_fabric : shows (exec (.fabricError 3 true) up) (fun t => (t.err.firstS4.isSome, t.err.logTotal)) = some (false, 1) := by decide +kernel
/-- A parent with SEQ 5 in both rings. -/
def handling : State :=
  let h : Hand := { unit := 0x40, parent := 5, nested := 2 }
  { part.modP 3 (fun q => { q with er := { q.er with hand := [h] } }) with err := { part.err with ger := { part.err.ger with hand := [h] } } }
theorem witness_ack : (∃ h ∈ (handling.P 3).er.hand, h.parent = 5) ∧ (∀ h ∈ (handling.P 3).er.hand, h.parent ≠ 6) ∧
    (∃ h ∈ handling.err.ger.hand, h.parent = 5) ∧ handling.reach vf3 3 = true := by decide +kernel
theorem test_ack : shows (exec (.erAck vf3 3 5) handling) (fun t => ((t.P 3).er.hand, (t.P 3).er.ackDrop)) = some ([], false) ∧
    shows (exec (.erAck vf3 3 6) handling) (fun t => ((t.P 3).er.hand.length, (t.P 3).er.ackDrop)) = some (1, true) := by decide +kernel
theorem test_ger_ack : shows (exec (.gerAck (.pf 0) 5) handling) (fun t => t.err.ger.hand) = some [] ∧
    shows (exec (.gerAck (.pf 0) 6) handling) (fun t => (t.err.ger.hand.length, t.err.ger.ackDrop)) = some (1, true) := by decide +kernel
theorem witness_time : (onTime .locked 0).disciplined = true ∧ (onTime .locked 0).upstream = some 0 ∧ (onTime .locked 0).dlk.sw[pairOf 0].joined = true ∧
    (onTime .locked 0).dlk.port[(0 : Fin 4)].st = .up ∧ up.disciplined = false ∧ (onTime .locked 0).upstream ≠ some 1 ∧ (onTime .acquire 0).clk.st ≠ .locked ∧
    up.clk.st = .free ∧ 1000000 < ((2000000 : BitVec 64) + BitVec.ofNat 64 0 - (onTime .locked 0).clk.gt).toInt.natAbs := by decide +kernel
/-- An exchange puts one VC0 flit out; a neighbour 10 ns ahead keeps the lock with the offset slewed; one 30 ns ahead loses it. -/
theorem test_exchange : shows (exec (.timeExchange 0) (onTime .locked 0)) (fun t => (t.free, t.dlk.port[(0 : Fin 4)].outq.length + t.dlk.port[(0 : Fin 4)].retry.length))
    = some (1, 1) := by decide +kernel
theorem test_time_msg : shows (exec (.timeMsg 0 10 0) (onTime .acquire 0)) (fun t => (t.clk.st, t.clk.offset, t.clk.slew)) = some (.locked, 10, 10) ∧
    shows (exec (.timeMsg 0 30 0) (onTime .locked 0)) (fun t => (t.clk.st, t.clk.gt)) = some (.acquire, 0) := by decide +kernel

/-! ## Tensors and translation -/

/-- The tensor in a move, its destination in T1 granule 0 held by `v`, with transfer `x` of the channel under way. -/
def moving (m : Mv) (chan : Nat) (v : Option Nat) : State :=
  let t : Tensor := { tensor with moving := some m, dest := [((v, (true, 0)), 2)], dirty := true }
  { (run id).modP 3 (fun q => { q with dir := [t] }) with
    xfers := [{ xfer with chan := chan, base := 0, job := none }] }
theorem witness_moves : (((moving .load 0 none).P 3).tensor 0).isSome = true ∧ (((moving .load 0 none).P 3).tensor 0).bind (·.moving) = some .load ∧
    ((moving .load 0 none).xfers.find? fun x => x.ptn == 3 && x.chan == 0 && x.base == 0).isSome = true ∧
    (((moving .load 0 none).P 3).tensor 0).map (·.dest.free) = some true ∧ (((moving (.move true) 0 (some 4096)).P 3).tensor 0).map (·.dest.free) = some false ∧
    ((moving .flush 1 none).xfers.find? fun x => x.ptn == 3 && x.chan == 1 && x.base == 0).map (fun x => (x.st, x.bad1)) = some (.issued, none) ∧
    (moving .load 0 none).running = true ∧ (List.replicate 8192 (7 : Byte)).length = tensor.size * 4096 := by decide +kernel
def illFormed (o : Out) : Bool := match o with | .refused .illFormed => true | _ => false
theorem test_move : shows (exec (.moveDone 3 0 []) (moving (.move true) 0 none)) (fun t => ((t.P 3).tensor 0).map fun x => (x.tier, x.dirty, x.frames.length))
      = some (some (1, true, 1)) ∧
    shows (exec (.moveDone 3 0 []) (moving (.move true) 0 (some 4096))) (fun t => ((t.P 3).tensor 0).map (·.tier)) = some (some 0) := by decide +kernel
theorem test_load_length : illFormed (exec (.mgeLoadDone 3 0 (.data [1]) []) (moving .load 0 none)) = true := by decide +kernel
theorem test_writeback : shows (exec (.writebackDone 3 0 []) (moving (.writeback false) 1 none)) (fun t => ((t.P 3).cnt[Ctr.wb.ix], ((t.P 3).tensor 0).map fun x => (x.tier, x.dirty)))
      = some (1, some (2, false)) ∧
    shows (exec (.writebackDone 3 0 []) (moving .flush 1 none)) (fun t => ((t.P 3).tensor 0).map fun x => (x.tier, x.dirty)) = some (some (0, false)) := by decide +kernel

/-- A transfer that waits for the walk of page 5. -/
def walking (link : Bool) : State :=
  { up with io := up.io.set 0 { up.io[0] with link := link }, xfers := [{ xfer with st := .walking, job := none }] }
/-- The set of these states has its root at 0: page 5 is entry 5 of the last table. -/
def tables (leaf : W64) : List (W64 × W64) := [(0, 0x1001), (0x1000, 0x2001), (0x2000, 0x3001), (0x3028, leaf)]
theorem witness_walk : ((walking true).waiters 3 true 5).length = 1 ∧ (walking true).io[(walking true).dmaIo 3 true].link = true ∧ (walking false).io[0].link = false ∧
    (walking true).waiters 3 true 6 = [] ∧ csRoot (((walking true).P 3).cset true) = 0 ∧ walk 5 3 0 [(0, 1)] = .short ∧ walk 5 3 0 [(0, 0)] = .fault 1 ∧
    walk 5 3 0 [(8, 0)] = .short ∧ walk 5 3 0 (tables 0x900F) = .leaf 5 1 0x9000 true true ∧
    walk 5 3 0 [(0, 0x1001), (0x1000, 0x2001), (0x2000, 0x20000F)] = .leaf 0 512 0x200000 true true := by decide +kernel
/-- A leaf with C64 for page 5 maps pages 0 to 15; an entry with V 0 leaves a fault. -/
theorem test_walk : shows (exec (.pageWalkDone 3 true 5 (.entries (tables 0x1900F))) (walking true)) (fun t => t.io[0].tlb.map fun e => (e.page, e.pages)) = some [(5, 1)] ∧
    walk 5 3 0 (tables 0x1901F) = .leaf 0 16 0x14000 true true := by decide +kernel
theorem test_walk_fault : shows (exec (.pageWalkDone 3 true 5 (.entries [(0, 0)])) (walking true)) (fun t => ((t.P 3).cnt[Ctr.fltCnt.ix], (t.P 3).nextFid)) = some (1, 2) := by
  decide +kernel

/-- Fault 1 of the partition, recorded at time 5. -/
def heldAt (gt : W64) : State := { up with xfers := [{ xfer with st := .held 1 5, job := none }], clk := { up.clk with gt := gt }
                                           ptn := part.ptn }
theorem witness_fault : ((heldAt 0).heldX 3 1).isSome = true ∧ ((heldAt 0).heldX 3 1).map (·.st) = some (.held 1 5) ∧ (heldAt 0).fnAlive (.vf 0 3) = true ∧
    (heldAt 0).ioOf 3 = some 0 ∧ (heldAt 1000000004).clk.gt.toNat < 5 + 1000000000 ∧ 5 + 1000000000 ≤ (heldAt 1000000005).clk.gt.toNat ∧
    (0x10001 : W32).getLsbD 16 = true ∧ (1 : W32).getLsbD 16 = false := by decide +kernel
theorem test_fault : shows (exec (.faultHoldExpiry 3 1) (heldAt 1000000005)) (fun t => ((t.P 3).cnt[Ctr.fltFail.ix], (t.heldX 3 1).isSome)) = some (1, false) ∧
    shows (exec (.faultHoldExpiry 3 1) (heldAt 1000000004)) (fun t => (t.heldX 3 1).isSome) = some true := by decide +kernel
theorem test_resume : shows (exec (.faultResumeDb (.vf 0 3) 1) (heldAt 6)) (fun t => ((t.P 3).cnt[Ctr.fltFail.ix], (t.heldX 3 1).isSome)) = some (0, false) ∧
    shows (exec (.faultResumeDb (.vf 0 3) 0x10001) (heldAt 6)) (fun t => (t.P 3).cnt[Ctr.fltFail.ix]) = some 1 := by decide +kernel

/-- Entries of pages 5 and 9 in the IOTLB, and an invalidation of `n` pages from page 5. -/
def cached (n : W32) (busy : Bool) (wait : List Nat) : State :=
  let e : Tlb := { ptn := 3, cfg := true, page := 5, pages := 1, pa := 0, r := true, w := true }
  { part.modP 3 (fun q => { q with invAddr := 0x5000, invLen := n, invBusy := busy, invWait := wait }) with
    io := part.io.set 0 { part.io[0] with tlb := [e, { e with page := 9 }] }
    xfers := [xfer] }
theorem witness_inv : (cached 1 false []).reach vf3 3 = true ∧ ((cached 1 true [9]).P 3).invBusy = true ∧ ((cached 1 false []).P 3).invBusy = false ∧
    ((cached 1 true [9]).x? 9).map (·.st) = some .issued ∧ ((cached 1 true [8]).x? 8).isSome = false := by decide +kernel
theorem test_inv : shows (exec (.iotlbInvRange vf3 3) (cached 4 false [])) (fun t => (t.io[0].tlb.map (·.page), (t.P 3).invBusy)) = some ([9], true) ∧
    shows (exec (.iotlbInvAll vf3 3) (cached 4 false [])) (fun t => t.io[0].tlb.map (·.page)) = some [] := by decide +kernel
theorem test_inv_done : shows (exec (.iotlbInvDone 3) (cached 1 true [9])) (fun t => (t.P 3).invBusy) = some true ∧
    shows (exec (.iotlbInvDone 3) (cached 1 true [8])) (fun t => (t.P 3).invBusy) = some false := by decide +kernel

/-- Directory arguments in partition 3, with no pin on its tensor. -/
def args (a0 : W64) (a1 : W32) (a2 : W64) (f : Tensor → Tensor) : State :=
  part.modP 3 fun q => { q with dir := [f { tensor with pins := 0 }], tdArg0 := a0, tdArg1 := a1, tdArg2 := a2 }
def tdBusy : State := part.modP 3 fun q => { q with tdBusy := true }
theorem witness_create : (tdBusy.P 3).tdBusy = true ∧ ((args 0 0 0 id).P 3).badArg = true ∧ ((args 2 1 0x80000 id).P 3).badArg = false ∧
    ((args 0x5002 1 0x80000 id).P 3).badArg = false ∧ ((args 0x5002 1 0x80000 id).P 3).newTensor.backed = true ∧
    ((args 0x5000 1 0 id).P 3).newTensor.backed = false ∧ ((args 0x5000 1 0 id).P 3).badArg = false ∧ (args 0 0 0 id).reach vf3 3 = true ∧
    csTdCap ((args 0 0 0 id).P 3).act = 8 := by decide +kernel
theorem test_create : shows (exec (.create vf3 3) (args 0x5002 1 0x80000 id)) (fun t => ((t.P 3).tdResult, (t.P 3).dir.map (·.base))) = some (0, [0, 0x5000]) ∧
    shows (exec (.create vf3 3) (args 2 1 0x80000 id)) (fun t => (t.P 3).tdResult) = some 1 ∧
    shows (exec (.create vf3 3) (args 0x5000 0 0 id)) (fun t => (t.P 3).tdResult) = some 7 := by decide +kernel
/-- The set grants no frames, so an unbacked tensor finds no room. -/
theorem test_create_unbacked : shows (exec (.create vf3 3) (args 0x5000 1 0 id)) (fun t => ((t.P 3).tdResult, (t.P 3).cnt[Ctr.noRoom.ix])) = some (4, 1) ∧
    frameTotal ((args 0x5000 1 0 id).freeList 3 ((args 0x5000 1 0 id).P 3).act 0 false) = 0 := by decide +kernel
theorem witness_td : ((args 0 0 0 id).P 3).argTensor.isSome = true ∧ ((args 0x9000 0 0 id).P 3).argTensor = none ∧
    ((args 0 0 0 fun t => { t with pins := 1 }).P 3).argTensor.map (·.pins) = some 1 ∧
    ((args 0 0 0 fun t => { t with moving := some .flush }).P 3).argTensor.bind (·.moving) = some .flush := by decide +kernel
theorem test_destroy : shows (exec (.destroy vf3 3) (args 0 0 0 id)) (fun t => ((t.P 3).tdResult, (t.P 3).dir.length)) = some (0, 0) ∧
    shows (exec (.destroy vf3 3) (args 0 0 0 fun t => { t with pins := 1 })) (fun t => ((t.P 3).tdResult, (t.P 3).dir.length)) = some (6, 1) ∧
    shows (exec (.destroy vf3 3) (args 0x9000 0 0 id)) (fun t => (t.P 3).tdResult) = some 5 := by decide +kernel
theorem test_flush : shows (exec (.flush vf3 3) (args 0 0 0 id)) (fun t => (t.P 3).tdBusy) = some false ∧
    shows (exec (.flush vf3 3) (args 0 0 0 fun t => { t with dirty := true })) (fun t => ((t.P 3).tdBusy, t.xfers.length)) = some (true, 1) := by decide +kernel
theorem test_query : shows (exec (.query vf3 3) (args 0 0 0 id)) (fun t => ((t.P 3).tdResult, fld (t.P 3).tdRes[0] 12 36)) = some (0, 0) ∧
    shows (exec (.query vf3 3) tdBusy) (fun t => (t.P 3).tdDropped) = some true := by decide +kernel

/-- Zeroing under way: tally block 1 and cluster 4. -/
def zeroing (w : ZWhy) (td : Option TdWait) (rst : Bool) : State :=
  { part.modP 3 (fun q =>
      { q with zero := [{ t0 := 0, t1 := 0, tally := 2, cl := 0x10, why := w }], fencing := true, resetting := rst, tdWait := td, tdBusy := true }) with
    tallies := [(5, 1), (1030, 7)] }
theorem witness_zero : (part.P 3).zero = [] ∧ ((zeroing .fence none false).P 3).zero ≠ [] ∧ ((zeroing .reset none true).P 3).resetting = true ∧
    ((zeroing .create (some { op := 1, base := 0 }) false).P 3).tdWait = some { op := 1, base := 0 } ∧ bit (2 : BitVec 128) (1030 / 1024) = true := by decide +kernel
theorem test_zeroed : shows (exec (.zeroingComplete 3) (zeroing .fence none false)) (fun t => ((t.P 3).fenced, t.tallies)) = some (true, [(5, 1)]) ∧
    shows (exec (.zeroingComplete 3) (zeroing .create (some { op := 1, base := 0 }) false)) (fun t => (t.P 3).tdBusy) = some false := by decide +kernel

/-! ## The KV pool, constraint sets -/

def sets (busy : Bool) (op : BitVec 2) (loaded : BitVec 256) : State :=
  part.modP 3 fun q => { q with csBusy := busy, csOp := op, csSet := 4, csLoaded := loaded }
def poolHeld : State := { part with chans := [(0, { ptn := 3, mode := 0, adapter := none, len := 1, pages := [0], step := 0, tail := []
                                                    cursor := none, exhausted := false })] }
theorem witness_kv : part.reach vf3 3 = true ∧ part.kvInUse 3 = false ∧ poolHeld.kvInUse 3 = true ∧ kvStride 64 8 ≤ 16777216 ∧
    16777216 < kvStride 4352 4095 ∧ (sets true 1 0).running = true ∧ (sets true 2 0).csNamed 3 4 = false ∧ (csCheck (sets true 1 0) 3 4).1 ≠ 0 := by decide +kernel
theorem test_kv : shows (exec (.kvPoolWrite vf3 3 0x40000) part) (fun t => ((t.P 3).kvPages, (t.P 3).kvWrDrop)) = some (0x40000, false) ∧
    shows (exec (.kvPoolWrite vf3 3 0x40001) part) (fun t => ((t.P 3).kvPages, (t.P 3).kvWrDrop)) = some (0, true) ∧
    shows (exec (.kvPoolWrite vf3 3 1) poolHeld) (fun t => (t.P 3).kvWrDrop) = some true := by decide +kernel
theorem test_kv_geom : shows (exec (.kvGeomWrite vf3 3 0x80040) part) (fun t => ((t.P 3).kvRow, (t.P 3).kvNreg)) = some (64, 8) ∧
    shows (exec (.kvGeomWrite vf3 3 0x81101) part) (fun t => (t.P 3).kvWrDrop) = some true := by decide +kernel
theorem test_cs : shows (exec (.load vf3 3 4) (sets false 0 0)) (fun t => ((t.P 3).csBusy, (t.P 3).csOp)) = some (true, 1) ∧
    shows (exec (.unload vf3 3 4) (sets false 0 0x30)) (fun t => ((t.P 3).csLoaded, (t.P 3).csResult)) = some (0x20, 0) ∧
    shows (exec (.unload vf3 3 9) (sets false 0 0x30)) (fun t => (t.P 3).csResult) = some 3 := by decide +kernel
theorem test_cs_done : shows (exec (.csUnloadDone 3) (sets true 2 0)) (fun t => (t.P 3).csBusy) = some false ∧
    shows (exec (.csLoadDone 3 []) (sets true 1 0)) (fun t => ((t.P 3).csBusy, (t.P 3).csLoaded)) = some (false, 0) := by decide +kernel

/-! ## Drawlink ports and bypass -/

/-- Port 0 in a state, with its pair's switch as given. -/
def portIn (st : PortSt) (drive : Bool) (f : Port → Port) : State :=
  { onTime .free 0 with dlk := { up.dlk with
      port := up.dlk.port.set 0 (f { Port.reset with st := st })
      sw := up.dlk.sw.set 0 { Switch.reset with drive := drive, closed := !drive } } }
theorem witness_ports : (portIn .up true id).dlk.port[(0 : Fin 4)].st = .up ∧ (portIn .up true id).running = true ∧ (portIn .down true id).dlk.port[(0 : Fin 4)].auto = true ∧
    (portIn .down true id).dlk.sw[pairOf 0].drive = true ∧ (portIn .down false id).dlk.sw[pairOf 0].drive = false ∧
    (portIn .retrain true fun p => { p with attempt := 3 }).dlk.port[(0 : Fin 4)].attempt = 3 ∧
    (portIn .loopback false id).err.firstS4 = none ∧ (portIn .up true id).owner (.pf 0) = true ∧ State.reset.running = false := by decide +kernel
theorem witness_ports' : (portIn .up true fun p => { p with winUncorr := 16 }).dlk.port[(0 : Fin 4)].uncorrThr.toNat ≤ 16 ∧ Port.reset.corrThr ≠ 0 ∧
    Port.reset.retryThr.toNat ≤ 8 ∧ Port.reset.winCorr < Port.reset.corrThr.toNat ∧ (portIn .up true id).spanOf 0 1 1 = 0 ∧
    2 < (portIn .up true id).spanOf 0 1 0 ∧ (portIn .train true id).dlk.port[(0 : Fin 4)].st = .train := by decide +kernel
theorem test_threshold : shows (exec (.dlkErrThreshold 0 .uncorr) (portIn .up true fun p => { p with winUncorr := 16 })) (fun t =>
      (t.dlk.port[(0 : Fin 4)].st, t.dlk.port[(0 : Fin 4)].uncorrTh, t.err.logTotal)) = some (.retrain, true, 1) ∧
    shows (exec (.dlkErrThreshold 0 .retry) (portIn .up true id)) (fun t => t.dlk.port[(0 : Fin 4)].st) = some .up := by decide +kernel
theorem test_window_end : shows (exec (.dlkErrWindowEnd 0) (portIn .up true fun p => { p with winUncorr := 16 })) (fun t => t.dlk.port[(0 : Fin 4)].winUncorr) = some 0 := by
  decide +kernel
theorem test_signal : shows (exec (.signalLoss 0) (portIn .up true id)) (fun t => (t.dlk.port[(0 : Fin 4)].st, t.dlk.port[(0 : Fin 4)].attempt)) = some (.retrain, 1) ∧
    shows (exec (.retrain (.pf 0) 0) (portIn .up true id)) (fun t => t.dlk.port[(0 : Fin 4)].st) = some .retrain ∧
    shows (exec (.retrain (.pf 1) 0) (portIn .up true id)) (fun t => t.dlk.port[(0 : Fin 4)].st) = some .up := by decide +kernel
theorem test_training : shows (exec (.autoTrainingTimer 0) (portIn .down true id)) (fun t => t.dlk.port[(0 : Fin 4)].st) = some .train ∧
    shows (exec (.trainingPatternDetected 0) (portIn .down true id)) (fun t => t.dlk.port[(0 : Fin 4)].st) = some .train ∧
    shows (exec (.fullTrainingDone 0 .fail) (portIn .train true id)) (fun t => t.dlk.port[(0 : Fin 4)].st) = some .down := by decide +kernel
theorem test_retrain : shows (exec (.retrainAttemptDone 0 .fail) (portIn .retrain true fun p => { p with attempt := 2 })) (fun t => t.dlk.port[(0 : Fin 4)].attempt) = some 3 ∧
    shows (exec (.retrainAttemptDone 0 .fail) (portIn .retrain true fun p => { p with attempt := 3 })) (fun t => (t.dlk.port[(0 : Fin 4)].st, t.dlk.port[(0 : Fin 4)].downCnt))
      = some (.down, 1) := by decide +kernel
def flit : TxFlit := { seq := 1, ctrl := false, vc := 0, half := false, hdr := 0, pay := 0, crVc := 0, crCnt := 0, job := none, inp := none }
theorem test_replay : shows (exec (.replayTimeout 0) (portIn .up true fun p => { p with retry := [flit] })) (fun t => t.dlk.port[(0 : Fin 4)].retryCnt) = some 1 ∧
    shows (exec (.replayTimeout 0) (portIn .up true id)) (fun t => t.dlk.port[(0 : Fin 4)].retryCnt) = some 0 := by decide +kernel
/-- Sixteen symbols of the codeword that the last flit began are in error; two of the one this flit begins are corrected. -/
theorem test_flit : shows (exec (.flitReceived 0 0 (some 16) (some 2) false) (portIn .up true id)) (fun t =>
      (t.dlk.port[(0 : Fin 4)].corrCnt, t.dlk.port[(0 : Fin 4)].uncorrCnt, t.dlk.port[(0 : Fin 4)].nakSent)) = some (2, 1, true) := by decide +kernel
/-- An idle flit that acknowledges the last one sent, with the IEEE CRC-32 of its 252 bytes 00 01 00 … (worked outside the model). -/
def idle : BitVec 2048 := BitVec.ofNat 2048 (0x100 + 3917035123 * 2 ^ 2016)
theorem witness_flit : crc32 (leBytes 252 idle.toNat) = (idle.extractLsb' 2016 32).toNat := by decide +kernel
theorem witness_flit' : idle.extractLsb' 17 2 = 0 ∧ idle.extractLsb' 29 3 = 0 := by decide +kernel
/-- Fifteen symbols are corrected, sixteen are not; an ACK of flit 1 retires it. -/
theorem test_codeword : cwOk (some 15) = true ∧ cwOk (some 16) = false ∧ cwOk none = true ∧ ackRetry 1 [flit] = [] ∧ ackRetry 0 [flit] = [flit] := by decide +kernel

def swIn (f : Switch → Switch) : State := { up with dlk := { up.dlk with sw := up.dlk.sw.set 0 (f Switch.reset) } }
theorem witness_switch : (swIn fun w => { w with drive := true, joining := true }).dlk.sw[(0 : Fin 2)].joining = true ∧ (swIn id).dlk.sw[(0 : Fin 2)].drive = false ∧
    (swIn fun w => { w with drive := true, joined := true }).dlk.sw[(0 : Fin 2)].joined = true ∧ (swIn id).owner (.pf 0) = true ∧
    (swIn id).dlk.port[eastOf 0].st = .down ∧ (swIn id).dlk.port[westOf 0].st = .down ∧ (swIn id).pwr.st ≠ .shuttingDown ∧
    (swIn fun w => { w with drive := true, leaving := true }).dlk.sw[(0 : Fin 2)].leaving = true ∧ (swIn id).owner (.vf 0 0) = false := by decide +kernel
theorem test_bypass : shows (exec (.bypass (.pf 0) 0) (swIn fun w => { w with drive := true })) (fun t => (t.dlk.sw[(0 : Fin 2)].drive, t.dlk.sw[(0 : Fin 2)].cause)) = some (false, 5) ∧
    shows (exec (.bypass (.pf 0) 0) (swIn id)) (fun t => (t.dlk.sw[(0 : Fin 2)].bypass, t.dlk.sw[(0 : Fin 2)].cause)) = some (true, 5) ∧
    shows (exec (.bypass (.vf 0 0) 0) (swIn id)) (fun t => t.dlk.sw[(0 : Fin 2)].bypass) = some false := by decide +kernel
theorem test_join_window : shows (exec (.joinWindowExpiry 0) (swIn fun w => { w with drive := true, joining := true })) (fun t =>
      (t.dlk.sw[(0 : Fin 2)].drive, t.dlk.sw[(0 : Fin 2)].cause, t.err.logTotal)) = some (false, 6, 1) := by decide +kernel
theorem test_sense : shows (exec (.switchSenseTimeout 0) (swIn id)) (fun t => (t.dlk.sw[(0 : Fin 2)].fault, t.dlk.sw[(0 : Fin 2)].closed, t.err.logTotal)) = some (true, false, 1) := by
  decide +kernel
theorem test_pair_down : shows (exec (.pairDownTimeout 0) (swIn fun w => { w with drive := true })) (fun t => t.dlk.sw[(0 : Fin 2)].cause) = some 7 ∧
    shows (exec (.leaveTimeout 0) (swIn fun w => { w with drive := true, leaving := true })) (fun t => (t.dlk.sw[(0 : Fin 2)].drive, t.dlk.sw[(0 : Fin 2)].cause)) = some (false, 5) := by
  decide +kernel

/-! ## The ring -/

def hdr : MsgHdr := { src := 1, sptn := 0, dptn := 3, xid := 7 }
def tx : TxX :=
  { xid := 7, op := 5, ptn := 3, dst := 1, dptn := 0, tag := 0, len := 8192, vc := 1, fmt := 0, rop := 0, rank := 0, answered := false, busy := false
    grants := [], sent := [], acked := [], pass2 := false, progress := 0 }
def rx : RxX :=
  { src := 1, sptn := 0, xid := 7, op := 5, ptn := 3, len := 8192, next := 0, units := [], comb := [], drained := [], buf := [], pass2 := false
    done := false, progress := 0 }
/-- Device 0 on a ring of four, with a transfer each way and partition 3 in force. -/
def ringed (t : List TxX) (r : List RxX) (q : List ReqM) : State :=
  let s := onTime .free 0
  { s with
    ptn := part.ptn
    jobs := [{ job with resBuf := 8 }]
    ops := [{ op with mn := .rrecv, k := .vc1, run := some 0, sp := 1 }]
    ringl := { s.ringl with tx := t, rx := r, reqs := q } }
def reqQ : ReqM := { src := 1, sptn := 0, dptn := 3, xid := 7, len := 8192, tag := 0, vc := 1, rop := 0, fmt := 0, rank := 0 }
theorem witness_sender : (ringed [tx] [] []).onRing = true ∧ up.onRing = false ∧ (ringed [] [] []).tx? 7 = none ∧ (ringed [tx] [] []).tx? 7 = some tx ∧ tx.dst = hdr.src ∧
    tx.ptn = hdr.dptn ∧ (ringed [tx] [] []).clk.gt.toNat < tx.progress.toNat + (ringed [tx] [] []).xferTo * 1000000 ∧ ({ hdr with src := 2 } : MsgHdr).src ≠ tx.dst ∧
    ((ringed [tx] [] []).op? 5).isSome = true := by decide +kernel
theorem test_grant : shows (exec (.grant { hdr with src := 2 } 0 1) (ringed [tx] [] [])) (fun t => (t.tx? 7).map (·.grants)) = some (some []) ∧
    shows (exec (.refuse hdr 9) (ringed [tx] [] [])) (fun t => (t.tx? 7).map (·.busy)) = some (some true) := by decide +kernel
theorem test_timeout : shows (exec (.xferTimeout 7 true 1) (ringed [tx] [] [])) (fun t => (t.tx? 7).isSome) = some true := by decide +kernel
theorem witness_receiver : (ringed [] [] []).ptnLive 3 = true ∧ (ringed [] [] []).ptnLive 4 = false ∧ (ringed [] [rx] []).rx? 1 7 = some rx ∧
    ((ringed [] [] []).ops.find? fun o => (ringed [] [] []).matches_ o reqQ).isSome = true ∧
    ((ringed [] [rx] []).ops.find? fun o => (ringed [] [rx] []).matches_ o { reqQ with tag := 1 }).isSome = false ∧
    ((ringed [] [rx] []).op? 5).isSome = true ∧ entriesOfUnit 8192 0 = [0] ∧ entriesOfUnit 8192 100 = [] ∧ (ringed [] [rx] []).freeEntries 7 = 8 := by decide +kernel
theorem test_req : shows (exec (.req hdr 8192 0 1 0 0 0) (ringed [] [] [reqQ])) (fun t => t.ringl.reqs.length) = some 1 ∧
    shows (exec (.req hdr 8192 1 1 0 0 0) (ringed [] [] [])) (fun t => t.ringl.reqs.map (·.tag)) = some [1] := by decide +kernel
theorem test_grant_issue : shows (exec (.grantIssue 1 7) (ringed [] [rx] [])) (fun t => (t.rx? 1 7).map (·.next)) = some (some 2) := by decide +kernel
/-- DATA that no grant covers is dropped; DATA of a completed transfer is a duplicate. -/
theorem test_data : shows (exec (.data hdr 0 5) (ringed [] [rx] [])) (fun t => (t.rx? 1 7).map (·.units)) = some (some []) ∧
    shows (exec (.data hdr 0 5) (ringed [] [{ rx with done := true }] [])) (fun t => (t.P 3).cnt[Ctr.ringDup.ix]) = some 1 := by decide +kernel
theorem witness_remote : (hdr.src, hdr.xid) ∉ (ringed [] [] []).ringl.tallySeen ∧ ((ringed [] [] []).owns 3 csTallies).testBit (5 / 1024) = true ∧
    ((ringed [] [] []).owns 3 csTallies).testBit (5000 / 1024) = false := by decide +kernel
theorem test_tally_msg : shows (exec (.tally hdr 5 false 9) (ringed [] [] [])) (fun t => (t.tallyGet 5, t.ringl.tallySeen.length)) = some (9, 1) ∧
    shows (exec (.tally hdr 5000 true 9) (ringed [] [] [])) (fun t => t.tallyGet 5000) = some 0 := by decide +kernel

theorem witness_maps : (onTime .free 0).running = true ∧ (onTime .free 0).devId = 0 ∧ (onTime .free 0).dlk.sw[pairOf 0].joined = true ∧
    (onTime .free 0).ringPosOf 0 2 = some 2 ∧ (onTime .free 0).ringPosOf 0 9 = none ∧ (∀ k : Fin 4, up.dlk.port[k].st ≠ .up) ∧
    (∀ j : Fin 4, j ≠ 0 → (onTime .free 0).dlk.port[j].st ≠ .up) ∧ (onTime .free 0).dlk.port[(0 : Fin 4)].st = .up := by decide +kernel
theorem test_topo : shows (exec (.topo 0 1 9 0) (onTime .free 0)) (fun t => (t.ringl.badCnt, t.ringl.map[(0 : Fin 2)].down)) = some (1, []) ∧
    shows (exec (.topo 0 2 0 0) (onTime .free 0)) (fun t => (t.ringl.badCnt, t.ringl.map[(0 : Fin 2)].down)) = some (0, []) ∧
    shows (exec (.topo 0 2 2 0) (onTime .free 0)) (fun t => (t.ringl.badCnt, t.ringl.map[(0 : Fin 2)].down.length)) = some (0, 1) := by decide +kernel
theorem test_state : shows (exec (.state 0 9 0) (onTime .free 0)) (fun t => t.ringl.badCnt) = some 1 ∧
    shows (exec (.state 0 2 3) (onTime .free 0)) (fun t => t.ringl.map[(0 : Fin 2)].down.length) = some 1 := by decide +kernel
theorem test_broadcast : shows (exec .stateBroadcast (onTime .free 0)) (fun t => t.dlk.port[(0 : Fin 4)].outq.length) = some 1 := by decide +kernel
def granted : State := portIn .up true fun p => { p with granted := Vector.replicate 4 8, reclaim := Vector.replicate 4 2, auditFail := 1 }
theorem test_audit : shows (exec (.hopAudit 0 30 2) granted) (fun t => (t.dlk.port[(0 : Fin 4)].auditFail, t.ldg.mismatch)) = some (0, false) ∧
    shows (exec (.creditReclaim 0) granted) (fun t => (t.ldg.reclaimCnt, t.dlk.port[(0 : Fin 4)].reclaim.toList)) = some (8, List.replicate 4 0) := by decide +kernel
theorem witness_audit : vsum granted.dlk.port[(0 : Fin 4)].granted = 32 ∧ granted.dlk.port[(0 : Fin 4)].auditFail = 1 ∧ 30 + 2 = 32 ∧ (portIn .up true id).dlk.port[(0 : Fin 4)].auditFail = 0 := by
  decide +kernel

/-! ## Power, reset, flash -/

def pwrIn (st : PwrSt) (f : Pwr → Pwr) : State := { up with pwr := f { up.pwr with st := st } }
/-- Start-up in a stage. -/
def stageIn (n : BitVec 3) (f : Pwr → Pwr) : State := pwrIn .starting fun p => f { p with stage := n, edge := true }
def unpowered : State := { State.reset with pwr := { Pwr.reset with vsb := false } }
theorem witness_vsb : unpowered.pwr.vsb = false ∧ State.reset.pwr.vsb = true ∧ (pwrIn .off fun p => { p with edge := true }).pwr.vinOk = true ∧
    (pwrIn .off fun p => { p with edge := true }).pwr.pwrEn = true ∧ (pwrIn .off id).pwr.edge = false ∧ (pwrIn .off id).pwr.autoOn = false ∧
    (stageIn 2 id).pwr.heldByPerst = false ∧ (stageIn 4 fun p => { p with perst0 := true }).pwr.heldByPerst = true ∧ (stageIn 3 id).pwr.recovMode = false := by decide +kernel
theorem test_vsb : shows (exec (.vsbUp 5 true false true false) unpowered) (fun t => (t.pwr.vsb, t.mbs.addr, t.pwr.autoOn, t.pwr.edge, t.free)) = some (true, 5, true, true, 1) ∧
    shows (exec .vsbLoss up) (fun t => (t.pwr.vsb, t.pwr.rails, t.clk.lock)) = some (false, false, 0) := by decide +kernel
theorem test_start : shows (exec (.startCondition false) (pwrIn .off fun p => { p with edge := true, rails := false, stage := 0 })) (fun t => (t.pwr.st, t.pwr.rails, t.pwr.stage))
      = some (.starting, true, 0) ∧
    shows (exec (.startCondition false) (pwrIn .off id)) (fun t => t.pwr.st) = some .off := by decide +kernel
theorem test_stage : shows (exec (.startupStageDone .pass) (stageIn 0 id)) (fun t => (t.pwr.stage, t.clk.lock)) = some (1, 0x1FF) ∧
    shows (exec (.startupStageDone .pass) (stageIn 4 id)) (fun t => (t.pwr.stage, t.pwr.st)) = some (5, .on) ∧
    shows (exec (.startupStageDone .pass) (stageIn 0 fun p => { p with recovStrap := true })) (fun t => t.pwr.recovMode) = some true := by decide +kernel
/-- A slot that cannot be read fails with code 1, and the other slot is read. -/
theorem test_stage_fails : shows (exec (.startupStageDone .readError) (stageIn 1 id)) (fun t => (t.pwr.failA, t.pwr.bootSlot, t.pwr.stage)) = some (1, true, 1) := by
  decide +kernel
theorem witness_recovery : (pwrIn .starting fun p => { p with recovMode := true }).pwr.recovMode = true ∧ up.fnAlive (.pf 0) = true ∧ bootCode Fuses.reset [] = 2 := by decide +kernel
theorem test_go : shows (exec (.go (.pf 0)) (stageIn 1 fun p => { p with recovMode := true })) (fun t => (t.pwr.failR, t.pwr.recovMode)) = some (2, true) := by decide +kernel
theorem test_perst : shows (exec .perst0Assert (stageIn 1 id)) (fun t => (t.pwr.perst0, t.io[0].inReset, t.io[1].inReset, t.io[0].link)) = some (true, true, false, false) ∧
    shows (exec .perst0Deassert (stageIn 1 fun p => { p with perst0 := true })) (fun t => (t.pwr.perst0, t.io[0].inReset)) = some (false, false) ∧
    shows (exec .offHoldExpiry (pwrIn .offHold id)) (fun t => t.pwr.st) = some .off := by decide +kernel
theorem test_warm : shows (exec .perst0Assert (pwrIn .on id)) (fun t => (t.pwr.perst0, t.pwr.warm, t.pwr.stage)) = some (true, true, 1) := by decide +kernel

theorem witness_down : (pwrIn .on fun p => { p with pwrEn := false }).pwr.pwrEn = false ∧ up.pwr.pwrWarn = false ∧ up.pwr.vsb = true ∧
    (4700 : W16).toNat < 4800 ∧ (5400 : W16).toNat ≤ 6000 ∧ (pwrIn .shuttingDown id).pwr.st = .shuttingDown ∧ (pwrIn .starting id).pwr.st = .starting := by decide +kernel
theorem test_shutdown : shows (exec (.shutdown (.pf 1) true) up) (fun t => t.pwr.st) = some .on ∧
    shows (exec (.shutdown (.pf 0) true) (pwrIn .starting id)) (fun t => (t.pwr.st, t.pwr.stayOff, t.pwr.sdCause)) = some (.shuttingDown, true, 1) ∧
    shows (exec .pwrEnFall (pwrIn .shuttingDown id)) (fun t => (t.pwr.pwrEn, t.pwr.triggers)) = some (false, 4) := by decide +kernel
theorem test_pwr_en : shows (exec .pwrEnRise (pwrIn .off fun p => { p with pwrEn := false, stayOff := true })) (fun t => (t.pwr.pwrEn, t.pwr.stayOff, t.pwr.edge)) = some (true, false, true) := by
  decide +kernel
theorem test_pwr_warn : shows (exec .pwrWarnAssert (pwrIn .off id)) (fun t => t.pwr.pwrWarn) = some true ∧
    shows (exec .pwrWarnDeassert (pwrIn .offHold fun p => { p with pwrWarn := true })) (fun t => (t.pwr.pwrWarn, t.pwr.supplyReturned)) = some (false, true) := by decide +kernel
theorem test_vin : shows (exec (.vinOutOfRange 4700) (pwrIn .on id)) (fun t => (t.pwr.vin, t.pwr.vinOk, t.pwr.st)) = some (4700, false, .on) ∧
    shows (exec (.vinInRange 4800) (pwrIn .offHold fun p => { p with vinOk := false })) (fun t => (t.pwr.vin, t.pwr.supplyReturned)) = some (4800, true) ∧
    shows (exec (.vinOutOfRange 4500) (pwrIn .starting id)) (fun t => (t.pwr.st, t.pwr.sdCause)) = some (.shuttingDown, 6) := by decide +kernel
theorem test_rails : shows (exec .mainRailsDown up) (fun t => (t.pwr.st, t.pwr.rails, t.pwr.stage, t.clk.lock)) = some (.offHold, false, 0, 0) := by decide +kernel

def flashIn (op : BitVec 2) : State := pwrIn .on fun p =>
  { p with flashOp := op, flashAddr := 0x1000, flashAt := 0x1000, flash := [(0x1000, 0xF0)], flashBuf := 0x33, clrst := 4 }
theorem witness_flash : (flashIn 0).pwr.st = .on ∧ (flashIn 0).pwr.flashAddr.toNat % 256 = 0 ∧ (flashIn 0).pwr.flashAddr.toNat % 65536 ≠ 0 ∧ (flashIn 1).pwr.flashOp ≠ 0 ∧
    (flashIn 0).pwr.clrst.getLsbD 2 = true ∧ (flashIn 0).pwr.clrst.getLsbD 3 = false ∧ (flashIn 0).fnAlive (.pf 0) = true := by decide +kernel
theorem test_flash : shows (exec (.flashProgram (.pf 0)) (flashIn 0)) (fun t => (t.pwr.flashOp, t.pwr.flashErr)) = some (2, false) ∧
    shows (exec (.flashErase (.pf 0)) (flashIn 0)) (fun t => (t.pwr.flashOp, t.pwr.flashErr)) = some (0, true) ∧
    shows (exec (.flashRead (.pf 0)) (flashIn 2)) (fun t => (t.pwr.flashOp, t.pwr.flashDropped)) = some (2, true) := by decide +kernel
/-- F0 read back; F0 programmed with 33 is 30. -/
theorem test_flash_done : shows (exec (.flashCmdDone true) (flashIn 1)) (fun t => (t.pwr.flashBuf.extractLsb' 0 16, t.pwr.flashOp)) = some (0xFFF0, 0) ∧
    shows (exec (.flashCmdDone true) (flashIn 2)) (fun t => sget 0xFF t.pwr.flash 0x1000) = some 0x30 := by decide +kernel
theorem test_clrst : shows (exec (.pwrClrst (.pf 0) 4) (flashIn 0)) (fun t => t.pwr.clrst) = some 4 ∧
    shows (exec (.clusterResetDone 2) (flashIn 0)) (fun t => (t.pwr.clrst, t.cl[(2 : Fin 32)].job)) = some (0, none) := by decide +kernel

/-! ## The two-wire buses -/

theorem witness_mb : up.pwr.vsb = true ∧ unpowered.pwr.vsb = false ∧ (63 : Byte).toNat < 64 ∧ 64 ≤ (64 : Byte).toNat ∧ (List.replicate 17 (0 : Byte)).length > 16 := by decide +kernel
/-- The PEC of the published CRC-8 (x⁸ + x² + x + 1): its check value over "123456789" is F4. -/
theorem test_crc8 : crc8 [0x31, 0x32, 0x33, 0x34, 0x35, 0x36, 0x37, 0x38, 0x39] = 0xF4 := by decide +kernel
theorem test_mb_read : shows (exec (.bypassStatus false) State.reset) (fun t => (t.mbOut.length, t.mbs.txnCnt)) = some (2, 1) ∧
    shows (exec (.logSelectRead true) { up with mbs := { up.mbs with logSel := 9 } }) (fun t => (t.mbOut.length, t.mbOut.head?)) = some (2, some 9) ∧
    shows (exec (.logRead false) { up with mbs := { up.mbs with logSel := 0 } }) (fun t => (t.mbOut.length, t.mbs.logSel)) = some (33, 63) := by decide +kernel
/-- IDENTITY of an S8I2 in slot 0: 16 bytes, then the vendor D4 1F. -/
theorem test_identity : shows (exec (.identity false) State.reset) (fun t => t.mbOut.take 7) = some [0x10, 0xD4, 0x1F, 0x16, 0x04, 0xB0, 0x06] ∧
    shows (exec (.scratchRead false) State.reset) (fun t => t.mbOut) = some [1, 0] := by decide +kernel
theorem test_mb_fields : shows (exec (.power false) up) (fun t => t.mbOut.take 3) = some [8, 2, 2] ∧
    shows (exec (.health false) up) (fun t => t.mbOut.take 2) = some [16, 6] ∧ shows (exec (.temps false) up) (fun t => t.mbOut.length) = some 17 ∧
    shows (exec (.ring false) up) (fun t => t.mbOut.length) = some 9 ∧ shows (exec (.logHead false) up) (fun t => t.mbOut) = some [0, 0] ∧
    shows (exec (.busStatus false) up) (fun t => t.mbOut.length) = some 1 := by decide +kernel
theorem test_mb_write : shows (exec (.logSelect 63 none) up) (fun t => (t.mbs.logSel, t.mbs.badCmd)) = some (63, false) ∧
    shows (exec (.logSelect 64 none) up) (fun t => (t.mbs.logSel, t.mbs.badCmd)) = some (0, true) ∧
    shows (exec (.scratchWrite [7, 8] none) up) (fun t => t.mbs.scratch) = some [7, 8] ∧
    shows (exec (.scratchWrite [7] (some 0)) up) (fun t => (t.mbs.scratch, t.mbs.pecErr)) = some ([0], true) := by decide +kernel
theorem test_mb_bad : shows (exec (.mbBadCommand 0x10) up) (fun t => (t.mbs.badCmd, t.mbs.errCnt)) = some (true, 1) ∧
    shows (exec (.mbSclTimeout 3) up) (fun t => (t.mbs.fScl, t.mbs.txnCnt, t.mbs.errCnt)) = some (true, 1, 1) ∧
    shows (exec .mbSdaTimeout up) (fun t => (t.mbs.fSda, t.mbs.txnCnt, t.mbs.errCnt)) = some (true, 0, 1) := by decide +kernel
theorem test_mirror : shows (exec .mirrorUpdate { up with clk := { up.clk with cur := 7 } }) (fun t => t.mbs.mirror.cclk) = some 7 ∧
    shows (exec .mirrorUpdate { State.reset with clk := { Clk.reset with cur := 7 } }) (fun t => t.mbs.mirror.cclk) = some 0 := by decide +kernel

def tray (f : Tbs → Tbs) : State := { up with tbs := f Tbs.reset }
theorem witness_tray : (tray id).tbs.en = true ∧ (tray id).tbs.busy = false ∧ (tray fun t => { t with busy := true }).tbs.busy = true ∧
    (tray fun t => { t with sdaWait := true }).tbs.sdaWait = true ∧ (tray id).tbs.lastRec.toNat = 0 ∧
    (tray fun t => { t with lastRec := 4 }).tbs.lastRec.toNat = 4 ∧ (tray id).pwr.vsb = true := by decide +kernel
theorem test_slot : shows (exec (.tbSampleSlot true true) (tray id)) (fun t => t.tbs.busy) = some true ∧
    shows (exec (.tbSampleSlot true false) (tray id)) (fun t => (t.tbs.busy, t.tbs.sdaWait)) = some (true, true) ∧
    shows (exec (.tbSampleSlot false true) (tray id)) (fun t => (t.tbs.result, t.tbs.failCnt)) = some (4, 1) := by decide +kernel
/-- Registers that sum to 0: identifier 0x5453, version 1, and a checksum of 0xABAC. -/
def good : Vector W16 16 := (((Vector.replicate 16 (0 : W16)).set 0 0x5453).set 1 1).set 15 0xABAC
theorem test_sample : shows (exec (.tbSampleDone (.regs good true) 300) (tray fun t => { t with busy := true })) (fun t => (t.tbs.result, t.tbs.valid, t.tbs.sample[0], t.pwr.pin))
      = some (0, true, 0x5453, 300) ∧
    shows (exec (.tbSampleDone (.regs (good.set 15 0) true) 300) (tray fun t => { t with busy := true })) (fun t => (t.tbs.result, t.tbs.sample[0])) = some (6, 0) ∧
    shows (exec (.tbSampleDone (.regs (good.set 1 2) true) 300) (tray fun t => { t with busy := true })) (fun t => t.tbs.result) = some 5 := by decide +kernel
theorem test_recovery : shows (exec (.tbSclTimeout true (some 4)) (tray fun t => { t with busy := true, lastRec := 4 })) (fun t => (t.tbs.fScl, t.tbs.recCnt, t.tbs.busy)) = some (true, 1, false) := by decide +kernel
theorem test_sda : shows (exec (.tbSdaTimeout true none) (tray fun t => { t with sdaWait := true })) (fun t => (t.tbs.fSda, t.tbs.fRec, t.tbs.recCnt)) = some (true, true, 0) ∧
    shows (exec (.tbSdaTimeout true none) (tray fun t => { t with busy := true, sdaWait := true, lastRec := 3 })) (fun t => (t.tbs.result, t.tbs.busy)) = some (3, false) ∧
    shows (exec (.tbSdaTimeout true none) (tray fun t => { t with sdaWait := true, sclAt := some 0 })) (fun t => (t.tbs.fSda, t.tbs.fRec)) = some (true, false) := by decide +kernel

/-! ## Cooling and rotation -/

def hot (t : W16) (level : BitVec 3) : State := { up with thm := { up.thm with level := level, die := up.thm.die.set 1 { temp := t, sensor := 0, failed := 0 } } }
/-- 95 °C and 90 °C are the ladder's thresholds, in 1/128 °C. -/
theorem witness_ladder : up.dieTarget = 95 ∧ (hot 12161 4).hottest = 12161 ∧ 128 * (hot 12161 4).dieTarget < (hot 12161 4).hottest ∧
    (hot 11519 4).hottest < 128 * ((hot 11519 4).dieTarget - 5) ∧ (hot 12161 4).thm.level.toNat < 5 ∧ (hot 11519 4).thm.level ≠ 0 ∧ up.pwr.rails = true ∧
    State.reset.pwr.rails = false := by decide +kernel
theorem test_ladder : shows (exec .ladderRise (hot 12161 4)) (fun t => t.thm.level) = some 5 ∧ shows (exec .ladderRise (hot 12160 4)) (fun t => t.thm.level) = some 4 ∧
    shows (exec .ladderFall (hot 11519 4)) (fun t => t.thm.level) = some 3 ∧ shows (exec .ladderFall (hot 11520 4)) (fun t => t.thm.level) = some 4 := by decide +kernel
/-- Sensor 5 hottest at 50 °C; 106 °C jumps to level 5. -/
theorem test_sensors : shows (exec (.dieSensorRead 2 ((Vector.replicate 64 0x1400).set 5 0x1900)) up) (fun t => (t.thm.die[2].temp, t.thm.die[2].sensor, t.thm.level))
      = some (0x1900, 5, 0) ∧
    shows (exec (.dieSensorRead 2 ((Vector.replicate 64 0x1400).set 5 0x3500)) up) (fun t => (t.thm.level, t.thm.dieHot)) = some (5, true) := by decide +kernel

/-- Rotation on since time 0; the first boundary of die 1 falls 4,000 µs and a quarter of that later. -/
def rot (gt : W64) (holds : List Hold) : State := { up with thm := { up.thm with rotOn := true, holds := holds }, clk := { up.clk with gt := gt } }
def hold : Hold := { die := 1, k := .mxa, since := 5, limit := 20, stride := 3 }
theorem witness_rotation : (rot 5000000 []).running = true ∧ (rot 5000000 []).thm.rotOn = true ∧
    (rot 5000000 []).thm.rotT0.toNat + ((rot 5000000 []).thm.rotK[1] + 1) * (gfOr (rot 5000000 []) 128 0 16 4000) * 1000
      + 1 * (gfOr (rot 5000000 []) 128 0 16 4000) * 250 = 5000000 ∧
    ((rot 0 [hold]).thm.holds.find? fun x => x.die == 1 && x.k == .mxa) = some hold ∧ (rot 0 [hold]).kindIdle 1 .mxa = true ∧
    (rot 20004 [hold]).clk.gt.toNat < hold.since.toNat + 1000 * hold.limit ∧ hold.since.toNat + 1000 * hold.limit ≤ (rot 20005 [hold]).clk.gt.toNat := by decide +kernel
theorem test_boundary : shows (exec (.monthBoundary 1) (rot 5000000 [])) (fun t => (t.thm.rotK[1], t.thm.month, t.thm.holds.length)) = some (1, 0, 5) ∧
    shows (exec (.monthBoundary 1) (rot 4999999 [])) (fun t => t.thm.rotK[1]) = some 0 ∧
    shows (exec (.monthBoundary 3) (rot 7000000 [])) (fun t => t.thm.month) = some 1 := by decide +kernel
theorem test_rotation : shows (exec (.rotationStep 1 .mxa) (rot 9 [hold])) (fun t => (t.thm.off[(1 : Fin 4)].mxa, t.thm.off[(0 : Fin 4)].mxa, t.thm.holds)) = some (3, 0, []) ∧
    shows (exec (.rotHoldExpiry 1 .mxa) (rot 20005 [hold])) (fun t => (t.thm.skip, t.thm.holds)) = some (1, []) ∧
    shows (exec (.rotHoldExpiry 1 .mxa) (rot 20004 [hold])) (fun t => t.thm.skip) = some 0 := by decide +kernel

/-! ## TAP and debug -/

def testMode : State := { up with pwr := { up.pwr with testMode := true } }
theorem test_tap : shows (exec .idcode up) (fun t => (t.tap.ir, t.tdo)) = some (0x01, 0x10416A53) ∧ shows (exec .extest up) (fun t => t.tap.drive) = some .mission ∧
    shows (exec .extest testMode) (fun t => (t.tap.ir, t.tap.drive)) = some (0x03, .extest) ∧ shows (exec .tapReset testMode) (fun t => t.tap.ir) = some 0x01 ∧
    shows (exec (.tapBypass 0xFF) up) (fun t => t.tap.ir) = some 0xFF := by decide +kernel
theorem test_tap' : shows (exec .highz testMode) (fun t => (t.tap.ir, t.tap.drive)) = some (0x07, .highz) ∧ shows (exec .clamp testMode) (fun t => t.tap.drive) = some .clamp ∧
    shows (exec .extestPulse testMode) (fun t => t.tap.drive) = some .pulse ∧ shows (exec .extestTrain testMode) (fun t => t.tap.drive) = some .train ∧
    shows (exec (.samplePreload 5) up) (fun t => t.tap.boundary) = some 5 := by decide +kernel
def dbgIn (f : Dbg → Dbg) : State := { up with dbg := f Dbg.reset }
theorem witness_debug : (dbgIn id).fnAlive (.pf 0) = true ∧ (dbgIn id).dbg.busy = false ∧ (dbgIn fun d => { d with busy := true }).dbg.busy = true ∧
    (dbgIn fun d => { d with isOpen := true, scope := 1 }).dbg.scope.getLsbD 0 = true ∧ (8 : BitVec 12).toNat % 8 = 0 ∧ (4 : BitVec 12).toNat % 8 ≠ 0 ∧
    up.fnAlive (.pf 1) = true ∧ (dbgIn fun d => { d with busy := true }).unlockCode (leBytes 208 0) = 1 ∧ (dbgIn id).dbg.halt.getLsbD 2 = false := by decide +kernel
theorem test_dbg_halt : shows (exec (.dbgHalt (.pf 0) 4) (dbgIn fun d => { d with isOpen := true, scope := 1 })) (fun t => t.dbg.halt) = some 4 ∧
    shows (exec (.dbgHalt (.pf 0) 4) (dbgIn id)) (fun t => t.dbg.halt) = some 0 ∧
    shows (exec (.relock (.pf 0)) (dbgIn fun d => { d with isOpen := true, scope := 1, halt := 4 })) (fun t => (t.dbg.isOpen, t.dbg.halt)) = some (false, 0) := by decide +kernel
theorem test_dbg_go : shows (exec (.dbgGo (.pf 0)) (dbgIn id)) (fun t => t.dbg.busy) = some true ∧
    shows (exec (.dbgGo (.pf 0)) (dbgIn fun d => { d with refused := true })) (fun t => (t.dbg.busy, t.dbg.result)) = some (false, 4) := by decide +kernel
theorem test_dbg_verify : shows (exec .dbgVerifyDone (dbgIn fun d => { d with busy := true, fails := 7 })) (fun t => (t.dbg.busy, t.dbg.result, t.dbg.fails, t.dbg.refused))
      = some (false, 1, 8, true) := by decide +kernel
/-- DBG at an offset that is no multiple of 8, or with the lock closed, only selects its instruction; a step of a conductor that is not halted does
nothing. -/
theorem test_dbg : shows (exec (.dbg true 4 9) (dbgIn fun d => { d with isOpen := true, scope := 1 })) (fun t => (t.tap.ir, t.dbg.halt)) = some (0x10, 0) ∧
    shows (exec (.dbg false 0 0) (dbgIn id)) (fun t => (t.tap.ir, t.tdo)) = some (0x10, 0) ∧
    shows (exec (.dbgStep (.pf 0) 4) (dbgIn fun d => { d with isOpen := true, scope := 1 })) (fun t => t.cl[(2 : Fin 32)].pc) = some 0 := by decide +kernel

/-! ## More of what the statements assume -/

/-- The tensor while a CREATE of it is being zeroed (07 R191). -/
def unzeroed : State := (run id).modP 3 fun q => { q with tdWait := some { op := 1, base := 0 } }
theorem witness_zeroing : unzeroed.zeroingAt job (.mem 8184 0) = some 0 ∧ (run id).zeroingAt job (.mem 8184 0) = none ∧ (unzeroed.P 3).zeroing 0 = true ∧
    ((run id).P 3).zeroing 0 = false ∧ (run id).unsettled 3 = [] ∧ (runs .topk .ssu).opTensors { op with mn := .topk, k := .ssu, run := some 2 } ≠ [] ∧
    (∀ b ∈ (runs .topk .ssu).opTensors { op with mn := .topk, k := .ssu, run := some 2 }, ((runs .topk .ssu).P 3).zeroing b = false) := by decide +kernel
/-- An LDX of it stalls. -/
theorem test_zero_stall : shows (exec (.ldx 2 { p := 0, rd := 6, ra := 1, imm := 0x380 } []) unzeroed)
    (fun t => (t.cl[(2 : Fin 32)].stall == .zeroing 0 0, t.cl[(2 : Fin 32)].pc)) = some (true, 8) := by decide +kernel
/-- The last granules of T0 and T1 and the last unit of the tensor; a directory of entries. -/
theorem witness_meet : up.granOk false 95 0 = true ∧ up.granOk false 96 0 = false ∧ up.granOk true (up.fuses.nGran - 1) 0 = true ∧
    (((run id).P 3).tensorAt (127 * 64)).map (·.tier) = some 0 ∧ ((run id).P 3).tensorAt (128 * 64) = none ∧
    (0 : Nat) < 32 * csTdCap (part.P 3).act ∧ (part.P 3).activeValid = true ∧ (run id).canIssue 2 = true ∧ (run id).cl[(2 : Fin 32)].rp 0 = true := by decide +kernel
theorem test_meet : (((run id).meet [.uncorrectable 3 127]).P 3).bad = [127] := by decide +kernel

theorem witness_work : (runs .topk .ssu).workDone { op with mn := .topk, k := .ssu, run := some 2 } = false ∧ (ccwOf 0).isSome = true := by decide +kernel

/-- A descriptor of ring 0 undecided, and one of ring 7, after ring 3 was decided last: ring 7 is next (04 R90). -/
def undecided : State :=
  ready.modP 3 fun q => { q with turn := 3, undec := [{ ring := 0, slot := 2, fseq := 2, desc := jobDesc 0 1 }, { ring := 7, slot := 5, fseq := 1, desc := jobDesc 0 1 }] }
theorem witness_undecided : ((undecided.P 3).nextUndec).map (·.ring) = some 7 ∧ (undecided.undecided 3 7).length = 1 ∧ (ready.P 3).undec = [] ∧ (ready.P 3).cancels = [] ∧
    (((List.finRange 8).flatMap (undecided.undecided 3)).filter fun e => cancelNames 0x7005 e.1.val e.2.1 e.2.2) ≠ [] ∧ (∀ x ∈ arrived.xfers, x.live = true) := by decide +kernel
theorem test_undecided : shows (exec (.cancelDb vf3 0x7005) undecided) (fun t => (t.P 3).cancels.map (·.1)) = some [7] := by decide +kernel

/-- An image buffer with an uncorrectable error. -/
def badImage : State := admitted.modP 3 fun q => { q with imgB := { q.imgB with bad := true } }
theorem test_bad_image : shows (exec (.jobStart 3 []) badImage) (fun t => (t.P 3).excCause) = some 0x0A := by decide +kernel

/-- The doorbell page's last ring of each kind, and an offset that is no doorbell's. -/
theorem test_bar2 : shows (exec (.registerWrite vf3 0x00 8 0xFFFFFFFF00000005 .bar2) rings) (fun t => (t.P 3).jr[0].tail) = some 5 ∧
    shows (exec (.registerWrite vf3 0xF8 4 7 .bar2) rings) (fun t => (t.P 3).sr[15].head) = some 7 ∧
    shows (exec (.rcRegisterRead vf3 0 4 .bar2) { rings with readData := 9 }) (fun t => t.readData) = some 0 := by decide +kernel
theorem witness_config : up.fnHere (.pf 0) = true ∧ up.io[0].cfgField (.pf 0) .deviceId = 0x0416 ∧ ctrAt 0x4004 = some .cndExc ∧ ctrAt 0x4000 = none := by decide +kernel

/-- Partition 4 asked for its swap before partition 3 and is still validating (08 R216). -/
theorem witness_behind : ((swapIn .validating).modP 4 fun q => { q with swap := { q.swap with st := .validating } }).swapBehind 3 = false ∧
    (((swapIn .validating).modP 3 fun q => { q with swap := { q.swap with arr := 1 } }).modP 4 fun q => { q with swap := { q.swap with st := .validating } }).swapBehind 3 = true := by
  decide +kernel
/-- A step of CCLK 50 µs after the one before, and 1 ns sooner (15 R356). -/
def stepped (ns : Nat) : State := { up with clk := { up.clk with target := 16, stepAt := some 0, ns := ns } }
theorem test_cclk_gap : shows (exec .cclkStep (stepped 50000)) (fun t => t.clk.cur) = some 11 ∧ shows (exec .cclkStep (stepped 49999)) (fun t => t.clk.cur) = some 10 := by
  decide +kernel
theorem witness_holdover : (lastExch 1000000).disciplined = true ∧ (lastExch 1000000).timeMaster ≠ (lastExch 1000000).devId ∧ (lastExch 1000000).clk.st ≠ .holdover ∧
    (lastExch 1000000).clk.exchAt + 1000000 ≤ (lastExch 1000000).clk.ns := by decide +kernel

/-- A flit of the kind that is reserved is taken as one out of order. -/
theorem witness_flit_bad : crc32 (leBytes 252 0) ≠ 0 ∧ (∃ n, (some 16 : Option (Fin 545)) = some n ∧ 15 < n.val) ∧ ¬ (∃ n, (some 15 : Option (Fin 545)) = some n ∧ 15 < n.val) := by
  decide +kernel
theorem test_buffer_error : shows (exec (.flitReceived 0 0 none none true) (portIn .up true id)) (fun t => t.err.firstS4.isSome) = some true := by decide +kernel

/-- A remote TALLY of the job that went out; a transfer whose last progress is 100 ms old. -/
def sentTally : State :=
  let s := ringed [tx] [rx] []
  { s with
    ringl := { s.ringl with tallyOut := [{ xid := 8, dst := 1, job := 7, c := 2, pc := 8, w1 := 0 }] }
    clk := { s.clk with gt := BitVec.ofNat 64 (s.xferTo * 1000000) } }
theorem witness_tally_out : (sentTally.ringl.tallyOut.find? fun t => t.xid == 8 && t.dst == 1).isSome = true ∧ (sentTally.liveJob 7).isSome = true ∧
    sentTally.tx? 7 = some tx ∧ tx.progress.toNat + sentTally.xferTo * 1000000 ≤ sentTally.clk.gt.toNat ∧ sentTally.rx? 1 7 = some rx ∧
    (∀ y ∈ sentTally.ringl.tallyOut, ¬ (y.xid = hdr.xid ∧ y.dst = hdr.src)) := by decide +kernel
theorem test_tally_refused : shows (exec (.refuse { hdr with xid := 8 } 8) sentTally) (fun t => ((t.P 3).excCause, t.ringl.tallyOut.length)) = some (0x07, 0) := by decide +kernel
/-- RRECV of 512 bytes: a REQ of another length is refused for its SIZE. -/
theorem witness_req_bad : reqBad { op with mn := .rrecv } { reqQ with len := 512 } = none ∧ reqBad { op with mn := .rrecv } reqQ = some 1 ∧
    reqBad { op with mn := .rreduce } reqQ = some 2 := by decide +kernel
theorem witness_map_for : (onTime .free 0).mapFor 0 false = some 0 ∧ (onTime .free 0).mapFor 0 true = none ∧ (onTime .free 0).upperPair 0 = false ∧
    (onTime .free 0).planePair = false ∧ (2 : Nat) ≠ (onTime .free 0).gatewayId ∧ (onTime .free 0).dlk.sw[(0 : Fin 2)].leaving = false ∧
    (onTime .free 0).dlk.sw[(1 : Fin 2)].joined = false ∧ (onTime .free 0).dlk.port[(0 : Fin 4)].linked = true := by decide +kernel

theorem witness_power : (stageIn 1 id).pwr.stage = 1 ∧ (stageIn 1 id).pwr.heldByPerst = false ∧ (stageIn 1 id).pwr.rails = true ∧ (pwrIn .on id).pwr.st = .on ∧
    up.pwr.vsb = true ∧ (swIn fun w => { w with joined := true, drive := true }).dlk.sw[(0 : Fin 2)].joined = true ∧
    (swIn id).dlk.port[eastOf 0].st ≠ .retrain ∧ (swIn id).dlk.port[westOf 0].st ≠ .retrain ∧ (pwrIn .offHold id).pwr.st = .offHold := by decide +kernel
theorem test_slot_fails : ((stageIn 1 fun p => { p with bootSlot := true }).slotFails 1).pwr.recovMode = true ∧ ((stageIn 1 id).slotFails 1).pwr.bootSlot = true := by decide +kernel
/-- Level 4 rose 10 ms ago; 1 ns less; and it has been cool for 100 ms. -/
def rose (ns : Nat) : State := { hot 12161 4 with thm := { (hot 12161 4).thm with roseAt := some 0 }, clk := { up.clk with ns := ns } }
theorem test_ladder_gap : shows (exec .ladderRise (rose 10000000)) (fun t => t.thm.level) = some 5 ∧ shows (exec .ladderRise (rose 9999999)) (fun t => t.thm.level) = some 4 := by
  decide +kernel
def cool (ns : Nat) : State := { hot 0 4 with thm := { (hot 0 4).thm with coolAt := some 0 }, clk := { up.clk with ns := ns } }
theorem test_ladder_fall : shows (exec .ladderFall (cool 100000000)) (fun t => t.thm.level) = some 3 ∧ shows (exec .ladderFall (cool 99999999)) (fun t => t.thm.level) = some 4 := by
  decide +kernel
/-- A single step of the conductor halted at PC 8, whose instruction store is zero: ADD s0, s0, s0. -/
def halted : State := { run id with dbg := { up.dbg with isOpen := true, scope := 1, halt := 4 } }
theorem test_dbg_step : shows (exec (.dbgStep (.pf 0) 4) halted) (fun t => (t.cl[(2 : Fin 32)].pc, t.dbg.halt)) = some (12, 4) := by decide +kernel

/-! ## Encodings and the invariant -/

theorem witness_encode : encodeWord (.addi 2 { p := 0, rd := 21, ra := 21, imm := 0x400 }) = some (0b0001_000_10101_10101_000_010000000000, 0) ∧
    (encodeWord (.kvcmpReserve 2 { p := 0, sp := 4, dD := 0, den := false, notally := false, accum := false, dA := 1, dB := 0, dC := 0, tally := 5 })).isSome = true ∧
    dec 0b0001_000_10101_10101_000_010000000000 0 = some (.addi 2 { p := 0, rd := 21, ra := 21, imm := 0x400 }) := by decide +kernel
theorem witness_step : step State.reset = .next (tick State.reset) ∧ State.reset.fuses = Fuses.reset := ⟨rfl, rfl⟩

/-! ## The worked block of 02 (Table 2.5) -/

def workedBlock : List Machine.Num :=
  ([0x40480000, 0xC0000000, 0x3F200000, 0x3FA00000, 0xBEC00000, 0, 0x40240000, 0xBE400000] ++ List.replicate 24 0).map f32Num
theorem test_pn4_encode : (convert { target := 1, search := false, sel := 0, nanFail := false, mask := 0, source := 0 } none workedBlock).bytes
    = [0x0E, 0xC6, 0x21, 0x0F, 0x05] ++ List.replicate 12 0 := by decide +kernel
/-- Entries 6, −4, 1, 2, −1, 0, 5 and 0 at exponent 14 − 15. -/
theorem test_pn4_decode : ((readBlk fPn4 none ([0x0E, 0xC6, 0x21, 0x0F, 0x05] ++ List.replicate 12 0)).toOption.map fun b => (b.e, b.v.take 9))
    = some (-1, [6, -4, 1, 2, -1, 0, 5, 0, 0]) := by decide +kernel

end Sys2Proof.Tests
end

section
/-! PROOFS. The completions of the operations that use host memory: HRD, HWR and MCONV (02 R43, R48, R53; 05 R121, R127). -/

namespace Sys2Proof.Machine

/-! ## Operations at work and their end -/

theorem op?_id {s : State} {id : Nat} {o : Op} (h : s.op? id = some o) : o.id = id := by
  simpa using List.find?_some h

/-- A command whose accesses meet no error leaves the state as it is. -/
@[simp] theorem meet_nil (s : State) : s.meet [] = s := by
  unfold State.meet
  split <;> rfl

/-- A running operation with work left that no block being zeroed holds up is at work. -/
theorem atWork_eq_some {s : State} {id : Nat} {o : Op} {mn : EngOp} (hop : s.op? id = some o) (hmn : o.mn = mn) (hrun : o.run ≠ none)
    (hs : s.running = true) (hw : s.workDone o = false) (hz : ∀ b ∈ s.opTensors o, (s.P o.ptn).zeroing b = false) :
    s.atWork id mn = some o := by
  have hrun' : o.run.isSome = true := Option.isSome_iff_ne_none.mpr hrun
  have hz' : (s.opTensors o).any (s.P o.ptn).zeroing = false := List.any_eq_false.mpr fun b hb => by simp [hz b hb]
  simp only [State.atWork, hop, Option.filter_some, hmn, hrun', hs, hw, hz', beq_self_eq_true, Bool.not_false, Bool.and_self, if_true]

/-- Only a TDTK and an MCONV have their output still to be written once their work is done. -/
theorem workDone_eq_false {o : Op} (htdtk : o.mn ≠ .tdtk) (hmconv : o.mn ≠ .mconv) (s : State) : s.workDone o = false := by
  simp [State.workDone, htdtk, hmconv]

@[simp] theorem opEnd_some (s : State) (o : Op) (e : EngErr) : s.opEnd o (some e) = s.opFail o e := rfl

/-- An operation with nothing left to write adds its tally and is gone. -/
theorem opEnd_none {s : State} {o : Op} (h : (s.charge o).workDone o = false) : s.opEnd o none = ((s.charge o).opDone o).pumpAll := by
  simp [State.opEnd, h]

@[simp] theorem hostLen_failed (n : Nat) : hostLen .failed n = true := rfl

@[simp] theorem hostLen_data (bs : List Byte) (n : Nat) : hostLen (.data bs) n = true ↔ bs.length = n := by simp [hostLen]

/-! ## Before all an operation asked for is issued -/

theorem execHrdDone_not_issued {s : State} {id : Nat} (h : s.opIssued id = false) (d : HostRead) (m : List MemEv) :
    execHrdDone id d s m = .next s := by
  unfold execHrdDone
  split
  · rfl
  · simp [h]

theorem execHwrDone_not_issued {s : State} {id : Nat} (h : s.opIssued id = false) (m : List MemEv) : execHwrDone id s m = .next s := by
  unfold execHwrDone
  split
  · rfl
  · simp [h]

theorem execMconvDone_not_issued {s : State} {id : Nat} (h : s.opIssued id = false) (parity : Bool) (src cb : HostRead) (m : List MemEv) :
    execMconvDone id parity src cb s m = .next s := by
  unfold execMconvDone
  split
  · rfl
  · simp [h]

/-! ## HRD and HWR -/

section Issued

variable {s : State} {id : Nat} {o : Op} (hi : s.opIssued id = true)
include hi

theorem execHrdDone_illFormed (h : s.atWork id .hrd = some o) {bs : List Byte} (hl : bs.length ≠ tBytes o.dC) :
    execHrdDone id (.data bs) s = .refused .illFormed := by
  simp [execHrdDone, h, hi, hl]

theorem execHrdDone_failed (h : s.atWork id .hrd = some o) :
    execHrdDone id .failed s = .next ((s.dropXfers id).opFail o (.data 5 o.sp.toNat)) := by
  simp [execHrdDone, h, hi]

theorem execHrdDone_data (h : s.atWork id .hrd = some o) {bs : List Byte} (hl : bs.length = tBytes o.dC) :
    execHrdDone id (.data bs) s =
      .next (((s.dropXfers id).store o ((s.dropXfers id).asker o 8) o.rC o.dC 0 bs []).1.opEnd o
        ((s.dropXfers id).store o ((s.dropXfers id).asker o 8) o.rC o.dC 0 bs []).2) := by
  simp [execHrdDone, h, hi, hl]

theorem execHwrDone_issued (h : s.atWork id .hwr = some o) : execHwrDone id s = .next ((s.dropXfers id).opEnd o none) := by
  simp [execHwrDone, h, hi]

/-! ## MCONV -/

theorem execMconvDone_illFormed (h : s.atWork id .mconv = some o) {bs : List Byte}
    (ht2 : t2Of (s.operand (o.who uMge) o.rA o.dA true false) ≠ none) (hl : bs.length ≠ tBytes o.dA) (parity : Bool) (cb : HostRead) :
    execMconvDone id parity (.data bs) cb s = .refused .illFormed := by
  simp [execMconvDone, h, hi, hl, Option.isSome_iff_ne_none, ht2]

/-- With the reads that lie in T2 of the length asked for, the conversion stops at a parity error or goes on with what it got. -/
theorem execMconvDone_lengths (h : s.atWork id .mconv = some o) {w : Ccw} (hw : ccwOf o.sp.toNat = some w) {src cb : HostRead}
    (hsrc : ∀ bs : List Byte, src = .data bs → t2Of (s.operand (o.who uMge) o.rA o.dA true false) ≠ none → bs.length = tBytes o.dA)
    (hcb : ∀ bs : List Byte, cb = .data bs → s.cbT2 o ≠ none → bs.length = 128) (parity : Bool) :
    execMconvDone id parity src cb s = .next (if parity then (s.cutOp o).opFail o (.exc exData) else s.mconvGot o w src cb) := by
  have hsrc' : ((t2Of (s.operand (o.who uMge) o.rA o.dA true false)).isSome && !hostLen src (tBytes o.dA)) = false := by
    cases src with
    | failed => simp
    | data bs => simpa [Option.isSome_iff_ne_none] using hsrc bs rfl
  have hcb' : ((s.cbT2 o).isSome && !hostLen cb 128) = false := by
    cases cb with
    | failed => simp
    | data bs => simpa [Option.isSome_iff_ne_none] using hcb bs rfl
  simp [execMconvDone, h, hi, hw, hsrc', hcb']

end Issued

/-- A source in T2 whose read failed at the host fails the job at its IOVA. -/
theorem mconvGot_source_failed {s : State} {o : Op} {i : Nat} (ht2 : t2Of (s.operand (o.who uMge) o.rA o.dA true false) = some i) (w : Ccw)
    (cb : HostRead) : s.mconvGot o w .failed cb = (s.dropXfers o.id).opFail o (.data 5 i) := by
  unfold State.mconvGot
  rw [ht2]

/-- A codebook set in T2 whose read failed at the host fails the job at its IOVA, the source being at hand. -/
theorem mconvGot_book_failed {s : State} {o : Op} {i : Nat} {src : HostRead}
    (hsrc : t2Of (s.operand (o.who uMge) o.rA o.dA true false) = none ∨ src ≠ .failed) (hcb : s.cbT2 o = some i) (w : Ccw) :
    s.mconvGot o w src .failed = (s.dropXfers o.id).opFail o (.data 5 i) := by
  unfold State.mconvGot
  cases src with
  | data bs =>
    rw [hcb]
    cases t2Of (s.operand (o.who uMge) o.rA o.dA true false) <;> rfl
  | failed => rw [hcb, hsrc.resolve_right (· rfl)]

/-- With its source and its codebook set at hand, resident or read from T2, an MCONV converts. -/
theorem mconvGot_at_hand {s : State} {o : Op} {src cb : HostRead} {book : CbSet} {from_ : State → Who → Nat → Nat → Except EngErr (List Byte)}
    (hsrc : t2Of (s.operand (o.who uMge) o.rA o.dA true false) = none ∧ from_ = State.mconvSrc o ∨
      ∃ bs, t2Of (s.operand (o.who uMge) o.rA o.dA true false) ≠ none ∧ src = .data bs ∧ from_ = fun _ _ off n => .ok ((bs.drop off).take n))
    (hcb : s.cbT2 o = none ∧ book = o.cb 2 ∨ ∃ b, s.cbT2 o ≠ none ∧ cb = .data b ∧ book = some b ∧ sliceLe b 112 16 = 0) (w : Ccw) :
    s.mconvGot o w src cb = (s.dropXfers o.id).mconvEnd o w book from_ := by
  unfold State.mconvGot
  obtain ⟨ht2, rfl⟩ | ⟨bs, ht2, rfl, rfl⟩ := hsrc <;> obtain ⟨hc, rfl⟩ | ⟨b, hc, rfl, rfl, hb⟩ := hcb
  · rw [ht2, hc]
    rfl
  · obtain ⟨j, hj⟩ := Option.ne_none_iff_exists'.mp hc
    rw [ht2, hj]
    simp only [bookBad, hb, bne_self_eq_false, Bool.and_false]
    rfl
  · obtain ⟨i, hi⟩ := Option.ne_none_iff_exists'.mp ht2
    rw [hi, hc]
    rfl
  · obtain ⟨i, hi⟩ := Option.ne_none_iff_exists'.mp ht2
    obtain ⟨j, hj⟩ := Option.ne_none_iff_exists'.mp hc
    rw [hi, hj]
    simp only [bookBad, hb, bne_self_eq_false, Bool.and_false]
    rfl

/-- A conversion into a tensor in place in T2 sends its blocks out. -/
theorem mconvEnd_t2 {s : State} {o : Op} {i : Nat} (h : t2Of (s.operand (o.who uMge) o.rC o.dC false true) = some i) (w : Ccw) (book : CbSet)
    (from_ : State → Who → Nat → Nat → Except EngErr (List Byte)) :
    s.mconvEnd o w book from_ =
      (mconvT2 o w book from_ s).1.sendT2 o i (mconvT2 o w book from_ s).2.1 (mconvT2 o w book from_ s).2.2 := by
  simp [State.mconvEnd, h]

/-- A conversion into a resident tensor ends with its last block or at the one it cannot write. -/
theorem mconvEnd_resident {s : State} {o : Op} (h : t2Of (s.operand (o.who uMge) o.rC o.dC false true) = none) (w : Ccw) (book : CbSet)
    (from_ : State → Who → Nat → Nat → Except EngErr (List Byte)) :
    s.mconvEnd o w book from_ = (mconvRun o w book from_ s none).1.opEnd o (mconvRun o w book from_ s none).2 := by
  simp [State.mconvEnd, h]

/-! ## A block of a conversion -/

section Block

variable {s : State} {o : Op} {w : Ccw} {book : CbSet} {from_ : Nat → Nat → Except EngErr (List Byte)} {i : Nat}

/-- Without a selector for it a block ends the conversion (02 R48). -/
theorem mconvBlk_absent (h : w.absent book = true) : mconvBlk s o w book from_ i = .error (.data 3 (s.utaOf o o.dC (i * blkBytes w.target))) := by
  simp [mconvBlk, h]

variable (h : w.absent book = false) {bs : List Byte} {xs : List Num}
  (hsrc : from_ (srcLen w (i * blkElems w.target)) (srcLen w (blkElems w.target)) = .ok bs) (hnum : srcNums w bs (blkElems w.target) = .ok xs)
include h hsrc hnum

theorem mconvBlk_ok (hn : (convert w book xs).nanAt = none) : mconvBlk s o w book from_ i = .ok (convert w book xs) := by
  simp [mconvBlk, h, hsrc, hnum, hn]

/-- A NaN that fails the conversion is named by its index in the source (02 R53). -/
theorem mconvBlk_nan {k : Nat} (hn : (convert w book xs).nanAt = some k) :
    mconvBlk s o w book from_ i = .error (.data 2 (i * blkElems w.target + k)) := by
  simp [mconvBlk, h, hsrc, hnum, hn]

end Block

/-- Settles O34: each clause is one of the rules above, for the operation that the command finds at work. -/
theorem dmaOperations : Obligations.DmaOperations := by
  unfold Obligations.DmaOperations
  refine ⟨?hostDma, ?notIssued, ?mconv, ?block⟩
  case hostDma =>
    intro s id o hop hrun hs hi hz u
    refine ⟨fun hmn => ?hrd, fun hmn => ?hwr⟩
    case hrd =>
      have hw : ∀ t : State, t.workDone o = false := workDone_eq_false (by simp [hmn]) (by simp [hmn])
      have hat : s.atWork id .hrd = some o := atWork_eq_some hop hmn hrun hs (hw s) hz
      refine ⟨execHrdDone_failed hi hat, fun bs => ⟨fun hl => ⟨fun t ht => ?_, fun t e ht => ?_⟩, execHrdDone_illFormed hi hat⟩⟩
      · rw [exec_hrdDone, execHrdDone_data hi hat hl, ht, opEnd_none (hw _)]
      · rw [exec_hrdDone, execHrdDone_data hi hat hl, ht, opEnd_some]
    case hwr =>
      have hw : ∀ t : State, t.workDone o = false := workDone_eq_false (by simp [hmn]) (by simp [hmn])
      rw [exec_hwrDone, execHwrDone_issued hi (atWork_eq_some hop hmn hrun hs (hw s) hz), opEnd_none (hw _)]
  case notIssued =>
    exact fun s id o _ hi m => ⟨fun d => execHrdDone_not_issued hi d m, execHwrDone_not_issued hi m, fun b d e => execMconvDone_not_issued hi b d e m⟩
  case mconv =>
    intro s id o src cb w hop hrun hs hi hmn hwd hz hccw k t2 u
    have hat : s.atWork id .mconv = some o := atWork_eq_some hop hmn hrun hs hwd hz
    refine ⟨fun bs hsrc ht2 hl b => hsrc ▸ execMconvDone_illFormed hi hat ht2 hl b cb, fun hsrc hcb => ?_⟩
    have hdone : ∀ b, exec (.mconvDone id b src cb []) s = _ := execMconvDone_lengths hi hat hccw hsrc hcb
    have hgot : exec (.mconvDone id false src cb []) s = .next (s.mconvGot o w src cb) := hdone false
    have hu : s.dropXfers o.id = u := by rw [op?_id hop]
    refine ⟨hdone true, fun i ht2 hf => ?_, fun i hsf hc hf => ?_, fun book from_ hfrom hbook => ?_⟩
    · rw [hgot, hf, mconvGot_source_failed ht2, hu]
    · rw [hgot, hf, mconvGot_book_failed hsf hc, hu]
    · rw [mconvGot_at_hand hfrom hbook, hu] at hgot
      refine ⟨fun i hout => ?_, fun hout => ⟨fun t e ht => ?_, fun t ht hleft => ?_⟩⟩
      · rw [hgot, mconvEnd_t2 hout]
      · rw [hgot, mconvEnd_resident hout, ht, opEnd_some]
      · rw [hgot, mconvEnd_resident hout, ht, opEnd_none hleft]
  case block =>
    exact fun s o w book from_ i => ⟨mconvBlk_absent, fun h bs xs hsrc hnum => ⟨mconvBlk_ok h hsrc hnum, fun k => mconvBlk_nan h hsrc hnum⟩⟩

end Sys2Proof.Machine
end

section
/-! PROOFS. Rules of the state that the proofs about the host link share: fields that start at bit 0, changes that agree where they act, and what a
function that answers, or owns the global blocks, tells of it (03 R58, R59). -/

namespace Sys2Proof.Machine

/-- A field that starts at bit 0 is a remainder. -/
theorem fld_zero {n : Nat} (x : BitVec n) (w : Nat) : fld x 0 w = x.toNat % 2 ^ w := by simp [fld, bits]

/-- Two changes that agree on the block they find change it alike. -/
theorem modP_congr {s : State} {p : Fin 16} {f g : Ptn → Ptn} (h : f (s.P p) = g (s.P p)) : s.modP p f = s.modP p g := by
  show { s with ptn := s.ptn.set p (f (s.P p)) } = { s with ptn := s.ptn.set p (g (s.P p)) }
  rw [h]

/-- A change that leaves the block it finds as it was changes nothing. -/
theorem modP_eq_self {s : State} {p : Fin 16} {f : Ptn → Ptn} (h : f (s.P p) = s.P p) : s.modP p f = s := by
  show { s with ptn := s.ptn.set p (f (s.P p)) } = s
  rw [h]
  show { s with ptn := s.ptn.set p s.ptn[p] } = s
  rw [vec_set_get]

/-- A change of one partition's block leaves every other block and the rest of the device. -/
theorem onlyP_modP (s : State) (p : Fin 16) (f : Ptn → Ptn) : OnlyP p s (s.modP p f) := ⟨modP_frame s p f, fun _ h => modP_other s p _ f h⟩

theorem modJr_congr {q : Ptn} {r : Fin 8} {f g : JRing → JRing} (h : f q.jr[r] = g q.jr[r]) : q.modJr r f = q.modJr r g := by
  simp only [Ptn.modJr, h]

theorem modCr_congr {q : Ptn} {r : Fin 8} {f g : PRing → PRing} (h : f q.cr[r] = g q.cr[r]) : q.modCr r f = q.modCr r g := by
  simp only [Ptn.modCr, h]

theorem modSr_congr {q : Ptn} {r : Fin 16} {f g : PRing → PRing} (h : f q.sr[r] = g q.sr[r]) : q.modSr r f = q.modSr r g := by
  simp only [Ptn.modSr, h]

theorem fnAlive_of_reach {s : State} {fn : Fn} {p : Fin 16} (h : s.reach fn p = true) : s.fnAlive fn = true := by
  simp only [State.reach, Bool.and_eq_true] at h
  exact h.1.1

theorem up_of_reach {s : State} {fn : Fn} {p : Fin 16} (h : s.reach fn p = true) : s.up = true := by
  simp only [State.reach, Bool.and_eq_true] at h
  exact h.1.2

theorem fnAlive_of_owner {s : State} {fn : Fn} (h : s.owner fn = true) : s.fnAlive fn = true := by
  simp only [State.owner, Bool.and_eq_true] at h
  exact h.1.1

/-- Through a VF a partition is reached by its own number, over the I/O die it is bound to. -/
theorem reach_vf {s : State} {io : Fin 2} {n p : Fin 16} (h : s.reach (.vf io n) p = true) : n = p ∧ s.ioOf p = some io := by
  simp only [State.reach, Bool.and_eq_true, beq_iff_eq] at h
  exact h.2

end Sys2Proof.Machine
end

section
/-! PROOFS. Doorbells (03 R58, R61, R66, R75, R76). -/

namespace Sys2Proof.Machine

section Doorbell

variable {s : State} {io : Fin 2} {n : Fin 16} (ha : s.fnAlive (.vf io n) = true) (hu : s.up = true)
include ha hu

/-- Through the bound VF a doorbell acts. -/
theorem doorbell_bound (hb : s.ioOf n = some io) (f : State → Fin 16 → State) : s.doorbell (.vf io n) f = f s n := by
  simp [State.doorbell, ha, hu, hb]

/-- Through the other VF of a bound partition a doorbell is discarded and counted. -/
theorem doorbell_unbound {b : Fin 2} (hb : s.ioOf n = some b) (hne : b ≠ io) (f : State → Fin 16 → State) :
    s.doorbell (.vf io n) f = s.bump n .hlDbDrop 1 := by
  simp [State.doorbell, ha, hu, hb, hne, State.dbDrop]

variable (hb : s.ioOf n = some io) (v : W32)
include hb

theorem execJrTailDb_enabled {r : Fin 8} (he : (s.P n).jr[r].en = true) : execJrTailDb (.vf io n) r v s =
    .next (s.modP n fun q => q.modJr r fun j => { j with tail := BitVec.ofNat 12 (v.toNat % 4096 % (64 * 2 ^ j.size.toNat)) }) := by
  simp only [execJrTailDb, doorbell_bound ha hu hb, he, if_true, fld_zero]
  rfl

theorem execJrTailDb_disabled {r : Fin 8} (he : (s.P n).jr[r].en = false) : execJrTailDb (.vf io n) r v s = .next (s.bump n .hlDbDrop 1) := by
  simp only [execJrTailDb, doorbell_bound ha hu hb, he, Bool.false_eq_true, if_false]
  rfl

theorem execCrHeadDb_enabled {r : Fin 8} (he : (s.P n).cr[r].en = true) : execCrHeadDb (.vf io n) r v s =
    .next (s.modP n fun q => q.modCr r fun c => { c with head := BitVec.ofNat 12 (v.toNat % 4096 % (64 * 2 ^ c.size.toNat)) }) := by
  simp only [execCrHeadDb, doorbell_bound ha hu hb, fld_zero]
  exact congrArg _ (modP_congr (modCr_congr (if_pos he)))

theorem execSrHeadDb_enabled {r : Fin 16} (he : (s.P n).sr[r].en = true) : execSrHeadDb (.vf io n) r v s =
    .next ((s.modP n fun q => q.modSr r fun c => { c with head := BitVec.ofNat 12 (v.toNat % 4096 % (64 * 2 ^ c.size.toNat)) }).pump n) := by
  simp only [execSrHeadDb, doorbell_bound ha hu hb, fld_zero]
  exact congrArg (fun t : State => (.next (t.pump n) : Out)) (modP_congr (modSr_congr (if_pos he)))

theorem execErHeadDb_bound : execErHeadDb (.vf io n) v s =
    .next ((s.modP n fun q => { q with er := { q.er with head := BitVec.ofNat 10 (v.toNat % 256) } }).pump n) := by
  simp only [execErHeadDb, doorbell_bound ha hu hb, fld_zero]
  rfl

end Doorbell

/-- The owner function moves the consumer index of the global ring, and what waited for a slot is written. -/
theorem execGerHeadDb_owner {s : State} {fn : Fn} (h : s.owner fn = true) (v : W32) : execGerHeadDb fn v s =
    .next ({ s with err := { s.err with ger := { s.err.ger with head := BitVec.ofNat 10 (v.toNat % 1024) } } }.pumpAll) := by
  simp only [execGerHeadDb, h, if_true, fld_zero]
  rfl

/-- Settles O17: each doorbell as its rule above has it through the bound VF, and the count of `doorbell_unbound` through the other one. -/
theorem doorbells : Obligations.Doorbells := by
  unfold Obligations.Doorbells
  refine ⟨fun s io n v ha hu => ⟨fun hb => ?bound, fun b hb hne => ?unbound⟩, fun s fn v h => execGerHeadDb_owner h v⟩
  case bound =>
    exact ⟨fun r => ⟨execJrTailDb_enabled ha hu hb v, execJrTailDb_disabled ha hu hb v, execCrHeadDb_enabled ha hu hb v⟩,
      fun r => execSrHeadDb_enabled ha hu hb v, execErHeadDb_bound ha hu hb v⟩
  case unbound =>
    have hdrop : ∀ f : State → Fin 16 → State, s.doorbell (.vf io n) f = s.bump n .hlDbDrop 1 := doorbell_unbound ha hu hb hne
    exact ⟨fun r => ⟨congrArg _ (hdrop _), congrArg _ (hdrop _)⟩, fun r => congrArg _ (hdrop _), congrArg _ (hdrop _), congrArg _ (hdrop _),
      congrArg _ (hdrop _)⟩

end Sys2Proof.Machine
end

section
/-! PROOFS. Enabling and disabling rings (03 R77, R78, R81, R523; 18 R435). -/

namespace Sys2Proof.Machine

/-! ## One ring of a partition -/

theorem modJr_same (q : Ptn) (r : Fin 8) (f : JRing → JRing) : (q.modJr r f).jr[r] = f q.jr[r] := vec_set_self ..
theorem modJr_other (q : Ptn) (r x : Fin 8) (f : JRing → JRing) (h : x ≠ r) : (q.modJr r f).jr[x] = q.jr[x] := vec_set_ne _ _ _ _ h
theorem modJr_modJr (q : Ptn) (r : Fin 8) (f g : JRing → JRing) : (q.modJr r f).modJr r g = q.modJr r fun j => g (f j) := by
  simp [Ptn.modJr]

theorem modCr_same (q : Ptn) (r : Fin 8) (f : PRing → PRing) : (q.modCr r f).cr[r] = f q.cr[r] := vec_set_self ..
theorem modCr_other (q : Ptn) (r x : Fin 8) (f : PRing → PRing) (h : x ≠ r) : (q.modCr r f).cr[x] = q.cr[x] := vec_set_ne _ _ _ _ h
theorem modCr_modCr (q : Ptn) (r : Fin 8) (f g : PRing → PRing) : (q.modCr r f).modCr r g = q.modCr r fun c => g (f c) := by
  simp [Ptn.modCr]

theorem modSr_same (q : Ptn) (r : Fin 16) (f : PRing → PRing) : (q.modSr r f).sr[r] = f q.sr[r] := vec_set_self ..
theorem modSr_other (q : Ptn) (r x : Fin 16) (f : PRing → PRing) (h : x ≠ r) : (q.modSr r f).sr[x] = q.sr[x] := vec_set_ne _ _ _ _ h
theorem modSr_modSr (q : Ptn) (r : Fin 16) (f g : PRing → PRing) : (q.modSr r f).modSr r g = q.modSr r fun c => g (f c) := by
  simp [Ptn.modSr]

/-! ## Enabling -/

/-- A completion or stream ring that is enabled afresh (03 R77, R523). -/
def PRing.fresh (c : PRing) (z : BitVec 3) : PRing :=
  { base := c.base, en := true, size := if z = 7 then c.size else z, stall := false, wfail := false, tail := 0, phase := true, head := 0, resv := 0
    clearing := false, outq := [] }

/-- A job ring that is enabled afresh (03 R77, R81). -/
def JRing.fresh (j : JRing) (z : BitVec 3) : JRing :=
  { j with en := true, halt := false, head := 0, tail := 0, fetched := 0, size := if z = 7 then j.size else z }

theorem PRing.enable_resized {c : PRing} (h : c.en = false) (z : BitVec 3) :
    (if c.en then c else { c with size := newSize c.size z }).enable = c.fresh z := by
  simp [h, PRing.enable, newSize, PRing.fresh]

theorem JRing.enable_resized {j : JRing} (h : j.en = false) (z : BitVec 3) :
    (if j.en then j else { j with size := newSize j.size z }).enable = j.fresh z := by
  simp [h, JRing.enable, newSize, JRing.fresh]

/-- A batch in flight of a job ring no longer moves the ring's head. -/
def Xfer.retire (x : Xfer) (p : Fin 16) (r : Fin 8) : Xfer := if x.ptn = p ∧ x.chan = 5 ∧ x.ring = .jr r then { x with live := false } else x

theorem Xfer.retire_live (x : Xfer) (p : Fin 16) (r : Fin 8) : { x.retire p r with live := true } = { x with live := true } := by
  unfold Xfer.retire
  split <;> rfl

section Enable

variable {s : State} {p : Fin 16} (z : BitVec 3)

theorem enableRing_jr {r : Fin 8} (h : (s.P p).jr[r].en = false) : (s.sizeRing p (.jr r) z).enableRing p (.jr r) =
    { s.modP p fun q => q.modJr r fun j => j.fresh z with xfers := s.xfers.map fun x => x.retire p r } := by
  have hen : ((s.sizeRing p (.jr r) z).P p).jr[r].en = false := by
    simp only [State.sizeRing, modP_same, modJr_same, h, Bool.false_eq_true, if_false]
  have hmod : (s.sizeRing p (.jr r) z).modP p (fun q => q.modJr r JRing.enable) = s.modP p fun q => q.modJr r fun j => j.fresh z := by
    simp only [State.sizeRing, modP_modP, modJr_modJr]
    exact modP_congr (modJr_congr (JRing.enable_resized h z))
  simp only [State.enableRing, hen, hmod, Bool.not_false, if_true]
  rfl

theorem enableRing_cr {r : Fin 8} (h : (s.P p).cr[r].en = false) :
    (s.sizeRing p (.cr r) z).enableRing p (.cr r) = s.modP p fun q => q.modCr r fun c => c.fresh z := by
  simp only [State.sizeRing, State.enableRing, modP_modP, modCr_modCr]
  exact modP_congr (modCr_congr (PRing.enable_resized h z))

theorem enableRing_sr {r : Fin 16} (h : (s.P p).sr[r].en = false) :
    (s.sizeRing p (.sr r) z).enableRing p (.sr r) = s.modP p fun q => q.modSr r fun c => c.fresh z := by
  simp only [State.sizeRing, State.enableRing, modP_modP, modSr_modSr]
  exact modP_congr (modSr_congr (PRing.enable_resized h z))

theorem enableRing_er (h : (s.P p).er.en = false) : (s.sizeRing p .er z).enableRing p .er =
    s.modP p fun q => { q with er := { q.er with en := true, tail := 0, head := 0, phase := true, wfail := false } } := by
  have her : (s.P p).er.enable = { (s.P p).er with en := true, tail := 0, head := 0, phase := true, wfail := false } := by
    simp [ErrRing.enable, h]
  simp only [State.sizeRing, State.enableRing, State.modEr]
  exact modP_congr (by simp only [her])

end Enable

theorem execRingEnable_reach {s : State} {fn : Fn} {p : Fin 16} {r : RingRef} {z : BitVec 3} {t : State} (h : s.reachRing fn p r = true)
    (ht : (s.sizeRing p r z).enableRing p r = t) : execRingEnable fn p r z s = .next t.pumpAll := by
  simp only [execRingEnable, h, if_true, ht]

/-! ## Disabling -/

theorem execRingDisable_reach {s : State} {fn : Fn} {p : Fin 16} {r : RingRef} {t : State} (h : s.reachRing fn p r = true)
    (ht : s.disableRing p r = t) : execRingDisable fn p r s = .next t.pumpAll := by
  simp only [execRingDisable, h, if_true, ht]

/-- A ring with nothing left to write stops at once. -/
theorem PRing.disable_idle {c : PRing} (he : c.en = true) (hr : c.resv = 0) (ho : c.outq = []) :
    c.disable = { c with en := false, clearing := false } := by
  simp [PRing.disable, PRing.tryClear, he, hr, ho]

/-- A ring with something left to write reads EN 1 until it is written (03 R78). -/
theorem PRing.disable_busy {c : PRing} (he : c.en = true) (h : c.resv ≠ 0 ∨ c.outq ≠ []) : c.disable = { c with clearing := true } := by
  have hbusy : ¬ (c.resv = 0 ∧ c.outq = []) := fun e => h.elim (· e.1) (· e.2)
  simp [PRing.disable, PRing.tryClear, he, hbusy]

theorem disableRing_cr {s : State} {p : Fin 16} {r : Fin 8} {f : PRing → PRing} (h : (s.P p).cr[r].disable = f (s.P p).cr[r]) :
    s.disableRing p (.cr r) = s.modP p fun q => q.modCr r f := by
  simp only [State.disableRing]
  exact modP_congr (modCr_congr h)

theorem disableRing_sr {s : State} {p : Fin 16} {r : Fin 16} {f : PRing → PRing} (h : (s.P p).sr[r].disable = f (s.P p).sr[r]) :
    s.disableRing p (.sr r) = s.modP p fun q => q.modSr r f := by
  simp only [State.disableRing]
  exact modP_congr (modSr_congr h)

/-! ## Disabling an error ring -/

theorem modEr_modEr (s : State) (e : ErRef) (f g : ErrRing → ErrRing) : (s.modEr e f).modEr e g = s.modEr e fun r => g (f r) := by
  cases e with
  | none => rfl
  | some p => simp only [State.modEr, modP_modP]

/-- A change that leaves the error ring it finds as it was changes nothing. -/
theorem modEr_eq_self {s : State} {e : ErRef} {f : ErrRing → ErrRing} (h : f (s.er e) = s.er e) : s.modEr e f = s := by
  cases e with
  | none =>
    have h' : f s.err.ger = s.err.ger := h
    simp only [State.modEr, h']
  | some p =>
    have h' : f (s.P p).er = (s.P p).er := h
    exact modP_eq_self (f := fun q => { q with er := f q.er }) (by simp only [h'])

/-- The state with another on-chip log. -/
def State.withLog (s : State) (l : Vector (BitVec 256) 64) : State := { s with err := { s.err with log := l } }

@[simp] theorem withLog_P (s : State) (l : Vector (BitVec 256) 64) (p : Fin 16) : (s.withLog l).P p = s.P p := rfl

theorem modEr_P_same (s : State) (p : Fin 16) (f : ErrRing → ErrRing) : (s.modEr (some p) f).P p = { s.P p with er := f (s.P p).er } :=
  modP_same ..

theorem modEr_P_other (s : State) (p q : Fin 16) (f : ErrRing → ErrRing) (h : q ≠ p) : (s.modEr (some p) f).P q = s.P q := modP_other _ _ _ _ h

theorem withLog_modEr (s : State) (e : ErRef) (f : ErrRing → ErrRing) (l : Vector (BitVec 256) 64) :
    (s.withLog l).modEr e f = (s.modEr e f).withLog l := by
  cases e <;> rfl

/-- Marking records as dropped changes the on-chip log alone. -/
theorem each_markDropped (s : State) (e : ErRef) (recs : List (BitVec 256)) : ∃ l, (s.each recs fun s b => s.markDropped e b) = s.withLog l := by
  induction recs generalizing s with
  | nil => exact ⟨s.err.log, rfl⟩
  | cons b rest ih =>
    obtain ⟨l, hl⟩ := ih (s.markDropped e b)
    exact ⟨l, hl⟩

/-- A record lost by a disabled ring changes the ring's overflow counter and the on-chip log alone. -/
theorem dropLate_disabled (s : State) (e : ErRef) (sev : Nat) (recs : List (BitVec 256)) :
    ∃ o l, s.dropLate e sev recs true = (s.modEr e fun r => { r with ovf := o }).withLog l := by
  have hmod : (s.modEr e fun r => { r with ovf := satAdd r.ovf 1 }) = s.modEr e fun r => { r with ovf := satAdd (s.er e).ovf 1 } := by
    cases e <;> rfl
  unfold State.dropLate
  simp only [hmod]
  split
  · obtain ⟨l, hl⟩ := each_markDropped (s.modEr e fun r => { r with ovf := satAdd (s.er e).ovf 1 }) e recs
    exact ⟨_, l, hl⟩
  · exact ⟨_, (s.modEr e fun r => { r with ovf := satAdd (s.er e).ovf 1 }).err.log, rfl⟩

theorem each_dropLate_disabled (s : State) (e : ErRef) (old : List WaitRec) :
    ∃ o l, (s.each old fun s w => s.dropLate e w.sev w.recs true) = (s.modEr e fun r => { r with ovf := o }).withLog l := by
  induction old generalizing s with
  | nil =>
    refine ⟨(s.er e).ovf, s.err.log, ?_⟩
    rw [modEr_eq_self (s := s) (e := e) rfl]
    rfl
  | cons w rest ih =>
    obtain ⟨o, l, h⟩ := dropLate_disabled s e w.sev w.recs
    obtain ⟨o', l', h'⟩ := ih (s.dropLate e w.sev w.recs true)
    refine ⟨o', l', h'.trans ?_⟩
    rw [h, withLog_modEr, modEr_modEr]
    rfl

/-- What waited in a disabled ring is dropped: the queue is empty, and the overflow counter and the on-chip log are all else that changes. -/
theorem dropQueue_disabled (s : State) (e : ErRef) :
    ∃ o l, s.dropQueue e true = (s.modEr e fun r => { r with waitq := [], ovf := o }).withLog l := by
  obtain ⟨o, l, h⟩ := each_dropLate_disabled (s.modEr e fun r => { r with waitq := [] }) e (s.er e).waitq
  exact ⟨o, l, h.trans (by rw [modEr_modEr])⟩

theorem dropQueue_empty {s : State} {e : ErRef} (h : (s.er e).waitq = []) (d : Bool) : s.dropQueue e d = s := by
  have hmod : (s.modEr e fun r => { r with waitq := [] }) = s := modEr_eq_self (by rw [← h])
  simp only [State.dropQueue, h, hmod]
  rfl

/-- With no transfer of a partition under way no fault of it waits for a record. -/
theorem promoteFault_idle {s : State} {p : Fin 16} (h : ∀ x ∈ s.xfers, x.ptn ≠ p) : s.promoteFault p = s := by
  have hnone : (s.xfers.filter fun x => x.ptn == p && x.unrec.isSome) = [] := List.filter_eq_nil_iff.mpr fun x hx => by simp [h x hx]
  unfold State.promoteFault promoteLoop
  split
  · rw [hnone]; rfl
  · rfl

/-- An error ring that stops: its EN reads 0, and what waited in it is dropped. -/
def State.erStop (s : State) (e : ErRef) : State := (s.modEr e fun r => { r with en := false }).dropQueue e true

theorem erStop_eq (s : State) (e : ErRef) : ∃ o l, s.erStop e = (s.modEr e fun r => { r with en := false, waitq := [], ovf := o }).withLog l := by
  obtain ⟨o, l, h⟩ := dropQueue_disabled (s.modEr e fun r => { r with en := false }) e
  exact ⟨o, l, h.trans (by rw [modEr_modEr])⟩

theorem erStop_empty {s : State} {e : ErRef} (h : (s.er e).waitq = []) : s.erStop e = s.modEr e fun r => { r with en := false } := by
  refine dropQueue_empty ?_ true
  cases e with
  | none => exact h
  | some p => exact (congrArg (fun q : Ptn => q.er.waitq) (modEr_P_same s p _)).trans h

/-- A partition error ring is disabled at once; with no transfer of the partition under way only what waited goes. -/
theorem erDisable_some {s : State} {p : Fin 16} (he : (s.P p).er.en = true) (hx : ∀ x ∈ s.xfers, x.ptn ≠ p) :
    s.erDisable (some p) = s.erStop (some p) := by
  have he' : (s.er (some p)).en = true := he
  obtain ⟨o, l, h⟩ := erStop_eq s (some p)
  have hxs : (s.erStop (some p)).xfers = s.xfers := by rw [h]; rfl
  have hfilter : ((s.erStop (some p)).xfers.filter fun x => !(x.ptn == p && x.chan == 10)) = (s.erStop (some p)).xfers :=
    List.filter_eq_self.mpr fun x hm => by simp [hx x (hxs ▸ hm)]
  have hdef : s.erDisable (some p) =
      { s.erStop (some p) with xfers := (s.erStop (some p)).xfers.filter fun x => !(x.ptn == p && x.chan == 10) }.promoteFault p := if_pos he'
  rw [hdef, hfilter]
  exact promoteFault_idle (hxs ▸ hx)

theorem erDisable_none {s : State} (he : s.err.ger.en = true) : s.erDisable none = s.erStop none := if_pos he

theorem execErrorRingDisable_reach {s : State} {fn : Fn} {p : Fin 16} (h : s.reach fn p = true) :
    execErrorRingDisable fn (some p) s = .next (s.erDisable (some p)).pumpAll :=
  congrArg Host.Outcome.next (if_pos h)

theorem execErrorRingDisable_owner {s : State} {fn : Fn} (h : s.owner fn = true) :
    execErrorRingDisable fn none s = .next (s.erDisable none).pumpAll :=
  congrArg Host.Outcome.next (if_pos h)

/-- Settles O18: enabling by the equations of `enableRing`, disabling by those of `PRing.disable` and `erStop`. -/
theorem ringControl : Obligations.RingControl := by
  unfold Obligations.RingControl
  refine ⟨fun s fn p z hr => ⟨fun r he => ?jrOn, fun r he => ?crOn, fun r he => ?srOn, fun he => ?erOn⟩,
    ⟨fun s fn p hr => ⟨fun r => ⟨?jrOff, fun he => ⟨fun h => ?crIdle, fun h => ?crBusy⟩⟩, fun r he hv => ⟨fun ho => ?srIdle, fun ho => ?srBusy⟩,
      fun he hx => ?erOff⟩, fun s fn ho he => ?gerOff⟩⟩
  case jrOn =>
    have hp : (s.modP p fun q => q.modJr r fun j => j.fresh z).P p = (s.P p).modJr r fun j => j.fresh z := modP_same ..
    refine ⟨_, execRingEnable_reach (r := .jr r) hr (enableRing_jr z he), rfl,
      ⟨rfl, fun q hq => modP_other s p q (fun q => q.modJr r fun j => j.fresh z) hq⟩, ?_, fun x hx => ?_, ?_, ?_⟩
    · exact congrArg (fun q : Ptn => { q with jr := (s.P p).jr }) hp
    · exact (congrArg (fun q : Ptn => q.jr[x]) hp).trans (modJr_other _ _ _ _ hx)
    · exact (congrArg (fun q : Ptn => q.jr[r]) hp).trans (modJr_same ..)
    · simp only [List.map_map]
      exact List.map_congr_left fun x _ => Xfer.retire_live x p r
  case crOn =>
    refine ⟨_, execRingEnable_reach (r := .cr r) hr (enableRing_cr z he), onlyP_modP .., ?_, fun x hx => ?_, ?_⟩ <;> rw [modP_same]
    · rfl
    · exact modCr_other _ _ _ _ hx
    · exact modCr_same ..
  case srOn =>
    refine ⟨_, execRingEnable_reach (r := .sr r) hr (enableRing_sr z he), onlyP_modP .., ?_, fun x hx => ?_, ?_⟩ <;> rw [modP_same]
    · rfl
    · exact modSr_other _ _ _ _ hx
    · exact modSr_same ..
  case erOn => exact execRingEnable_reach (r := .er) hr (enableRing_er z he)
  case jrOff => exact execRingDisable_reach (r := .jr r) hr rfl
  case crIdle => exact execRingDisable_reach (r := .cr r) hr (disableRing_cr (PRing.disable_idle he h.1 h.2))
  case crBusy => exact execRingDisable_reach (r := .cr r) hr (disableRing_cr (PRing.disable_busy he h))
  case srIdle => exact execRingDisable_reach (r := .sr r) hr (disableRing_sr (PRing.disable_idle he hv ho))
  case srBusy => exact execRingDisable_reach (r := .sr r) hr (disableRing_sr (PRing.disable_busy he (.inr ho)))
  case erOff =>
    obtain ⟨o, l, h⟩ := erStop_eq s (some p)
    have hp : (s.erStop (some p)).P p = { s.P p with er := { (s.P p).er with en := false, waitq := [], ovf := o } } := by
      rw [h, withLog_P, modEr_P_same]
    refine ⟨s.erStop (some p), (execErrorRingDisable_reach hr).trans (by rw [erDisable_some he hx]), ?_, fun q hq => ?_, ?_, ?_, ?_,
      fun hq => erStop_empty hq⟩
    · rw [h]; rfl
    · rw [h, withLog_P, modEr_P_other s p q _ hq]
    · rw [hp]
    · rw [hp]
    · rw [h]; rfl
  case gerOff =>
    obtain ⟨o, l, h⟩ := erStop_eq s none
    refine ⟨s.erStop none, (execErrorRingDisable_owner ho).trans (by rw [erDisable_none he]), ?_, ?_, fun hq => erStop_empty hq⟩
    · rw [h]; rfl
    · rw [h]; rfl

end Sys2Proof.Machine
end

section
/-! PROOFS. Host links down, lost and up, PERST1#, and the PCIe state of functions (03 R56, R80, R82, R83; 18 R436; 20 R466). -/

namespace Sys2Proof.Machine

/-- Two changes that agree on the I/O die they find change it alike. -/
theorem modIo_congr {s : State} {io : Fin 2} {f g : IoDie → IoDie} (h : f s.io[io] = g s.io[io]) : s.modIo io f = s.modIo io g := by
  simp only [State.modIo, h]

/-- A change that does nothing for any key of a list does nothing. -/
theorem each_eq_self {α : Type} {s : State} {l : List α} {f : State → α → State} (h : ∀ a ∈ l, f s a = s) : s.each l f = s := by
  induction l with
  | nil => rfl
  | cons a t ih =>
    show (f s a).each t f = s
    rw [h a (by simp)]
    exact ih fun b hb => h b (by simp [hb])

/-! ## The PCIe state of the functions of an I/O die -/

/-- What setting the places of a list leaves at each place. -/
theorem foldl_set_get {α : Type} {n m : Nat} (x : α) (at_ : Fin n → Fin m) (l : List (Fin n)) (v : Vector α m) (j : Fin m) :
    (l.foldl (fun v i => v.set (at_ i) x) v)[j] = if j ∈ l.map at_ then x else v[j] := by
  induction l generalizing v with
  | nil => simp
  | cons i t ih =>
    rw [List.foldl_cons, ih]
    by_cases hj : j = at_ i
    · simp [hj]
    · simp only [List.map_cons, List.mem_cons, hj, false_or, vec_set_ne v (at_ i) j x hj]

/-- Every VF's place of a vector is set, and the PF's is left. -/
def setVfs {α : Type} (v : Vector α 17) (x : α) : Vector α 17 := (List.finRange 16).foldl (fun v i => v.set i.succ x) v

theorem setVfs_pf {α : Type} (v : Vector α 17) (x : α) : (setVfs v x)[0] = v[0] :=
  (foldl_set_get x Fin.succ _ v 0).trans (if_neg (by simp [Fin.succ_ne_zero]))

theorem setVfs_set_pf {α : Type} (v : Vector α 17) (x : α) : (setVfs v x).set 0 x = Vector.replicate 17 x := by
  ext j hj
  rw [Vector.getElem_replicate]
  obtain ⟨i, hi⟩ | h0 : (∃ i : Fin 16, i.succ = ⟨j, hj⟩) ∨ j = 0 := by
    rcases Nat.eq_zero_or_pos j with h | h
    · exact .inr h
    · exact .inl ⟨⟨j - 1, by omega⟩, Fin.ext (by simp; omega)⟩
  · rw [Vector.getElem_set_ne _ _ (by rintro rfl; exact Fin.succ_ne_zero i (hi.trans rfl))]
    exact (foldl_set_get x Fin.succ _ v ⟨j, hj⟩).trans (if_pos (by simp [← hi]))
  · subst h0; simp

theorem foldl_clearFn (l : List (Fin 16)) (d : IoDie) : l.foldl (fun d i => d.clearFn i.succ) d =
    { d with bme := l.foldl (fun v i => v.set i.succ false) d.bme, relaxed := l.foldl (fun v i => v.set i.succ true) d.relaxed
             mps := l.foldl (fun v i => v.set i.succ 0) d.mps, mrrs := l.foldl (fun v i => v.set i.succ 2) d.mrrs
             d3 := l.foldl (fun v i => v.set i.succ false) d.d3 } := by
  induction l generalizing d with
  | nil => rfl
  | cons i t ih => rw [List.foldl_cons, ih]; rfl

theorem clearVfs_eq (d : IoDie) : d.clearVfs = { d with
    sriov := false, bme := setVfs d.bme false, relaxed := setVfs d.relaxed true, mps := setVfs d.mps 0, mrrs := setVfs d.mrrs 2
    d3 := setVfs d.d3 false } := foldl_clearFn _ _

/-- A PF's reset takes every function of its die to its reset values. -/
theorem resetFn_pf (d : IoDie) (io : Fin 2) : d.resetFn (.pf io) = { d with
    sriov := false, bme := Vector.replicate 17 false, relaxed := Vector.replicate 17 true, mps := Vector.replicate 17 0
    mrrs := Vector.replicate 17 2, d3 := Vector.replicate 17 false } := by
  have h : d.resetFn (.pf io) = d.clearVfs.clearFn 0 := rfl
  rw [h, clearVfs_eq]
  simp only [IoDie.clearFn, Fin.val_zero, setVfs_set_pf]

/-! ## Links -/

/-- A link that goes down, as its I/O die shows it. -/
theorem linkDown_up {s : State} {io : Fin 2} (h : s.io[io].link = true) :
    s.linkDown io = s.modIo io fun d => { d with link := false, width := 0, rate := 0, downAt := some s.clk.gt } :=
  modIo_congr (if_pos h)

/-- Whatever state it was in, a link that leaves L0 is down. -/
theorem linkDown_link (s : State) (io : Fin 2) : (s.linkDown io).io[io].link = false := by
  unfold State.linkDown
  rw [modIo_same]
  split
  · rfl
  · next h => simpa using h

theorem execLinkLossTimeout_early {s : State} {io : Fin 2} {t : W64} (hd : s.io[io].downAt = some t)
    (h : s.clk.gt.toNat < t.toNat + 100000000) : execLinkLossTimeout io s = .next s := by
  unfold execLinkLossTimeout
  rw [hd]
  simp only [h, decide_true, Bool.or_true, if_true]

theorem execLinkLossTimeout_lost {s : State} {io : Fin 2} {t : W64} (hd : s.io[io].downAt = some t) (hl : s.io[io].link = false)
    (h : t.toNat + 100000000 ≤ s.clk.gt.toNat) : execLinkLossTimeout io s =
    let u := s.modIo io fun d => { d with downAt := none }
    .next (((if io = 0 then u.gerStop else u).each (List.finRange 16) fun v p =>
      if v.ioOf p = some io then State.contain (v.issue { recOf 3 7 3 (unitIo io) with ptn := some p }) (some p) none 0 3 else v).pumpAll) := by
  unfold execLinkLossTimeout
  rw [hd]
  simp only [hl, Bool.false_or, decide_eq_true_eq, Nat.not_lt.mpr h, if_false]

/-- A global ring that is not enabled has nothing to stop. -/
theorem gerStop_off {s : State} (h : s.err.ger.en = false) : s.gerStop = s := by
  simp [State.gerStop, h]

theorem linkForm_eq_true {w : BitVec 2} {r : BitVec 3} (hw : w = 1 ∨ w = 2) (hr : r.toNat ≤ 5) : linkForm w r = true := by
  rcases hw with rfl | rfl <;> exact decide_eq_true hr

theorem linkForm_eq_false {w : BitVec 2} {r : BitVec 3} (h : w ≠ 1 ∧ w ≠ 2 ∨ 6 ≤ r.toNat) : linkForm w r = false := by
  rcases h with ⟨h1, h2⟩ | h
  · simp only [linkForm, beq_eq_false_iff_ne.mpr h1, beq_eq_false_iff_ne.mpr h2, Bool.or_self, Bool.false_and]
  · simp only [linkForm, decide_eq_false (show ¬ r.toNat ≤ 5 by omega), Bool.and_false]

theorem execHostLinkUp_refused {s : State} {io : Fin 2} {w : BitVec 2} {r : BitVec 3}
    (h : w ≠ 1 ∧ w ≠ 2 ∨ 6 ≤ r.toNat ∨ s.io[io].inReset = true ∨ s.pwr.rails = false) : execHostLinkUp io w r s = .next s := by
  refine if_pos ?_
  rcases or_assoc.mpr h with hform | hreset | hrails
  · simp only [linkForm_eq_false hform, Bool.not_false, Bool.true_or]
  · simp only [hreset, Bool.or_true, Bool.true_or]
  · simp only [hrails, Bool.not_false, Bool.or_true]

theorem execHostLinkUp_taken {s : State} {io : Fin 2} {w : BitVec 2} {r : BitVec 3} (hw : w = 1 ∨ w = 2) (hr : r.toNat ≤ 5)
    (hi : s.io[io].inReset = false) (h2 : io = 1 → s.fuses.i2 = true) (hp : s.pwr.rails = true) : execHostLinkUp io w r s =
      .next ((s.modIo io fun d => { d with link := true, width := w, rate := r, downAt := none }).kick.failDoomed) := by
  have hfit : (io == 1 && !s.fuses.i2) = false := by
    rcases eq_or_ne io 1 with h | h
    · simp [h2 h]
    · simp [h]
  refine if_neg ?_
  simp only [linkForm_eq_true hw hr, hi, hfit, hp, Bool.not_true, Bool.or_self, Bool.false_eq_true, not_false_iff]

/-! ## PERST1# -/

theorem execPerst1Assert_i2 {s : State} (h : s.fuses.i2 = true) : execPerst1Assert s =
    .next (({ s with pwr := { s.pwr with perst1 := true } }.linkDown 1).modIo 1 fun d => { d.resetFn (.pf 1) with inReset := true }) :=
  congrArg Host.Outcome.next (if_pos h)

/-- The reset of IO1's controller, as that die shows it. -/
theorem resetIo1_eq (s : State) : (s.modIo 1 fun d => { d.resetFn (.pf 1) with inReset := true }).io[1] = { s.io[1] with
    inReset := true, sriov := false, bme := Vector.replicate 17 false, relaxed := Vector.replicate 17 true, mps := Vector.replicate 17 0
    mrrs := Vector.replicate 17 2, d3 := Vector.replicate 17 false } := by
  refine (modIo_same s 1 _).trans ?_
  rw [resetFn_pf]
  rfl

/-! ## Configuration writes and function-level reset -/

section ConfigWrite

variable {s : State} {fn : Fn} (h : s.fnHere fn = true)
include h

theorem execPcieConfigWrite_busMaster (b : Bool) : execPcieConfigWrite fn (.busMaster b) s =
    .next (s.modIo (fnIo fn) fun d => { d with bme := d.bme.set (fnIx fn) b }) := by
  unfold execPcieConfigWrite
  rw [h]
  cases fn <;> rfl

theorem execPcieConfigWrite_power (b : Bool) : execPcieConfigWrite fn (.power b) s =
    .next (s.modIo (fnIo fn) fun d => { d with d3 := d.d3.set (fnIx fn) b }) := by
  unfold execPcieConfigWrite
  rw [h]
  cases fn <;> rfl

/-- Sizes that 03 Table 3.1 supports are taken. -/
theorem execPcieConfigWrite_devControl (b : Bool) {mps mrrs : BitVec 3} (h1 : mps.toNat ≤ 2) (h2 : mrrs.toNat ≤ 5) :
    execPcieConfigWrite fn (.devControl b mps mrrs) s = .next (s.modIo (fnIo fn) fun d =>
      { d with relaxed := d.relaxed.set (fnIx fn) b, mps := d.mps.set (fnIx fn) mps, mrrs := d.mrrs.set (fnIx fn) mrrs }) := by
  unfold execPcieConfigWrite
  rw [h]
  simp only [h1, h2, if_true]
  cases fn <;> rfl

end ConfigWrite

theorem execPcieConfigWrite_sriovEnable {s : State} {io : Fin 2} (h : s.fnHere (.pf io) = true) (b : Bool) :
    execPcieConfigWrite (.pf io) (.sriovEnable b) s = .next (s.modIo io fun d => if b then { d with sriov := true } else d.clearVfs) := by
  unfold execPcieConfigWrite
  rw [h]
  rfl

theorem execFunctionLevelReset_vf {s : State} {io : Fin 2} {n : Fin 16} (h : s.fnHere (.vf io n) = true) (hb : s.ioOf n = some io) :
    execFunctionLevelReset (.vf io n) s = .next ((s.modIo io fun d => d.resetFn (.vf io n)).resetPtn n) := by
  unfold execFunctionLevelReset
  rw [h]
  exact congrArg Host.Outcome.next (if_pos hb)

theorem execFunctionLevelReset_pf1 {s : State} (h : s.fnHere (.pf 1) = true) :
    execFunctionLevelReset (.pf 1) s = .next (s.modIo 1 fun d => d.resetFn (.pf 1)) := by
  unfold execFunctionLevelReset
  rw [h]
  rfl

/-- Settles O19: each link event, reset and configuration write by its rule above, the reset of a PF by `resetFn_pf`. -/
theorem hostLinks : Obligations.HostLinks := by
  unfold Obligations.HostLinks
  refine ⟨fun s io => ⟨fun h => ?down, fun t hd hl => ⟨?early, fun ht => ⟨?lost, fun hb hg => ?unbound⟩⟩, fun w r hw hr hi h2 hp => ?up, fun w r h => ?refused⟩,
    fun s => ⟨fun h => ?assert, fun h hr => ?deassert, fun h => ⟨?assertI1, ?deassertI1⟩⟩,
    fun s fn hf => ⟨fun b => ⟨?bme, fun mps mrrs h1 h2 => ?ctrl, ?power⟩, fun io hio => ⟨?vfsOn, ?vfsOff, fun h1 => ?flrPf⟩, fun io n hv hb => ?flrVf⟩⟩
  case down => exact congrArg Host.Outcome.next (linkDown_up h)
  case early => exact execLinkLossTimeout_early hd
  case lost => exact execLinkLossTimeout_lost hd hl ht
  case unbound =>
    have hstop : (if io = 0 then (s.modIo io fun d => { d with downAt := none }).gerStop else s.modIo io fun d => { d with downAt := none }) =
        s.modIo io fun d => { d with downAt := none } := by
      rw [gerStop_off (s := s.modIo io fun d => { d with downAt := none }) hg, ite_self]
    refine (execLinkLossTimeout_lost hd hl ht).trans ?_
    simp only [hstop]
    rw [each_eq_self fun p _ => if_neg (hb p)]
  case up => exact execHostLinkUp_taken hw hr hi h2 hp
  case refused => exact execHostLinkUp_refused h
  case assert =>
    have hio := resetIo1_eq ({ s with pwr := { s.pwr with perst1 := true } }.linkDown 1)
    exact ⟨_, execPerst1Assert_i2 h, rfl, rfl, (modIo_other _ 1 0 _ (by decide)).trans (modIo_other _ 1 0 _ (by decide)),
      congrArg IoDie.inReset hio, (congrArg IoDie.link hio).trans (linkDown_link _ 1), congrArg IoDie.sriov hio⟩
  case deassert =>
    exact congrArg Host.Outcome.next (if_pos (by simp [h, hr]))
  case assertI1 => exact congrArg Host.Outcome.next (if_neg (by simp [h]))
  case deassertI1 => exact congrArg Host.Outcome.next (if_neg (by simp [h]))
  case bme => exact execPcieConfigWrite_busMaster hf b
  case ctrl => exact execPcieConfigWrite_devControl hf b h1 h2
  case power => exact execPcieConfigWrite_power hf b
  case vfsOn => subst hio; exact execPcieConfigWrite_sriovEnable hf true
  case vfsOff =>
    subst hio
    have hio : (s.modIo io fun d => if false then { d with sriov := true } else d.clearVfs).io[io] = _ := (modIo_same s io _).trans (clearVfs_eq _)
    exact ⟨_, execPcieConfigWrite_sriovEnable hf false, rfl, congrArg IoDie.sriov hio, fun k hk => modIo_other s io k _ hk,
      (congrArg (fun d : IoDie => d.bme[0]) hio).trans (setVfs_pf ..), (congrArg (fun d : IoDie => d.d3[0]) hio).trans (setVfs_pf ..)⟩
  case flrPf =>
    subst hio h1
    refine ⟨_, execFunctionLevelReset_pf1 hf, rfl, modIo_other s 1 0 _ (by decide), ?_⟩
    exact (modIo_same s 1 _).trans (resetFn_pf _ 1)
  case flrVf => subst hv; exact execFunctionLevelReset_vf hf hb

end Sys2Proof.Machine
end

section
/-! PROOFS. What an access of BAR0 reaches (03 R58-R60), and the set windows of a partition (08 R201, R202, R213). -/

namespace Sys2Proof.Machine

/-! ## Fields of a word -/

/-- A number with a field of it replaced: the field's bits are those of the new value, every other bit is as it was. -/
theorem testBit_replace (x lo w v i : Nat) : (x - bits x lo w * 2 ^ lo + v % 2 ^ w * 2 ^ lo).testBit i =
    if lo ≤ i ∧ i < lo + w then v.testBit (i - lo) else x.testBit i := by
  have hlow : x % 2 ^ lo < 2 ^ lo := Nat.mod_lt _ (by positivity)
  have hmid : x / 2 ^ lo % 2 ^ w < 2 ^ w := Nat.mod_lt _ (by positivity)
  have hv : v % 2 ^ w < 2 ^ w := Nat.mod_lt _ (by positivity)
  have hx : x = 2 ^ lo * (2 ^ w * (x / 2 ^ lo / 2 ^ w) + x / 2 ^ lo % 2 ^ w) + x % 2 ^ lo := by
    rw [Nat.div_add_mod, Nat.div_add_mod]
  have hnew : x - bits x lo w * 2 ^ lo + v % 2 ^ w * 2 ^ lo = 2 ^ lo * (2 ^ w * (x / 2 ^ lo / 2 ^ w) + v % 2 ^ w) + x % 2 ^ lo := by
    rw [bits]
    generalize x / 2 ^ lo % 2 ^ w = f at hx
    generalize x / 2 ^ lo / 2 ^ w = h at hx
    generalize x % 2 ^ lo = l at hx
    generalize v % 2 ^ w = e
    rw [hx, show 2 ^ lo * (2 ^ w * h + f) + l = 2 ^ lo * (2 ^ w * h) + l + f * 2 ^ lo by ring, Nat.add_sub_cancel]
    ring
  rw [hnew, Nat.testBit_two_pow_mul_add _ hlow, Nat.testBit_two_pow_mul_add _ hv]
  conv_rhs => rw [hx, Nat.testBit_two_pow_mul_add _ hlow, Nat.testBit_two_pow_mul_add _ hmid]
  by_cases h1 : i < lo
  · simp [h1, Nat.not_le.mpr h1]
  · by_cases h2 : i - lo < w
    · have hin : lo ≤ i ∧ i < lo + w := by omega
      simp [h1, h2, hin]
    · have hout : ¬ (lo ≤ i ∧ i < lo + w) := by omega
      simp [h1, h2, hout]

theorem getLsbD_setFld {n : Nat} (x : BitVec n) (lo w v : Nat) {i : Nat} (hi : i < n) :
    (setFld x lo w v).getLsbD i = if lo ≤ i ∧ i < lo + w then v.testBit (i - lo) else x.getLsbD i := by
  rw [setFld, BitVec.getLsbD_ofNat, decide_eq_true hi, Bool.true_and]
  exact testBit_replace ..

/-! ## Where an access goes -/

/-- The BAR0 address of an offset of a partition's block, as a function sees it (03 Table 3.2). -/
def blockAddr (fn : Fn) (p : Fin 16) (off : Nat) : Nat := match fn with | .pf _ => 0x100000 + p.val * 0x10000 + off | .vf _ _ => off

/-- A function that reaches a partition finds its block. -/
theorem place_blockAddr {s : State} {fn : Fn} {p : Fin 16} (h : s.reach fn p = true) {off : Nat} (ho : off < 0x10000) :
    s.place fn (blockAddr fn p off) = .ptn p off := by
  cases fn with
  | pf io =>
    have hlo : ¬ 0x100000 + p.val * 0x10000 + off < 0x100000 := by omega
    have hhi : 0x100000 + p.val * 0x10000 + off < 0x200000 := by omega
    have hp : (⟨(0x100000 + p.val * 0x10000 + off) / 0x10000 % 16, Nat.mod_lt _ (by decide)⟩ : Fin 16) = p := Fin.ext (by simp; omega)
    have hoff : (0x100000 + p.val * 0x10000 + off) % 0x10000 = off := by omega
    simp only [State.place, blockAddr, up_of_reach h, hlo, hhi, hp, h, hoff, if_true, if_false]
  | vf io n =>
    obtain ⟨rfl, -⟩ := reach_vf h
    exact if_pos ⟨ho, h⟩

/-- A PF that does not reach a partition finds nothing at its block. -/
theorem place_blockAddr_pf {s : State} {io : Fin 2} {p : Fin 16} (h : s.reach (.pf io) p = false) {off : Nat} (ho : off < 0x10000) :
    s.place (.pf io) (blockAddr (.pf io) p off) = .nowhere := by
  have hlo : ¬ 0x100000 + p.val * 0x10000 + off < 0x100000 := by omega
  have hhi : 0x100000 + p.val * 0x10000 + off < 0x200000 := by omega
  have hp : (⟨(0x100000 + p.val * 0x10000 + off) / 0x10000 % 16, Nat.mod_lt _ (by decide)⟩ : Fin 16) = p := Fin.ext (by simp; omega)
  have hrec : recovBlock (0x100000 + p.val * 0x10000 + off) = false := by simp [recovBlock]; omega
  have hwin : ¬ (0x1000000 ≤ 0x100000 + p.val * 0x10000 + off ∧ 0x100000 + p.val * 0x10000 + off < 0x1400000) := by omega
  simp only [State.place, blockAddr, hlo, hhi, hp, h, hrec, hwin, if_false, Bool.false_eq_true, ite_self]

/-- A VF that does not reach its partition finds nothing anywhere. -/
theorem place_vf_unreached {s : State} {io : Fin 2} {n : Fin 16} (h : s.reach (.vf io n) n = false) (off : Nat) :
    s.place (.vf io n) off = .nowhere := if_neg (by simp [h])

/-- IO1's PF finds nothing below the partitions' blocks. -/
theorem place_pf1_low {s : State} {off : Nat} (h : off < 0x100000) : s.place (.pf 1) off = .nowhere := by
  have h10 : ¬ ((1 : Fin 2) = 0) := by decide
  simp only [State.place, h, h10, and_false, if_true, if_false, ite_self]

theorem wordWrite_nowhere {s : State} {fn : Fn} {off : Nat} (h : s.place fn off = .nowhere) (v : Nat) : s.wordWrite fn off v = s := by
  simp only [State.wordWrite, h]

theorem wordWrite_blockAddr {s : State} {fn : Fn} {p : Fin 16} (h : s.reach fn p = true) {off : Nat} (ho : off < 0x10000) (v : Nat) :
    s.wordWrite fn (blockAddr fn p off) v = s.ptnWrite fn p off v := by
  simp only [State.wordWrite, place_blockAddr h ho]

theorem aligned_four (off : Nat) : aligned off 4 = decide (off % 4 = 0) := by simp [aligned, Bool.beq_eq_decide_eq]

theorem hostWrite_word {s : State} {fn : Fn} (ha : s.fnAlive fn = true) {off : Nat} (ho : off % 4 = 0) (v : W64) :
    s.hostWrite fn off 4 v = s.wordWrite fn off (v.toNat % 2 ^ 32) := by
  simp only [State.hostWrite, ha, aligned_four, ho, decide_true, Bool.not_true, Bool.false_eq_true, if_false, fld_zero]
  rfl

theorem hostWrite_dead {s : State} {fn : Fn} (ha : s.fnAlive fn = false) (off n : Nat) (v : W64) : s.hostWrite fn off n v = s := by
  simp only [State.hostWrite, ha, Bool.not_false, if_true]

/-! ## The set windows -/

/-- The offset of a set window in a partition's block (08 Table 8.7). -/
def windowAt (cfg : Bool) : Nat := if cfg then 0x600 else 0x400

theorem windowAt_add_lt (cfg : Bool) (off : BitVec 9) : windowAt cfg + off.toNat < 0x10000 := by
  have hoff : off.toNat < 512 := off.isLt
  cases cfg <;> simp only [windowAt, if_true, if_false, Bool.false_eq_true] <;> omega

theorem windowAt_add_mod (cfg : Bool) {off : Nat} (ho : off % 4 = 0) : (windowAt cfg + off) % 4 = 0 := by
  cases cfg <;> simp only [windowAt, if_true, if_false, Bool.false_eq_true] <;> omega

theorem blockAddr_mod (fn : Fn) (p : Fin 16) {off : Nat} (ho : off % 4 = 0) : blockAddr fn p off % 4 = 0 := by
  cases fn with
  | pf io => simp only [blockAddr]; omega
  | vf io n => exact ho

theorem ptnWrite_window (s : State) (fn : Fn) (p : Fin 16) (cfg : Bool) (off : BitVec 9) (v : Nat) :
    s.ptnWrite fn p (windowAt cfg + off.toNat) v = s.cfgWrite fn p cfg off.toNat 4 v := by
  have hoff : off.toNat < 512 := off.isLt
  cases cfg with
  | false =>
    have h0 : ¬ 0x400 + off.toNat = 0 := by omega
    have h4 : ¬ 0x400 + off.toNat = 0x4 := by omega
    have h8 : ¬ 0x400 + off.toNat = 0x8 := by omega
    have hin : 0x400 ≤ 0x400 + off.toNat ∧ 0x400 + off.toNat < 0x600 := by omega
    simp only [State.ptnWrite, windowAt, Bool.false_eq_true, if_false, h0, h4, h8, if_pos hin, Nat.add_sub_cancel_left]
  | true =>
    have h0 : ¬ 0x600 + off.toNat = 0 := by omega
    have h4 : ¬ 0x600 + off.toNat = 0x4 := by omega
    have h8 : ¬ 0x600 + off.toNat = 0x8 := by omega
    have hlow : ¬ (0x400 ≤ 0x600 + off.toNat ∧ 0x600 + off.toNat < 0x600) := by omega
    have hin : 0x600 ≤ 0x600 + off.toNat ∧ 0x600 + off.toNat < 0x800 := by omega
    simp only [State.ptnWrite, windowAt, if_true, h0, h4, h8, if_false, if_neg hlow, if_pos hin, Nat.add_sub_cancel_left]

/-- Through a function that reaches the partition, a word goes to the window. -/
theorem execCfgWindowWrite_reach {s : State} {fn : Fn} {p : Fin 16} (h : s.reach fn p = true) (cfg : Bool) {off : BitVec 9} (ho : off.toNat % 4 = 0)
    (v : W64) : execCfgWindowWrite fn p cfg off 4 v s = .next (s.cfgWrite fn p cfg off.toNat 4 (v.toNat % 2 ^ 32)) := by
  have hexec : execCfgWindowWrite fn p cfg off 4 v s = .next (s.hostWrite fn (blockAddr fn p (windowAt cfg + off.toNat)) 4 v) := by
    cases fn with
    | pf io => rfl
    | vf io n => exact congrArg Host.Outcome.next (if_pos (reach_vf h).1)
  rw [hexec, hostWrite_word (fnAlive_of_reach h) (blockAddr_mod fn p (windowAt_add_mod cfg ho)),
    wordWrite_blockAddr h (windowAt_add_lt cfg off), ptnWrite_window]

/-- Through a function that does not reach the partition, a word changes nothing. -/
theorem execCfgWindowWrite_unreached {s : State} {fn : Fn} {p : Fin 16} (h : s.reach fn p = false) (cfg : Bool) {off : BitVec 9}
    (ho : off.toNat % 4 = 0) (v : W64) : execCfgWindowWrite fn p cfg off 4 v s = .next s := by
  have hgone : ∀ {a : Nat}, a % 4 = 0 → s.place fn a = .nowhere → s.hostWrite fn a 4 v = s := fun ha hp => by
    rcases Bool.eq_false_or_eq_true (s.fnAlive fn) with hl | hl
    · rw [hostWrite_word hl ha, wordWrite_nowhere hp]
    · exact hostWrite_dead hl ..
  have hmod := windowAt_add_mod cfg ho
  cases fn with
  | pf io =>
    exact congrArg Host.Outcome.next (hgone (blockAddr_mod (.pf io) p hmod) (place_blockAddr_pf h (windowAt_add_lt cfg off)))
  | vf io n =>
    refine congrArg Host.Outcome.next ?_
    by_cases hn : n = p
    · subst hn
      exact (if_pos rfl).trans (hgone hmod (place_vf_unreached h _))
    · exact if_neg hn

/-- The active set takes no write, and the grant section one from IO0's PF alone. -/
theorem cfgWrite_ignored {s : State} {fn : Fn} {p : Fin 16} {cfg : Bool} {off : Nat}
    (h : (s.P p).activeValid = true ∧ (s.P p).swap.active = cfg ∨ off < 128 ∧ fn ≠ .pf 0) (n v : Nat) : s.cfgWrite fn p cfg off n v = s := by
  unfold State.cfgWrite
  rcases h with ⟨hv, ha⟩ | ⟨hlo, hfn⟩
  · simp only [hv, ha, beq_self_eq_true, Bool.and_self, if_true]
  · have hw : grantWriter fn = false := by
      cases fn with
      | pf io => exact beq_eq_false_iff_ne.mpr fun h => hfn (h ▸ rfl)
      | vf io n => rfl
    simp only [hlo, hw, decide_true, Bool.not_false, Bool.and_self, if_true, ite_self]

section Taken

variable {s : State} {fn : Fn} {p : Fin 16} {cfg : Bool} {off : Nat} (ha : (s.P p).activeValid = false ∨ (s.P p).swap.active ≠ cfg)
  (hw : 128 ≤ off ∨ fn = .pf 0)
include ha hw

/-- A write that neither the active set nor the grant section ignores meets the test of use alone. -/
theorem cfgWrite_tested (n v : Nat) : s.cfgWrite fn p cfg off n v =
    if (s.P p).swap.busy || !(s.bound p cfg).isEmpty then s.modP p fun q => { q with swap := { q.swap with wrDrop := true } }
    else s.modP p fun q =>
      if cfg then { q with cfgB := setFld q.cfgB (8 * off) (8 * n) v } else { q with cfgA := setFld q.cfgA (8 * off) (8 * n) v } := by
  have hact : ((s.P p).activeValid && (s.P p).swap.active == cfg) = false := by
    rcases ha with h | h
    · simp only [h, Bool.false_and]
    · simp only [beq_eq_false_iff_ne.mpr h, Bool.and_false]
  have hgrant : (decide (off < 128) && !grantWriter fn) = false := by
    rcases hw with h | rfl
    · simp only [decide_eq_false (Nat.not_lt.mpr h), Bool.false_and]
    · rw [show grantWriter (.pf 0) = true from rfl, Bool.not_true, Bool.and_false]
  simp only [State.cfgWrite, hact, hgrant, Bool.false_eq_true, if_false]

theorem cfgWrite_in_use (hu : (s.P p).swap.busy = true ∨ s.bound p cfg ≠ []) (n v : Nat) : s.cfgWrite fn p cfg off n v =
    s.modP p fun q => { q with swap := { q.swap with wrDrop := true } } := by
  rw [cfgWrite_tested ha hw, if_pos]
  rcases hu with h | h
  · simp only [h, Bool.true_or]
  · simp only [List.isEmpty_eq_false_iff.mpr h, Bool.not_false, Bool.or_true]

theorem cfgWrite_free (hb : (s.P p).swap.busy = false) (hj : s.bound p cfg = []) (n v : Nat) : s.cfgWrite fn p cfg off n v =
    s.modP p fun q =>
      if cfg then { q with cfgB := setFld q.cfgB (8 * off) (8 * n) v } else { q with cfgA := setFld q.cfgA (8 * off) (8 * n) v } := by
  rw [cfgWrite_tested ha hw, if_neg]
  simp only [hb, hj, List.isEmpty_nil, Bool.not_true, Bool.or_self, Bool.false_eq_true, not_false_iff]

end Taken

/-- The bits of a set after a word is written to it. -/
theorem cset_word (b : CfgSet) {off : Nat} (v : W64) {i : Nat} (hi : i < 4096) : (setFld b (8 * off) (8 * 4) (v.toNat % 2 ^ 32)).getLsbD i =
    if 8 * off ≤ i ∧ i < 8 * off + 32 then v.getLsbD (i - 8 * off) else b.getLsbD i := by
  rw [getLsbD_setFld b _ _ _ hi]
  split
  · next h => rw [Nat.testBit_mod_two_pow, decide_eq_true (by omega), Bool.true_and]; rfl
  · rfl

/-- A command that a function may give only where it reaches the partition changes nothing where it does not. -/
theorem next_unreached {s : State} {fn : Fn} {p : Fin 16} (h : s.reach fn p = false) (t : State) :
    (.next (if s.reach fn p then t else s) : Out) = .next s := by
  rw [h]; rfl

/-- The rings of a partition are reached with its block. -/
theorem reachRing_eq (s : State) (fn : Fn) (p : Fin 16) {r : RingRef} (hr : r ≠ .ger) : s.reachRing fn p r = s.reach fn p := by
  cases r with
  | ger => exact absurd rfl hr
  | _ => rfl

/-- Settles O25: a command to a block tests `reach` first, and a window write finds nothing where it fails; where it holds, `cfgWrite` decides. -/
theorem partitionReach : Obligations.PartitionReach := by
  unfold Obligations.PartitionReach
  refine ⟨fun s fn p h => ⟨?commands, fun v => ⟨?kvPool, ?kvGeom, ?erAck⟩, fun v => ⟨?load, ?unload⟩, fun r z hr => ⟨?enable, ?disable⟩,
    fun cfg off v ho => execCfgWindowWrite_unreached h cfg ho v⟩, fun s fn p cfg off v h ho => ⟨fun hi => ?ignored, fun ha hw => ⟨fun hu => ?inUse, fun hb hj => ?taken⟩⟩⟩
  case commands =>
    simp only [List.forall_mem_cons, List.not_mem_nil, false_implies, implies_true, and_true]
    have skip : ∀ t : State, (.next (if s.reach fn p then t else s) : Out) = .next s := next_unreached h
    exact ⟨skip _, skip _, skip _, skip _, skip _, skip _, skip _, skip _, skip _, skip _, skip _⟩
  case kvPool => exact next_unreached h _
  case kvGeom => exact next_unreached h _
  case erAck => exact next_unreached h _
  case load => exact next_unreached h _
  case unload => exact next_unreached h _
  case enable => rw [exec_ringEnable, execRingEnable, reachRing_eq s fn p hr, next_unreached h]
  case disable => rw [exec_ringDisable, execRingDisable, reachRing_eq s fn p hr, next_unreached h]
  case ignored =>
    rw [exec_cfgWindowWrite, execCfgWindowWrite_reach h cfg ho, cfgWrite_ignored hi]
  case inUse =>
    rw [exec_cfgWindowWrite, execCfgWindowWrite_reach h cfg ho, cfgWrite_in_use ha hw hu]
  case taken =>
    refine ⟨_, (execCfgWindowWrite_reach h cfg ho v).trans (congrArg Host.Outcome.next (cfgWrite_free ha hw hb hj ..)), onlyP_modP .., ?_⟩
    rw [modP_same]
    cases cfg with
    | false => exact ⟨rfl, rfl, fun b hb => cset_word _ v hb⟩
    | true => exact ⟨rfl, rfl, fun b hb => cset_word _ v hb⟩

end Sys2Proof.Machine
end

section
/-! PROOFS. Accesses through a function: registers, the doorbell page, configuration space, and GT_NOW's latch (03 R56, R58-R61; 05 R145; 15 R362). -/

namespace Sys2Proof.Machine

/-! ## Accesses that no function answers, and misaligned ones -/

section Dead

variable {s : State} {fn : Fn} (ha : s.fnAlive fn = false)
include ha

/-- A function that does not answer an access changes nothing. -/
theorem execRegisterWrite_dead {sp : Space} (hsp : sp ∈ [Space.bar0, .bar2]) (off : BitVec 25) (n : Nat) (v : W64) :
    execRegisterWrite fn off n v s sp = .next s := by
  obtain rfl | rfl : sp = .bar0 ∨ sp = .bar2 := by simpa using hsp
  · exact congrArg Host.Outcome.next (hostWrite_dead ha ..)
  · simp only [execRegisterWrite, State.dbWrite, ha, Bool.not_false, if_true]

theorem execRcRegisterRead_dead {sp : Space} (hsp : sp ∈ [Space.bar0, .bar2]) (off : BitVec 25) (n : Nat) :
    execRcRegisterRead fn off n s sp = .next s := by
  obtain rfl | rfl : sp = .bar0 ∨ sp = .bar2 := by simpa using hsp
  · simp only [execRcRegisterRead, State.hostRead, ha, Bool.not_false, if_true]
  · simp only [execRcRegisterRead, State.dbRead, ha, Bool.not_false, if_true]

theorem execGtNowRead_dead (h : GtRead) : execGtNowRead fn h s = .next s := by
  rw [execGtNowRead, ha]; rfl

end Dead

section Misaligned

variable {s : State} {fn : Fn} {off : BitVec 25} {n : Nat} (ha : s.fnAlive fn = true) (hal : aligned off.toNat n = false)
  {sp : Space} (hsp : sp ∈ [Space.bar0, .bar2])
include ha hal hsp

/-- A write that is not naturally aligned leaves the S0 note alone (03 R60). -/
theorem execRegisterWrite_misaligned (v : W64) : execRegisterWrite fn off n v s sp = .next (s.accessNote fn off.toNat) := by
  obtain rfl | rfl : sp = .bar0 ∨ sp = .bar2 := by simpa using hsp
  · simp only [execRegisterWrite, State.hostWrite, ha, hal, Bool.not_true, Bool.not_false, Bool.false_eq_true, if_true, if_false]
  · simp only [execRegisterWrite, State.dbWrite, ha, hal, Bool.not_true, Bool.not_false, Bool.false_eq_true, if_true, if_false]

/-- A read that is not naturally aligned leaves the S0 note and returns zero (03 R60). -/
theorem execRcRegisterRead_misaligned : execRcRegisterRead fn off n s sp = .next { s.accessNote fn off.toNat with readData := 0 } := by
  obtain rfl | rfl : sp = .bar0 ∨ sp = .bar2 := by simpa using hsp
  · simp only [execRcRegisterRead, State.hostRead, ha, hal, Bool.not_true, Bool.not_false, Bool.false_eq_true, if_true, if_false]
  · simp only [execRcRegisterRead, State.dbRead, ha, hal, Bool.not_true, Bool.false_eq_true, if_false]

end Misaligned

/-! ## Aligned accesses of BAR0 -/

theorem aligned_cases {off n : Nat} (h : aligned off n = true) : (n = 4 ∨ n = 8) ∧ off % n = 0 := by simpa [aligned] using h

/-- A 64-bit write is the write of its two words. -/
theorem hostWrite_two {s : State} {fn : Fn} {off : Nat} (ha : s.fnAlive fn = true) (hal : aligned off 8 = true) (v : W64) :
    s.hostWrite fn off 8 v = (s.wordWrite fn off (v.toNat % 2 ^ 32)).wordWrite fn (off + 4) (v.toNat / 2 ^ 32) := by
  have hhi : fld v 32 32 = v.toNat / 2 ^ 32 := by
    have hv : v.toNat < 2 ^ 64 := v.isLt
    simp only [fld, bits]
    omega
  simp only [State.hostWrite, ha, hal, Bool.not_true, Bool.false_eq_true, if_false, if_true, fld_zero, hhi]

/-- A read of a place that is no register of a global block. -/
theorem hostRead_eq_regRead {s : State} {fn : Fn} {off n : Nat} (ha : s.fnAlive fn = true) (hal : aligned off n = true)
    (hp : ∀ g, s.place fn off ≠ .glob g) : s.hostRead fn off n = s.regRead fn off n := by
  cases hpl : s.place fn off with
  | glob g => exact absurd hpl (hp g)
  | _ => simp only [State.hostRead, ha, hal, hpl, Bool.not_true, Bool.false_eq_true, if_false]

/-- A read of one word: the stalls in progress are counted first (05 R145). -/
theorem regRead_four (s : State) (fn : Fn) (off : Nat) : s.regRead fn off 4 =
    let u := s.each (List.finRange 32) State.noteStall
    { u.clearAt (s.place fn off) with readData := BitVec.ofNat 64 (u.wordAt (fnIo fn) (s.place fn off)) } := rfl

section Nowhere

variable {s : State} {fn : Fn} {off n : Nat} (ha : s.fnAlive fn = true) (hal : aligned off n = true) (h1 : s.place fn off = .nowhere)
  (h2 : n = 8 → s.place fn (off + 4) = .nowhere)
include ha hal h1 h2

/-- Where nothing is, nothing is written. -/
theorem hostWrite_nowhere (v : W64) : s.hostWrite fn off n v = s := by
  simp only [State.hostWrite, ha, hal, Bool.not_true, Bool.false_eq_true, if_false, wordWrite_nowhere h1]
  split
  · next h => exact wordWrite_nowhere (h2 h) _
  · rfl

/-- Where nothing is, zero is read. -/
theorem hostRead_nowhere : s.hostRead fn off n =
    { s.each (List.finRange 32) State.noteStall with readData := 0 } := by
  rw [hostRead_eq_regRead ha hal fun g hg => by rw [h1] at hg; cases hg]
  simp only [State.regRead, h1]
  split
  · next h => rw [h2 h]; simp only [State.wordAt, Nat.zero_mul, Nat.add_zero]; rfl
  · rfl

end Nowhere

/-- An unbound VF finds nothing in BAR0. -/
theorem place_unbound {s : State} {io : Fin 2} {p : Fin 16} (h : s.ioOf p ≠ some io) (off : Nat) : s.place (.vf io p) off = .nowhere := by
  refine place_vf_unreached ?_ off
  simp only [State.reach, beq_eq_false_iff_ne.mpr h, Bool.and_false]

/-! ## The doorbell page -/

/-- Of an aligned write of the doorbell page the low word acts (03 R61). -/
theorem dbWrite_aligned {s : State} {fn : Fn} {off n : Nat} (ha : s.fnAlive fn = true) (hal : aligned off n = true) (v : W64) :
    s.dbWrite fn off n v = s.dbAt fn (off % 4096) (v.truncate 32) := by
  simp only [State.dbWrite, ha, hal, Bool.not_true, Bool.false_eq_true, if_false]

theorem dbAt_jrTail (s : State) (io : Fin 2) (p : Fin 16) (r : Fin 8) (v : W32) : s.dbAt (.vf io p) (8 * r.val) v = execJrTailDb (.vf io p) r v s := by
  have hr : ix8 (8 * r.val / 8) = r := Fin.ext (by simp only [ix8]; omega)
  exact (if_pos (by omega)).trans (by rw [hr])

theorem dbAt_crHead (s : State) (io : Fin 2) (p : Fin 16) (r : Fin 8) (v : W32) :
    s.dbAt (.vf io p) (0x40 + 8 * r.val) v = execCrHeadDb (.vf io p) r v s := by
  have hr : ix8 ((0x40 + 8 * r.val) / 8) = r := Fin.ext (by simp only [ix8]; omega)
  exact (if_neg (by omega)).trans ((if_pos (by omega)).trans (by rw [hr]))

theorem dbAt_srHead (s : State) (io : Fin 2) (p r : Fin 16) (v : W32) :
    s.dbAt (.vf io p) (0x80 + 8 * r.val) v = execSrHeadDb (.vf io p) r v s := by
  have hr : ix16 ((0x80 + 8 * r.val) / 8) = r := Fin.ext (by simp only [ix16]; omega)
  exact (if_neg (by omega)).trans ((if_neg (by omega)).trans ((if_pos (by omega)).trans (by rw [hr])))

/-! ## Partition registers -/

theorem ctrAt_overflow : ctrAt 0xE014 = none := rfl
theorem ctrAt_maxList : ctrAt 0x8108 = some .lseMaxList := rfl
theorem ctrAt_hotHits : ctrAt 0x9218 = some .tblHotHits := rfl

/-- A register that no counter and no overflow counter stands at is left by its read. -/
theorem readClear_eq_self {off : Nat} (hc : ctrAt off = none) (he : off ≠ 0xE014) (q : Ptn) : q.readClear off = q := by
  have hmax : off ≠ 0x8108 := fun e => by rw [e, ctrAt_maxList] at hc; cases hc
  have hhot : off ≠ 0x9218 := fun e => by rw [e, ctrAt_hotHits] at hc; cases hc
  simp only [Ptn.readClear, hc, hmax, hhot, he, if_false]

/-- The read of an RC counter clears it, and what is read beside it at most. -/
theorem readClear_counter {off : Nat} {k : Ctr} (hc : ctrAt off = some k) (q : Ptn) : (q.readClear off).cnt = q.cnt.set k.ix 0 ∧
    { q.readClear off with cnt := q.cnt, maxList := q.maxList, maxIndex := q.maxIndex, hotIdx := q.hotIdx } = q := by
  have he : off ≠ 0xE014 := fun e => by rw [e, ctrAt_overflow] at hc; cases hc
  unfold Ptn.readClear
  rw [hc]
  simp only [he, if_false]
  split
  · exact ⟨rfl, rfl⟩
  · split <;> exact ⟨rfl, rfl⟩

section PtnRegister

variable {s : State} {io : Fin 2} {p : Fin 16} {off : Nat} (h : s.reach (.vf io p) p = true) (hlt : off < 0x10000) (h4 : off % 4 = 0)
include h hlt h4

theorem hostRead_ptn : s.hostRead (.vf io p) off 4 =
    let u := s.each (List.finRange 32) State.noteStall
    { u.modP p fun q => q.readClear off with readData := BitVec.ofNat 64 (u.ptnWord p io off) } := by
  have hp : s.place (.vf io p) off = .ptn p off := place_blockAddr (fn := .vf io p) h hlt
  rw [hostRead_eq_regRead (fnAlive_of_reach h) (by rw [aligned_four, decide_eq_true h4]) fun g hg => (by rw [hp] at hg; cases hg), regRead_four, hp]
  rfl

theorem hostRead_left (hc : ctrAt off = none) (he : off ≠ 0xE014) : s.hostRead (.vf io p) off 4 =
    let u := s.each (List.finRange 32) State.noteStall
    { u with readData := BitVec.ofNat 64 (u.ptnWord p io off) } := by
  have hleft : ∀ u : State, u.modP p (fun q => q.readClear off) = u := fun u => modP_eq_self (readClear_eq_self hc he (u.P p))
  simpa only [hleft] using hostRead_ptn h hlt h4

end PtnRegister

/-- The read of an RC counter returns it and clears it; what is read beside it clears with it, and nothing else changes (00 R7). -/
theorem counter_read (u : State) (p : Fin 16) (io : Fin 2) {off : Nat} {k : Ctr} (hc : ctrAt off = some k) :
    let t := { u.modP p fun q => q.readClear off with readData := BitVec.ofNat 64 (u.ptnWord p io off) }
    t.readData = (u.P p).cnt[k.ix].zeroExtend 64 ∧ OnlyP p { u with readData := t.readData } t ∧
    (∀ j, (t.P p).cnt[j] = if j = k.ix then 0 else (u.P p).cnt[j]) ∧
    { t.P p with cnt := (u.P p).cnt, maxList := (u.P p).maxList, maxIndex := (u.P p).maxIndex, hotIdx := (u.P p).hotIdx } = u.P p := by
  intro t
  have hw : u.ptnWord p io off = (u.P p).cnt[k.ix].toNat := by simp only [State.ptnWord, hc]
  have hp : t.P p = (u.P p).readClear off := modP_same u p fun q => q.readClear off
  obtain ⟨hcnt, hrest⟩ := readClear_counter hc (u.P p)
  refine ⟨(congrArg (BitVec.ofNat 64) hw).trans (BitVec.ofNat_toNat ..), ⟨rfl, fun q hq => modP_other u p q (fun q => q.readClear off) hq⟩,
    fun j => ?_, ?_⟩
  · rw [hp, hcnt]
    split
    · next hj => subst hj; exact vec_set_self ..
    · next hj => exact vec_set_ne _ _ _ _ hj
  · rw [hp]; exact hrest

/-- The low word of a value, as it is written to a register. -/
theorem ofNat_low (v : W64) : BitVec.ofNat 32 (v.toNat % 2 ^ 32) = v.truncate 32 := by
  apply BitVec.eq_of_toNat_eq
  rw [BitVec.truncate_eq_setWidth, BitVec.toNat_setWidth, BitVec.toNat_ofNat, Nat.mod_mod]

theorem ptnWrite_waitLimit (s : State) (fn : Fn) (p : Fin 16) (v : W64) :
    s.ptnWrite fn p 0x4000 (v.toNat % 2 ^ 32) = s.modP p fun q => { q with waitLimit := v.truncate 32 } := by
  rw [← ofNat_low]
  rfl

/-! ## Configuration space and GT_NOW -/

theorem cfgField_deviceId_vf (d : IoDie) (io : Fin 2) (p : Fin 16) : d.cfgField (.vf io p) .deviceId = 0x0417 := by
  have hvf : (fnIx (.vf io p) == 0) = false := beq_eq_false_iff_ne.mpr (Fin.succ_ne_zero p)
  simp only [IoDie.cfgField, hvf, Bool.false_eq_true, if_false]

theorem gt_low (x : W64) : BitVec.ofNat 64 (fld x 0 32) = x &&& 0xFFFFFFFF := by
  apply BitVec.eq_of_toNat_eq
  rw [fld_zero, BitVec.toNat_and, BitVec.toNat_ofNat, show (0xFFFFFFFF : W64).toNat = 2 ^ 32 - 1 from rfl, Nat.and_two_pow_sub_one_eq_mod]
  omega

theorem gt_high (x : W64) : BitVec.ofNat 64 (fld x 32 32) = x >>> 32 := by
  have hx : x.toNat < 2 ^ 64 := x.isLt
  apply BitVec.eq_of_toNat_eq
  rw [BitVec.toNat_ushiftRight, BitVec.toNat_ofNat, Nat.shiftRight_eq_div_pow, fld, bits]
  omega

theorem gt_latch (x : W64) : BitVec.ofNat 32 (fld x 32 32) = (x >>> 32).truncate 32 := by
  have hx : x.toNat < 2 ^ 64 := x.isLt
  apply BitVec.eq_of_toNat_eq
  rw [BitVec.truncate_eq_setWidth, BitVec.toNat_setWidth, BitVec.toNat_ushiftRight, BitVec.toNat_ofNat, Nat.shiftRight_eq_div_pow, fld, bits]
  omega

theorem execGtNowRead_owner {s : State} {fn : Fn} (h : s.owner fn = true) (r : GtRead) :
    execGtNowRead fn r s = .next { (s.readGt r).1 with readData := (s.readGt r).2 } := by
  rw [execGtNowRead, fnAlive_of_owner h, State.gtRead, h]
  rfl

/-- Settles O24: each access by the rule above for what it meets, at its place. -/
theorem hostAccess : Obligations.HostAccess := by
  unfold Obligations.HostAccess
  refine ⟨fun s fn off n v => ⟨fun ha => ?dead, fun ha hal sp hsp => ?misaligned, fun ha hal => ⟨fun hfn => ?nowhere, fun h8 => ?two, ?pageRead,
      fun io p hfn => ?page⟩, fun f hf => ?config⟩, fun d io p => ?ids,
    fun s io p off h hlt h4 => ⟨fun k hk => ?counter, fun hk he => ?left, fun v hv => ?waitLimit⟩, fun s fn h => ⟨?full, ?low, fun l hl => ?latched, fun hl => ?high⟩⟩
  case dead =>
    exact ⟨fun sp hsp => ⟨execRegisterWrite_dead ha hsp off n v, execRcRegisterRead_dead ha hsp off n⟩, fun r => execGtNowRead_dead ha r⟩
  case misaligned => exact ⟨execRegisterWrite_misaligned ha hal hsp v, execRcRegisterRead_misaligned ha hal hsp⟩
  case nowhere =>
    obtain ⟨h1, h2⟩ : s.place fn off.toNat = .nowhere ∧ (n = 8 → s.place fn (off.toNat + 4) = .nowhere) := by
      rcases hfn with ⟨io, p, rfl, hb⟩ | ⟨rfl, hlow⟩
      · exact ⟨place_unbound hb _, fun _ => place_unbound hb _⟩
      · refine ⟨place_pf1_low hlow, fun h8 => place_pf1_low ?_⟩
        obtain ⟨-, hmod⟩ := aligned_cases hal
        rw [h8] at hmod
        omega
    exact ⟨congrArg Host.Outcome.next (hostWrite_nowhere ha hal h1 h2 v), congrArg Host.Outcome.next (hostRead_nowhere ha hal h1 h2)⟩
  case two => subst h8; exact congrArg Host.Outcome.next (hostWrite_two ha hal v)
  case pageRead => simp only [exec_rcRegisterRead, execRcRegisterRead, State.dbRead, ha, hal, Bool.not_true, Bool.false_eq_true, if_false, if_true]
  case page =>
    subst hfn
    have hat : ∀ {a : Nat} {o : Out}, off.toNat = a → a < 4096 → s.dbAt (.vf io p) a (v.truncate 32) = o →
        exec (.registerWrite (.vf io p) off n v .bar2) s = o := fun hoff hlt ho => by
      exact (dbWrite_aligned ha hal v).trans (by rw [hoff, Nat.mod_eq_of_lt hlt, ho])
    exact ⟨fun r => ⟨fun hoff => hat hoff (by omega) (dbAt_jrTail ..), fun hoff => hat hoff (by omega) (dbAt_crHead ..)⟩,
      fun r hoff => hat hoff (by omega) (dbAt_srHead ..), fun hoff => hat hoff (by omega) rfl, fun hoff => hat hoff (by omega) rfl,
      fun hoff => hat hoff (by omega) rfl⟩
  case config => simp only [exec_rcRegisterRead, execRcRegisterRead, State.configRead, hf, if_true]
  case ids => exact ⟨rfl, rfl, rfl, cfgField_deviceId_vf d io p, rfl⟩
  case counter => exact ⟨_, congrArg Host.Outcome.next (hostRead_ptn h hlt h4), counter_read _ p io hk⟩
  case left => exact congrArg Host.Outcome.next (hostRead_left h hlt h4 hk he)
  case waitLimit =>
    subst hv
    refine congrArg Host.Outcome.next ?_
    rw [hostWrite_word (fnAlive_of_reach h) h4]
    exact (wordWrite_blockAddr (fn := .vf io p) h hlt _).trans (ptnWrite_waitLimit ..)
  case full => exact execGtNowRead_owner h .full
  case low =>
    refine (execGtNowRead_owner h .low).trans ?_
    simp only [State.readGt, gt_low, gt_latch]
  case latched =>
    refine (execGtNowRead_owner h .high).trans ?_
    simp only [State.readGt, hl, BitVec.ofNat_toNat]
  case high =>
    refine (execGtNowRead_owner h .high).trans ?_
    simp only [State.readGt, hl, gt_high]
    rw [← hl]

end Sys2Proof.Machine
end

section
/-! PROOFS. Argument blocks, promotion, and the start of a job (03 R63, R81; 04 R94, R96; 05 R132, Table 5.16; 08 R219). -/

namespace Sys2Proof.Machine

/-! ## Argument blocks -/

section ArgBlock

variable {s : State} {id : Nat} {j : Job} {x : Xfer} (hj : s.liveJob id = some j)
  (hx : (s.xfers.find? fun x => x.chan == 6 && x.job == some id) = some x) (hst : x.st = .issued)
include hj hx hst

theorem execArgBlockFetched_data {bs : List Byte} (hl : bs.length = dArgLen j.desc) :
    execArgBlockFetched id (.data bs) s = .next ((s.delX x.id).modJob id fun j => { j with argReady := true, arg := memOf bs }) := by
  simp only [execArgBlockFetched, hj, hx, hst, hl, ne_eq, not_true_eq_false, if_false]

theorem execArgBlockFetched_failed : execArgBlockFetched id .failed s = .next (s.failX x 5 x.iova stError) := by
  simp only [execArgBlockFetched, hj, hx, hst, ne_eq, not_true_eq_false, if_false]

end ArgBlock

/-! ## Promotion -/

/-- Two changes of one job, the first of which keeps its number. -/
theorem modJob_modJob (s : State) (id : Nat) {f : Job → Job} (g : Job → Job) (hf : ∀ j, (f j).id = j.id) :
    (s.modJob id f).modJob id g = s.modJob id fun j => g (f j) := by
  simp only [State.modJob, List.map_map]
  refine congrArg (fun l => { s with jobs := l }) (List.map_congr_left fun j _ => ?_)
  by_cases h : j.id = id
  · simp only [Function.comp, if_pos h, if_pos ((hf j).trans h)]
  · simp only [Function.comp, if_neg h]

/-- A job as admission leaves it: it holds a slot, and a C0 job its clusters (04 R89, R90 step 6). -/
def State.admitted (s : State) (j i : Job) : Job :=
  { i with ph := .admitted, slotHeld := true, clusters := if dClass j.desc = 0 then (s.freeClusters j).take j.k else [] }

/-- A job without an argument block can start as soon as it is admitted. -/
theorem admitJob_ready {s : State} {j : Job} (h : dArgLen j.desc = 0) :
    s.admitJob j = s.modJob j.id fun i => { s.admitted j i with argReady := true } := by
  have hfetch : ∀ t : State, t.fetchArg j = t.modJob j.id fun i => { i with argReady := true } := fun t => if_pos h
  exact (hfetch _).trans (modJob_modJob s j.id _ fun _ => rfl)

/-- The argument block of an admitted job is fetched. -/
theorem admitJob_fetch {s : State} {j : Job} (h : dArgLen j.desc ≠ 0) : s.admitJob j =
    (s.modJob j.id (s.admitted j)).startX { blankX j.ptn j.cfg 6 (dArgIova j.desc) (dArgLen j.desc) false with job := some j.id } := if_neg h

theorem execDeferPromote_next {s : State} {p : Fin 16} {cls : Fin 4} {j : Job} (hj : firstBy jobBefore (s.jobsIn p cls.val Job.waits) = some j)
    (hr : s.running = true) (hslot : s.slotsUsed p cls.val < csSlots (s.P p).act cls.val) (hc : cls = 0 → j.k ≤ (s.freeClusters j).length) :
    execDeferPromote p cls s = .next ((s.admitJob j).pumpAll) := by
  have hc0 : (cls.val != 0 || decide (j.k ≤ (s.freeClusters j).length)) = true := by
    rcases eq_or_ne cls 0 with h | h
    · simp only [decide_eq_true (hc h), Bool.or_true]
    · have hv : cls.val ≠ 0 := fun e => h (Fin.ext e)
      simp only [bne_iff_ne.mpr hv, Bool.true_or]
  unfold execDeferPromote
  rw [hj]
  exact if_pos (by simp only [hr, hslot, hc0, decide_true, Bool.and_self])

/-! ## The start of a job -/

section Start

variable {s : State} {p : Fin 16} {j : Job} {e : Entry} (hj : s.nextStart p = some j) (he : ((s.P p).img j.cfg).entries[dEntry j.desc]? = some e)
  (hr : s.running = true) (hc : s.startOn j ≠ [])
include hj he hr hc

theorem startable_eq : s.startable p = some (j, s.startOn j, (s.P p).img j.cfg, e) := by
  have hgo : (s.running && s.startOn j != []) = true := by simp only [hr, bne_iff_ne.mpr hc, Bool.and_self]
  simp only [State.startable, hj, he, hgo, if_true]

theorem execJobStart_next : execJobStart p s [] = .next (s.startJob j (s.startOn j) ((s.P p).img j.cfg) e) := by
  simp only [execJobStart, meet_nil, startable_eq hj he hr hc, Option.isNone_some, Bool.false_eq_true, if_false]

end Start

/-- A job that starts on clusters, as its jobs' entry shows it. -/
def State.started (s : State) (cs : List (Fin 32)) (i : Job) : Job := { i with ph := .running, start := s.clk.gt, startCyc := s.clk.cyc10, clusters := cs }

section Start

variable (s : State) (j : Job) (cs : List (Fin 32)) {im : Image} (e : Entry)

/-- An image with an uncorrectable error fails the job with ENGINE_DATA (08 R219). -/
theorem startJob_bad (hb : im.bad = true) : s.startJob j cs im e =
    (s.modJob j.id (s.started cs)).except j.id j.ptn (cs.headD 0).val (cs.headD 0) (BitVec.ofNat 16 e.pc) 0 0 exData := if_pos hb

variable (hb : im.bad = false)
include hb

theorem startJob_frame : { s.startJob j cs im e with cl := s.cl, jobs := s.jobs } = s := by
  simp only [State.startJob, hb, Bool.false_eq_true, if_false]
  rfl

theorem startJob_jobs : (s.startJob j cs im e).jobs = (s.modJob j.id (s.started cs)).jobs := by
  simp only [State.startJob, hb, Bool.false_eq_true, if_false]
  rfl

theorem startJob_cl (c : Fin 32) : (s.startJob j cs im e).cl[c] =
    ((cs.findIdx? (· == c)).map fun r => enterCluster s.cl[c] j im e r s.clk.cyc10 s.clk.cyc10).getD s.cl[c] := by
  simp only [State.startJob, hb, Bool.false_eq_true, if_false, Fin.getElem_fin, Vector.getElem_ofFn]
  cases cs.findIdx? (· == c) <;> rfl

/-- A cluster that is not among those the job starts on is left. -/
theorem startJob_cl_other {c : Fin 32} (h : c ∉ cs) : (s.startJob j cs im e).cl[c] = s.cl[c] := by
  have hnone : cs.findIdx? (· == c) = none := List.findIdx?_eq_none_iff.mpr fun x hx => beq_eq_false_iff_ne.mpr fun e => h (e ▸ hx)
  rw [startJob_cl s j cs e hb, hnone]
  rfl

/-- A cluster on which the job starts enters at the entry point, its rank its place in the list. -/
theorem startJob_cl_mem {c : Fin 32} (h : c ∈ cs) :
    (s.startJob j cs im e).cl[c] = enterCluster s.cl[c] j im e (cs.idxOf c) s.clk.cyc10 s.clk.cyc10 := by
  have hsome : cs.findIdx? (· == c) = some (cs.idxOf c) :=
    List.findIdx?_eq_some_iff_findIdx_eq.mpr ⟨List.idxOf_lt_length_iff.mpr h, rfl⟩
  rw [startJob_cl s j cs e hb, hsome]
  rfl

end Start

/-- The scalar registers of a starting conductor (05 Table 5.16). -/
theorem enterCluster_s (k : Cluster) (j : Job) (im : Image) (e : Entry) (rank gt cyc : Nat) (i : Fin 32) :
    (enterCluster k j im e rank gt cyc).s[i] =
      if 1 ≤ i.val ∧ i.val ≤ 8 then BitVec.ofNat 64 (fld j.desc (512 + 64 * (i.val - 1)) 64)
      else if i = 9 then BitVec.ofNat 64 (dTag j.desc) else if i = 10 then BitVec.ofNat 64 (dArgLen j.desc)
      else if i = 11 then BitVec.ofNat 64 rank else if i = 12 then BitVec.ofNat 64 j.k else 0 := by
  have h9 : i = 9 ↔ i.val = 9 := Fin.ext_iff
  have h10 : i = 10 ↔ i.val = 10 := Fin.ext_iff
  have h11 : i = 11 ↔ i.val = 11 := Fin.ext_iff
  have h12 : i = 12 ↔ i.val = 12 := Fin.ext_iff
  simp only [enterCluster, Fin.getElem_fin, Vector.getElem_ofFn, h9, h10, h11, h12]

/-- Descriptor register 0 names the argument block, and the others read zero (05 Table 5.16). -/
theorem enterCluster_d (k : Cluster) (j : Job) (im : Image) (e : Entry) (rank gt cyc : Nat) (i : Fin 16) :
    (enterCluster k j im e rank gt cyc).d[i] = if i = 0 then argDesc (dArgLen j.desc) else 0 := by
  show ((Vector.replicate 16 (0 : BitVec 256)).set (0 : Fin 16) (argDesc (dArgLen j.desc)))[i] = _
  generalize argDesc (dArgLen j.desc) = x
  rcases eq_or_ne i 0 with rfl | h
  · rw [if_pos rfl, vec_set_self]
  · rw [if_neg h, vec_set_ne _ 0 i x h]
    exact Vector.getElem_replicate ..

/-- Settles O22: the block and its failure, the promotion of `admitJob`, and the start of `startJob` with the registers of `enterCluster`. -/
theorem jobStarts : Obligations.JobStarts := by
  unfold Obligations.JobStarts
  refine ⟨fun s id j x hj hx hst => ⟨fun bs hl => execArgBlockFetched_data hj hx hst hl, execArgBlockFetched_failed hj hx hst⟩,
    fun s p cls j hj hr hslot hc => ⟨fun h => ?ready, fun h => ?fetch⟩, fun s p j e hj he hr hc => ⟨fun hb => ?bad, fun hb => ?starts⟩⟩
  case ready => rw [exec_deferPromote, execDeferPromote_next hj hr hslot hc, admitJob_ready h]; rfl
  case fetch => rw [exec_deferPromote, execDeferPromote_next hj hr hslot hc, admitJob_fetch h]; rfl
  case bad => rw [exec_jobStart, execJobStart_next hj he hr hc, startJob_bad s j _ e hb]; rfl
  case starts =>
    refine ⟨_, execJobStart_next hj he hr hc, startJob_frame s j _ e hb, startJob_jobs s j _ e hb, fun c h => startJob_cl_other s j _ e hb h, fun c h => ?_⟩
    rw [startJob_cl_mem s j _ e hb h]
    exact ⟨rfl, rfl, rfl, rfl, rfl, rfl, rfl, rfl, rfl, rfl, fun i => enterCluster_s .., fun i => enterCluster_d ..⟩

end Sys2Proof.Machine
end

section
/-! PROOFS. The fetch of descriptors, their arrival, their turn, and the decision for a fenced partition (03 R64, R65, R81; 04 R90). -/

namespace Sys2Proof.Machine

/-! ## The fetch of a batch -/

theorem active_modP {s : State} {p : Fin 16} {f : Ptn → Ptn} (h : (f (s.P p)).swap = (s.P p).swap) :
    ((s.modP p f).P p).swap.active = (s.P p).swap.active := by
  rw [modP_same, h]

/-- Descriptors that a batch takes (03 R64). -/
def State.batchLen (s : State) (p : Fin 16) (r : Fin 8) : Nat := min 16 (min (s.P p).jr[r].waiting ((s.P p).cr[r].spare / 2))

/-- A ring that holds completion slots for descriptors of a batch. -/
def Ptn.holdSlots (q : Ptn) (r : Fin 8) (n : Nat) : Ptn := q.modCr r fun c => if c.wfail then c else { c with resv := c.resv + 2 * n }

section Fetch

variable {s : State} {p : Fin 16} {r : Fin 8}

theorem execFetchBatch_none (h : s.batchLen p r = 0) : execFetchBatch p r s = .next s := by
  have h' : min 16 (min (s.P p).jr[r].waiting ((s.P p).cr[r].spare / 2)) = 0 := h
  simp only [execFetchBatch, h', decide_true, Bool.or_true, Bool.true_or, if_true]

theorem execFetchBatch_some (hf : s.fetching p r = true) (hb : s.batch p r = []) (hl : s.io[s.dmaIo p (s.P p).swap.active].link = true)
    (hn : 0 < s.batchLen p r) : execFetchBatch p r s =
      let j := (s.P p).jr[r]
      let n := s.batchLen p r
      let n1 := min n (j.slots - j.head.toNat)
      let u1 := (s.modP p fun q => q.holdSlots r n).newX (batchX p (s.P p).swap.active r j j.head.toNat n1 false)
      let u := if n1 < n then u1.newX (batchX p (s.P p).swap.active r j 0 (n - n1) true) else u1
      .next ((u.each ((u.batch p r).map (·.id)) fun v id => v.runX id).pumpAll) := by
  have hgo : (!s.fetching p r || decide (s.batchLen p r = 0) || !(s.batch p r).isEmpty || !s.io[s.dmaIo p (s.P p).swap.active].link) = false := by
    simp only [hf, hb, hl, decide_eq_false (Nat.pos_iff_ne_zero.mp hn), List.isEmpty_nil, Bool.not_true, Bool.or_self]
  have hact : ((s.modP p fun q => q.holdSlots r (s.batchLen p r)).P p).swap.active = (s.P p).swap.active := active_modP rfl
  refine (if_neg fun h => Bool.false_ne_true (hgo.symm.trans h)).trans ?_
  rw [← hact]
  rfl

end Fetch

/-! ## The arrival of a descriptor -/

/-- The first part of a batch after the arrival of its next descriptor: its last one ends it. -/
def State.takeNext (s : State) (x : Xfer) : State :=
  if x.len ≤ 128 * (x.base + 1) then s.delX x.id else s.modX x.id fun y => { y with base := y.base + 1 }

/-- A job ring whose descriptor at a slot has arrived. -/
def Ptn.passSlot (q : Ptn) (r : Fin 8) (slot : Nat) : Ptn :=
  q.modJr r fun j => { j with head := BitVec.ofNat 12 ((slot + 1) % j.slots), fetched := j.fetched + 1 }

/-- The head mirror follows the last descriptor of a batch, and what the rings can write is written (03 R65). -/
def State.endArrival (s : State) (p : Fin 16) (r : Fin 8) (x : Xfer) (rest : List Xfer) : State :=
  (if x.len ≤ 128 * (x.base + 1) && rest.isEmpty then s.mirror p r else s).pumpAll

theorem takeNext_modP (s : State) (x : Xfer) (p : Fin 16) (f : Ptn → Ptn) : (s.takeNext x).modP p f = (s.modP p f).takeNext x := by
  unfold State.takeNext
  split <;> rfl

theorem takeNext_P (s : State) (x : Xfer) (p : Fin 16) : (s.takeNext x).P p = s.P p := by
  unfold State.takeNext
  split <;> rfl

section Arrival

variable {s : State} {p : Fin 16} {r : Fin 8} {x : Xfer} {rest : List Xfer} (hr : s.running = true) (hb : s.batch p r = x :: rest)
  (hd : 128 * (x.base + 1) ≤ x.done)
include hr hb hd

/-- A failed read ends the batch (03 R81). -/
theorem execDescriptorArrival_failed (w : Bool) : execDescriptorArrival p r none s w =
    .next ((s.failBatch p r (s.dmaIo p x.cfg) (x.iova + 128 * x.base)).pumpAll) := by
  unfold execDescriptorArrival
  rw [hb]
  exact if_neg (by simp only [hr, Nat.not_lt.mpr hd, Bool.not_true, Bool.false_eq_true, or_self, not_false_iff])

theorem execDescriptorArrival_live (hl : x.live = true) (d : BitVec 1024) (w : Bool) : execDescriptorArrival p r (some d) s w =
    let u := ((s.modP p fun q => q.passSlot r (x.slot + x.base)).takeNext x).modP p fun q =>
      { q with undec := q.undec ++ [{ ring := r, slot := x.slot + x.base, fseq := (s.P p).jr[r].fetched, desc := d }] }
    .next ((if w then u else State.decideAll p (u.P p).undec.length u).endArrival p r x rest) := by
  unfold execDescriptorArrival
  rw [hb]
  refine (if_neg (by simp only [hr, Nat.not_lt.mpr hd, Bool.not_true, Bool.false_eq_true, or_self, not_false_iff])).trans ?_
  simp only [hl, if_true]
  rfl

end Arrival

/-! ## The turn of the rings -/

/-- The turns of a ring that pass before it is served: the ring after the one decided last comes first (04 R90). -/
def Undec.behind (u : Undec) (turn : Fin 8) : Nat := (u.ring.val + 7 - turn.val) % 8

theorem ring_eq_iff_behind (u : Undec) (turn : Fin 8) {i : Nat} (hi : i < 8) : u.ring.val = (turn.val + 1 + i) % 8 ↔ u.behind turn = i := by
  unfold Undec.behind
  omega

/-- The descriptor decided next is one that waits, of the ring whose turn is nearest. -/
theorem nextUndec_nearest {q : Ptn} {u : Undec} (h : q.nextUndec = some u) : u ∈ q.undec ∧ ∀ v ∈ q.undec, u.behind q.turn ≤ v.behind q.turn := by
  obtain ⟨before, i, after, hl, hi, hnone⟩ := List.findSome?_eq_some_iff.mp h
  have hsplit : ∀ k, k < 8 ↔ k ∈ before ++ i :: after := fun k => by rw [← hl, List.mem_range]
  have hu : u.behind q.turn = i := by
    have hring := List.find?_some hi
    exact (ring_eq_iff_behind u q.turn ((hsplit i).mpr (by simp))).mp (by simpa using hring)
  refine ⟨List.mem_of_find?_eq_some hi, fun v hv => ?_⟩
  by_contra hlt
  have hk : v.behind q.turn < 8 := Nat.mod_lt _ (by decide)
  have hsorted : List.Pairwise (· < ·) (before ++ i :: after) := hl ▸ List.pairwise_lt_range
  have hafter : ∀ k ∈ after, i < k := (List.pairwise_cons.mp (List.pairwise_append.mp hsorted).2.1).1
  have hmem : v.behind q.turn ∈ before := by
    rcases List.mem_append.mp ((hsplit _).mp hk) with hm | hm
    · exact hm
    · rcases List.mem_cons.mp hm with hm | hm
      · omega
      · have := hafter _ hm
        omega
  have hv' := List.find?_eq_none.mp (hnone _ hmem) v hv
  exact hv' (by simpa using (ring_eq_iff_behind v q.turn hk).mpr rfl)

/-- Of one descriptor that waits it is the turn. -/
theorem nextUndec_single {q : Ptn} {u : Undec} (h : q.undec = [u]) : q.nextUndec = some u := by
  cases hn : q.nextUndec with
  | some v =>
    have hv := (nextUndec_nearest hn).1
    rw [h, List.mem_singleton] at hv
    rw [hv]
  | none =>
    have hk : u.behind q.turn < 8 := Nat.mod_lt _ (by decide)
    have hnone := List.find?_eq_none.mp (List.findSome?_eq_none_iff.mp hn _ (List.mem_range.mpr hk)) u (by simp [h])
    exact absurd (by simpa using (ring_eq_iff_behind u q.turn hk).mpr rfl) hnone

/-! ## The decision of a descriptor that waits alone -/

/-- With nothing else waiting and no cancel held, the descriptor that arrived is decided, and that is all. -/
theorem decideAll_alone {s : State} {p : Fin 16} {u : Undec} (hu : (s.P p).undec = []) (hc : (s.P p).cancels = []) :
    (let t := s.modP p fun q => { q with undec := q.undec ++ [u] }
     State.decideAll p (t.P p).undec.length t) =
      (s.modP p fun q => { q with turn := u.ring }).decideJob p u.ring u.slot u.fseq u.desc := by
  have hundec : ((s.modP p fun q => { q with undec := q.undec ++ [u] }).P p).undec = [u] := by rw [modP_same, hu]; rfl
  have hcancels : ((s.modP p fun q => { q with undec := q.undec ++ [u] }).P p).cancels = [] := by rw [modP_same]; exact hc
  have hblock : ∀ f, (s.modP p fun q => { q with undec := q.undec ++ [u] }).modP p (fun q =>
      { q with undec := q.undec.erase u, turn := u.ring, cancels := q.cancels.filter f }) = s.modP p fun q => { q with turn := u.ring } := fun f => by
    have herase : ((s.P p).undec ++ [u]).erase u = (s.P p).undec := by simp [hu]
    have hfilter : (s.P p).cancels.filter f = (s.P p).cancels := by rw [hc]; rfl
    rw [modP_modP]
    exact modP_congr (by simp only [herase, hfilter])
  simp only [hundec, List.length_singleton, State.decideAll, nextUndec_single hundec, State.decideOne, hcancels, hblock, List.filter_nil]
  rfl

/-! ## The decision for a fenced partition -/

/-- The notice of an admission decision names its kind and its code (03 Table 3.6). -/
theorem noticeRec_code (j : Job) {code : Nat} (hc : code < 256) (est fin_ pos detail cfg wu slots depth ns off : Nat) :
    fld (noticeRec j code est fin_ pos detail cfg wu slots depth ns off) 64 8 = 1 ∧
      fld (noticeRec j code est fin_ pos detail cfg wu slots depth ns off) 72 8 = code := by
  have htag : dTag j.desc < 2 ^ 64 := Nat.mod_lt _ (by positivity)
  simp only [fld, bits, noticeRec, BitVec.toNat_ofNat]
  generalize est % 2 ^ 64 = a1, fin_ % 2 ^ 64 = a2, pos % 2048 = a3, detail % 256 = a4, cfg % 2 = a5, min wu (2 ^ 32 - 1) = a6, min slots 8191 = a7,
    min depth 2047 = a8, off % 65536 = a9, j.slot % 4096 = a10, j.ring.val = a11
  omega

theorem decision_fenced {s : State} {j : Job} (h : (s.P j.ptn).fenced = true) : s.decision j = ⟨5, 1, 0, 0⟩ := if_pos h

/-- A descriptor decided for a fenced partition leaves a notice of code 5 and takes two free values; nothing else changes. -/
theorem decideJob_fenced {s : State} {p : Fin 16} (h : (s.P p).fenced = true) (r : Fin 8) (slot : Nat) (fseq : W32) (d : BitVec 1024) :
    ∃ n, s.decideJob p r slot fseq d = { s with free := s.free + 2 }.putCr p r { data := n, op := some 0 } ∧ fld n 64 8 = 1 ∧ fld n 72 8 = 5 := by
  have hdec : ∀ j : Job, j.ptn = p → s.decision j = ⟨5, 1, 0, 0⟩ := fun j hj => decision_fenced (hj ▸ h)
  have h1 : ¬ 5 ≤ 1 := by decide
  have h7 : ¬ 5 = 7 := by decide
  simp only [State.decideJob, hdec, h1, h7, if_false]
  exact ⟨_, rfl, noticeRec_code _ (by decide) ..⟩

/-- A refused job's notice joins a completion ring that takes records; one that takes none leaves everything as it is. -/
theorem putCr_notice (s : State) (p : Fin 16) (r : Fin 8) (n : BitVec 512) : s.putCr p r { data := n, op := some 0 } =
    if (s.P p).cr[r].en ∧ !(s.P p).cr[r].wfail then s.modP p fun q => q.modCr r fun c => { c with outq := c.outq ++ [{ data := n, op := some 0 }] }
    else s := rfl

/-- What a queued notice leaves of the machine, and where it stands. -/
theorem putCr_notice_frame (s : State) (p : Fin 16) (r : Fin 8) (n : BitVec 512) {t : State} (ht : s.putCr p r { data := n, op := some 0 } = t) :
    { t with ptn := s.ptn } = s ∧ (t.P p).dir = (s.P p).dir ∧ (t.P p).mem = (s.P p).mem ∧
      ((s.P p).cr[r].en = true → (s.P p).cr[r].wfail = false → (t.P p).cr[r].outq = (s.P p).cr[r].outq ++ [{ data := n, op := some 0 }]) := by
  rw [putCr_notice] at ht
  split at ht
  · subst ht
    rw [modP_same]
    exact ⟨rfl, rfl, rfl, fun _ _ => congrArg PRing.outq (modCr_same ..)⟩
  · next hoff =>
    subst ht
    exact ⟨rfl, rfl, rfl, fun he hw => absurd ⟨he, by rw [hw]; rfl⟩ hoff⟩

/-- Settles O20: the fetch of `execFetchBatch_some`, the arrival of `execDescriptorArrival_live`, the turn of `nextUndec_nearest`, and for a fenced
partition the notice of `decideJob_fenced`. -/
theorem descriptorFetch : Obligations.DescriptorFetch := by
  unfold Obligations.DescriptorFetch
  refine ⟨fun s p r hf hb hl => ⟨fun hn => execFetchBatch_none hn, fun hn => execFetchBatch_some hf hb hl hn⟩,
    fun s p r x rest hr hb hd => ⟨fun w => execDescriptorArrival_failed hr hb hd w, fun d hlive => ?arrival⟩, fun q u h => nextUndec_nearest h,
    fun s p r slot fseq d h => ?fenced⟩
  case arrival =>
    have harr : ∀ w, execDescriptorArrival p r (some d) s w = _ := execDescriptorArrival_live hr hb hd hlive d
    simp only [decide_eq_true_eq]
    refine ⟨harr true, harr false, fun hu hc => (harr false).trans ?_⟩
    have hblock : ((s.modP p fun q => q.passSlot r (x.slot + x.base)).takeNext x).P p = (s.P p).passSlot r (x.slot + x.base) := by
      rw [takeNext_P, modP_same]
    have halone := decideAll_alone (s := (s.modP p fun q => q.passSlot r (x.slot + x.base)).takeNext x) (p := p)
      (u := { ring := r, slot := x.slot + x.base, fseq := (s.P p).jr[r].fetched, desc := d }) (by rw [hblock]; exact hu) (by rw [hblock]; exact hc)
    have hturn : (((s.modP p fun q => q.passSlot r (x.slot + x.base)).takeNext x).modP p fun q => { q with turn := r }) =
        (s.modP p fun q => { q.passSlot r (x.slot + x.base) with turn := r }).takeNext x := by
      rw [takeNext_modP, modP_modP]
    rw [hturn] at halone
    exact congrArg (fun t : State => (.next (t.endArrival p r x rest) : Out)) halone
  case fenced =>
    obtain ⟨n, hn, hkind, hcode⟩ := decideJob_fenced h r slot fseq d
    obtain ⟨hrest, hdir, hmem, hq⟩ := putCr_notice_frame { s with free := s.free + 2 } p r n rfl
    refine ⟨_, hn, (congrArg State.jobs hrest :), (congrArg State.ops hrest :), (congrArg State.tallies hrest :), hdir, hmem,
      fun he hw => ⟨_, hq he hw, rfl, hkind, hcode⟩⟩

end Sys2Proof.Machine
end

section
/-! PROOFS. The admission decision, step by step (04 R90, R91, Table 4.2). -/

namespace Sys2Proof.Machine

/-! ## Steps 1 and 2: the fence and the descriptor's form -/

theorem decision_fencing {s : State} {j : Job} (h : (s.P j.ptn).fenced = false) (hf : (s.P j.ptn).fencing = true) : s.decision j = ⟨5, 2, 0, 0⟩ := by
  simp only [State.decision, h, hf, Bool.false_eq_true, if_false, if_true]

theorem decision_malformed {s : State} {j : Job} (hd : (s.P j.ptn).fenced = false) (hg : (s.P j.ptn).fencing = false) {off det : Nat}
    (h : malformed (s.P j.ptn) j.desc = some (off, det)) : s.decision j = ⟨6, det, off, 0⟩ := by
  simp only [State.decision, hd, hg, h, Bool.false_eq_true, if_false]

/-! ## Steps 3 to 8 -/

/-- The class has a free slot and no deferred job, and a C0 job its clusters: step 6 of Table 4.2 admits such a job. -/
def State.fits (s : State) (j : Job) : Bool :=
  s.slotsUsed j.ptn (dClass j.desc) < csSlots (s.P j.ptn).act (dClass j.desc) && s.deferDepth j.ptn (dClass j.desc) == 0 &&
    (dClass j.desc != 0 || j.k ≤ (s.freeClusters j).length)

theorem fits_iff (s : State) (j : Job) : s.fits j = true ↔
    s.slotsUsed j.ptn (dClass j.desc) < csSlots (s.P j.ptn).act (dClass j.desc) ∧ s.deferDepth j.ptn (dClass j.desc) = 0 ∧
      (dClass j.desc = 0 → j.k ≤ (s.freeClusters j).length) := by
  simp only [State.fits, Bool.and_eq_true, Bool.or_eq_true, decide_eq_true_eq, beq_iff_eq, bne_iff_ne, and_assoc, imp_iff_not_or, ne_eq]

/-- The estimated start of the outcome that steps 6 to 8 would give (log 29). -/
def State.estOf (s : State) (j : Job) : Nat := if s.fits j then s.clk.gt.toNat else s.estStart j

/-- What step 5 finds short: 0, or the DETAIL of the first resource. -/
def State.short (s : State) (j : Job) : Nat :=
  s.roomFor j.ptn (s.P j.ptn).act
    ((((s.P j.ptn).img (s.P j.ptn).swap.active).entries[dEntry j.desc]?).getD { pc := 0, k := 1, t0 := 0, t1 := 0, kv := 0, buf := 0 }) j.desc

section WellFormed

variable {s : State} {j : Job} (hd : (s.P j.ptn).fenced = false) (hg : (s.P j.ptn).fencing = false) (hm : malformed (s.P j.ptn) j.desc = none)
include hd hg hm

theorem decision_noSlots (h : csSlots (s.P j.ptn).act (dClass j.desc) = 0) : s.decision j = ⟨2, 1, 0, s.estStart j⟩ := by
  simp only [State.decision, hd, hg, hm, h, Bool.false_eq_true, if_false, if_true]

variable (hs : csSlots (s.P j.ptn).act (dClass j.desc) ≠ 0)
include hs

theorem decision_overCeiling (h : csWuCeil (s.P j.ptn).act < dWork j.desc + s.wuOut j.ptn) : s.decision j = ⟨2, 2, 0, s.estStart j⟩ := by
  simp only [State.decision, hd, hg, hm, hs, h, Bool.false_eq_true, if_false, if_true]

variable (hw : dWork j.desc + s.wuOut j.ptn ≤ csWuCeil (s.P j.ptn).act)
include hw

/-- Steps 4 to 8: the deadline, the resources, and then ADMIT, DEFER or REFUSE_SATURATED. -/
theorem decision_inQuota : s.decision j =
    if dDeadline j.desc ≠ 0 ∧ dDeadline j.desc < s.estOf j + s.estDur (dWork j.desc) j.k then
      ⟨4, if dDeadline j.desc ≤ s.clk.gt.toNat then 1 else 2, 0, s.estStart j⟩
    else if s.short j ≠ 0 then ⟨7, s.short j, 0, s.estStart j⟩
    else if s.fits j then ⟨0, 0, 0, s.clk.gt.toNat⟩
    else if s.deferDepth j.ptn (dClass j.desc) < csDeferMax (s.P j.ptn).act (dClass j.desc) then ⟨1, 0, 0, s.estStart j⟩
    else ⟨3, if csDeferMax (s.P j.ptn).act (dClass j.desc) = 0 then 2 else 1, 0, s.estStart j⟩ := by
  simp only [State.decision, hd, hg, hm, hs, Nat.not_lt.mpr hw, Bool.false_eq_true, if_false]
  change (if _ then _ else match s.short j with | 0 => _ | d => _) = _
  cases s.short j <;> rfl

theorem decision_late (h0 : dDeadline j.desc ≠ 0) (hl : dDeadline j.desc < s.estOf j + s.estDur (dWork j.desc) j.k) :
    s.decision j = ⟨4, if dDeadline j.desc ≤ s.clk.gt.toNat then 1 else 2, 0, s.estStart j⟩ := by
  rw [decision_inQuota hd hg hm hs hw, if_pos ⟨h0, hl⟩]

section InTime

variable (ht : dDeadline j.desc = 0 ∨ s.estOf j + s.estDur (dWork j.desc) j.k ≤ dDeadline j.desc)
include ht

theorem decision_inTime : s.decision j =
    if s.short j ≠ 0 then ⟨7, s.short j, 0, s.estStart j⟩
    else if s.fits j then ⟨0, 0, 0, s.clk.gt.toNat⟩
    else if s.deferDepth j.ptn (dClass j.desc) < csDeferMax (s.P j.ptn).act (dClass j.desc) then ⟨1, 0, 0, s.estStart j⟩
    else ⟨3, if csDeferMax (s.P j.ptn).act (dClass j.desc) = 0 then 2 else 1, 0, s.estStart j⟩ := by
  rw [decision_inQuota hd hg hm hs hw, if_neg fun h => ht.elim h.1 (Nat.not_le.mpr h.2)]

theorem decision_noRoom (hr : s.short j ≠ 0) : s.decision j = ⟨7, s.short j, 0, s.estStart j⟩ := by
  rw [decision_inTime hd hg hm hs hw ht, if_pos hr]

variable (hr : s.short j = 0)
include hr

theorem decision_admit (hf : s.fits j = true) : s.decision j = ⟨0, 0, 0, s.clk.gt.toNat⟩ := by
  rw [decision_inTime hd hg hm hs hw ht, if_neg (not_not.mpr hr), if_pos hf]

variable (hf : ¬ s.fits j = true)
include hf

theorem decision_defer (hq : s.deferDepth j.ptn (dClass j.desc) < csDeferMax (s.P j.ptn).act (dClass j.desc)) :
    s.decision j = ⟨1, 0, 0, s.estStart j⟩ := by
  rw [decision_inTime hd hg hm hs hw ht, if_neg (not_not.mpr hr), if_neg hf, if_pos hq]

theorem decision_saturated (hq : csDeferMax (s.P j.ptn).act (dClass j.desc) ≤ s.deferDepth j.ptn (dClass j.desc)) :
    s.decision j = ⟨3, if csDeferMax (s.P j.ptn).act (dClass j.desc) = 0 then 2 else 1, 0, s.estStart j⟩ := by
  rw [decision_inTime hd hg hm hs hw ht, if_neg (not_not.mpr hr), if_neg hf, if_neg (Nat.not_lt.mpr hq)]

end InTime

end WellFormed

/-- The three fields that the table fixes of an outcome it writes out. -/
theorem Decision.fields {d : Decision} {code detail off est : Nat} (h : d = ⟨code, detail, off, est⟩) :
    d.code = code ∧ d.detail = detail ∧ d.est = est := by
  rw [h]
  exact ⟨rfl, rfl, rfl⟩

/-- The code and the DETAIL alone. -/
theorem Decision.answer {d : Decision} {code detail off est : Nat} (h : d = ⟨code, detail, off, est⟩) : d.code = code ∧ d.detail = detail :=
  ⟨(Decision.fields h).1, (Decision.fields h).2.1⟩

/-- Settles O21: one lemma for each outcome, under the conditions of the steps before it. -/
theorem admissionDecision : Obligations.AdmissionDecision := by
  unfold Obligations.AdmissionDecision
  refine fun s j => ⟨fun h => Decision.answer (decision_fenced h), fun hd hg => Decision.answer (decision_fencing hd hg),
    fun hd hg => ⟨fun off det => decision_malformed hd hg, fun hm => ⟨fun hs => Decision.answer (decision_noSlots hd hg hm hs),
      fun hs => ⟨fun hw => Decision.answer (decision_overCeiling hd hg hm hs hw), fun hw est hnow hlater => ?inQuota⟩⟩⟩⟩
  case inQuota =>
    rw [← fits_iff] at hnow hlater
    have hest : est = s.estOf j := by
      unfold State.estOf
      split
      · next hf => exact hnow hf
      · next hf => exact hlater hf
    subst hest
    refine ⟨fun h0 hl => Decision.answer (decision_late hd hg hm hs hw h0 hl),
      fun ht => ⟨fun hr => Decision.answer (decision_noRoom hd hg hm hs hw ht hr), fun hr => ?room⟩⟩
    case room =>
      rw [← fits_iff]
      refine ⟨fun hf => Decision.fields (decision_admit hd hg hm hs hw ht hr hf), fun hf => ⟨?est,
        fun hq => Decision.answer (decision_defer hd hg hm hs hw ht hr hf hq),
        fun hq => Decision.answer (decision_saturated hd hg hm hs hw ht hr hf hq)⟩⟩
      case est =>
        rcases Nat.lt_or_ge (s.deferDepth j.ptn (dClass j.desc)) (csDeferMax (s.P j.ptn).act (dClass j.desc)) with hq | hq
        · exact (Decision.fields (decision_defer hd hg hm hs hw ht hr hf hq)).2.2
        · exact (Decision.fields (decision_saturated hd hg hm hs hw ht hr hf hq)).2.2

end Sys2Proof.Machine
end

section
/-! PROOFS. Which job runs on each conductor: nothing that follows the end of a job puts one there (04 R97, R99). -/

namespace Sys2Proof.Machine

/-- The job that runs on each conductor. -/
abbrev State.runners (s : State) : Vector (Option Nat) 32 := s.cl.map Cluster.job

/-! ## Updates of the state -/

@[simp] theorem runners_modP (s : State) (p : Fin 16) (f : Ptn → Ptn) : (s.modP p f).runners = s.runners := rfl
@[simp] theorem runners_modIo (s : State) (i : Fin 2) (f : IoDie → IoDie) : (s.modIo i f).runners = s.runners := rfl
@[simp] theorem runners_modJob (s : State) (id : Nat) (f : Job → Job) : (s.modJob id f).runners = s.runners := rfl
@[simp] theorem runners_modX (s : State) (id : Nat) (f : Xfer → Xfer) : (s.modX id f).runners = s.runners := rfl
@[simp] theorem runners_delX (s : State) (id : Nat) : (s.delX id).runners = s.runners := rfl
@[simp] theorem runners_newX (s : State) (x : Xfer) : (s.newX x).runners = s.runners := rfl
@[simp] theorem runners_modTensor (s : State) (p : Fin 16) (b : Nat) (f : Tensor → Tensor) : (s.modTensor p b f).runners = s.runners := rfl
@[simp] theorem runners_bump (s : State) (p : Fin 16) (k : Ctr) (n : Nat) : (s.bump p k n).runners = s.runners := rfl
@[simp] theorem runners_bumpK (s : State) (p : Fin 16) (k : Ctr) (n : Nat) : (s.bumpK p k n).runners = s.runners := rfl
@[simp] theorem runners_noteUse (s : State) (r : Nat) (p : Fin 16) (n : Nat) : (s.noteUse r p n).runners = s.runners := rfl
@[simp] theorem runners_enqueue (s : State) (o : Op) : (s.enqueue o).runners = s.runners := rfl
@[simp] theorem runners_tallyPut (s : State) (t : Nat) (v : W32) : (s.tallyPut t v).runners = s.runners := rfl
@[simp] theorem runners_logRec (s : State) (e : ErRef) (d : Bool) (b : BitVec 256) : (s.logRec e d b).runners = s.runners := rfl

@[simp] theorem runners_modEr (s : State) (e : ErRef) (f : ErrRing → ErrRing) : (s.modEr e f).runners = s.runners := by
  cases e <;> rfl

theorem runners_modC (s : State) (c : Fin 32) {f : Cluster → Cluster} (h : ∀ k, (f k).job = k.job) : (s.modC c f).runners = s.runners := by
  ext i hi
  by_cases hc : c.val = i <;> simp [State.modC, hc, h]

theorem runners_ite {c : Prop} [Decidable c] {s t u : State} (hs : s.runners = u.runners) (ht : t.runners = u.runners) :
    (if c then s else t).runners = u.runners := by
  split <;> assumption

theorem runners_each {α : Type} {f : State → α → State} (h : ∀ s a, (f s a).runners = s.runners) (l : List α) (s : State) :
    (s.each l f).runners = s.runners := by
  induction l generalizing s with
  | nil => rfl
  | cons a t ih => exact (ih (f s a)).trans (h s a)

/-! ## Error records -/

@[simp] theorem runners_logAll (s : State) (e : ErRef) (d : Bool) (l : List (BitVec 256)) : (s.logAll e d l).runners = s.runners :=
  runners_each (fun s b => runners_logRec s e d b) l s

@[simp] theorem runners_dropRecs (s : State) (e : ErRef) (sev : Nat) (l : List (BitVec 256)) (d : Bool) :
    (s.dropRecs e sev l d).runners = s.runners := by
  unfold State.dropRecs
  split <;> simp

@[simp] theorem runners_dropLate (s : State) (e : ErRef) (sev : Nat) (l : List (BitVec 256)) (d : Bool) :
    (s.dropLate e sev l d).runners = s.runners := by
  have hmark : ∀ t : State, (t.each l fun s b => s.markDropped e b).runners = t.runners := runners_each (fun _ _ => by rfl) l
  unfold State.dropLate
  split
  · simp [hmark]
  · split <;> simp

@[simp] theorem runners_dropQueue (s : State) (e : ErRef) (d : Bool) : (s.dropQueue e d).runners = s.runners :=
  (runners_each (fun t (w : WaitRec) => runners_dropLate t e w.sev w.recs d) (s.er e).waitq _).trans (runners_modEr ..)

@[simp] theorem runners_issueTo (s : State) (e : ErRef) (r : Rec) (sev : Nat) (esc : Bool) : (s.issueTo e r sev esc).runners = s.runners := by
  unfold State.issueTo
  refine runners_ite (runners_ite ?_ ?_) ?_ <;> simp

@[simp] theorem runners_gerHalt (s : State) : s.gerHalt.runners = s.runners := by
  unfold State.gerHalt
  split <;> simp

@[simp] theorem runners_issue (s : State) (r : Rec) : (s.issue r).st.runners = s.runners := by
  have hto : ∀ (e : ErRef) (sev : Nat) (esc : Bool), (s.gerHalt.issueTo e r sev esc).runners = s.runners := by simp
  unfold State.issue
  dsimp only
  repeat' split
  all_goals simp [hto, State.runners]

/-! ## What a change of a tally, or the end of an operation, releases -/

@[simp] theorem runners_noteStall (s : State) (c : Fin 32) : (s.noteStall c).runners = s.runners := by
  unfold State.noteStall
  split
  · split
    · exact runners_modC _ c fun _ => rfl
    · rfl
  · exact runners_modC _ c fun _ => rfl
  · rfl

@[simp] theorem runners_settleC (s : State) (c : Fin 32) : (s.settleC c).runners = s.runners := by
  unfold State.settleC
  dsimp only
  repeat' split
  all_goals simp [runners_modC]

@[simp] theorem runners_settle (s : State) : s.settle.runners = s.runners := runners_each runners_settleC _ s

@[simp] theorem runners_tallyAdd (s : State) (t : Nat) (v : W32) : (s.tallyAdd t v).runners = s.runners := runners_settle _

@[simp] theorem runners_unpinOne (s : State) (p : Fin 16) (b : Nat) : (s.unpinOne p b).runners = s.runners := rfl

@[simp] theorem runners_settleWaits (s : State) (p : Fin 16) : (s.settleWaits p).runners = s.runners := by
  have hunpin : ∀ (s : State) (l : List Nat), (s.each l fun s b => s.unpinOne p b).runners = s.runners := fun s l => runners_each (fun _ _ => by rfl) l s
  refine runners_each (fun s w => ?_) _ s
  dsimp only
  repeat' split
  all_goals simp [hunpin]

@[simp] theorem runners_opGone (s : State) (id : Nat) : (s.opGone id).runners = s.runners := by
  unfold State.opGone
  split <;> simp

@[simp] theorem runners_opDone (s : State) (o : Op) : (s.opDone o).runners = s.runners := by
  unfold State.opDone State.opTally
  split <;> simp

/-! ## What the end of a job releases -/

@[simp] theorem runners_finishJob (s : State) (id : Nat) : (s.finishJob id).runners = s.runners := by
  unfold State.finishJob
  repeat' split
  all_goals simp

@[simp] theorem runners_crDone (s : State) (o : RecOut) : (s.crDone o).runners = s.runners := by
  unfold State.crDone
  split <;> simp

@[simp] theorem runners_wbRead (s : State) (p : Fin 16) (v n : Nat) : (s.wbRead p v n).runners = s.runners := rfl

@[simp] theorem runners_dropCopy (s : State) (p : Fin 16) (t : Tensor) : (s.dropCopy p t).runners = s.runners := rfl

@[simp] theorem runners_recheck (s : State) : s.recheck.runners = s.runners := by
  refine runners_each (fun s p => ?_) _ s
  split <;> simp

@[simp] theorem runners_vacate (s : State) (p : Fin 16) (t0 t1 : Nat) : (s.vacate p t0 t1).runners = s.runners := by
  unfold State.vacate
  rw [runners_modP]
  exact runners_each (fun _ _ => by rfl) _ s

@[simp] theorem runners_unbound (s : State) (p : Fin 16) (cfg : Bool) : (s.unbound p cfg).runners = s.runners := by
  have htlb : (s.tlbIdle p cfg).runners = s.runners := by
    unfold State.tlbIdle
    split <;> rfl
  rw [← htlb]
  unfold State.unbound State.tryRelease
  dsimp only
  repeat' split
  all_goals simp [State.closeChans]

/-! ## Transfers and their faults -/

@[simp] theorem runners_giveFid (s : State) (x : Xfer) (r : Nat) : (s.giveFid x r).runners = s.runners := by
  simp [State.giveFid]

@[simp] theorem runners_raiseFault (s : State) (x : Xfer) (r : Nat) : (s.raiseFault x r).runners = s.runners := by
  unfold State.raiseFault
  dsimp only
  split <;> simp

theorem runners_promoteLoop (p : Fin 16) (n : Nat) (s : State) : (promoteLoop p n s).runners = s.runners := by
  induction n generalizing s with
  | zero => rfl
  | succ n ih =>
    unfold promoteLoop
    repeat' split
    all_goals simp [ih]

@[simp] theorem runners_promoteFault (s : State) (p : Fin 16) : (s.promoteFault p).runners = s.runners := runners_promoteLoop p 32 s

@[simp] theorem runners_crCount (s : State) (p : Fin 16) (d : BitVec 512) : (s.crCount p d).runners = s.runners := by
  unfold State.crCount
  split <;> simp

@[simp] theorem runners_ringWrote (s : State) (x : Xfer) : (s.ringWrote x).runners = s.runners := by
  unfold State.ringWrote
  dsimp only
  repeat' split
  all_goals simp

theorem runners_advance (fuel : Nat) (s : State) (id : Nat) : (advance fuel s id).runners = s.runners := by
  induction fuel generalizing s with
  | zero => rfl
  | succ n ih =>
    unfold advance
    split
    · rfl
    · refine runners_ite rfl (runners_ite ?whole (runners_ite rfl (runners_ite (runners_raiseFault ..) ?unit)))
      case whole =>
        repeat' split
        all_goals simp
      case unit =>
        split
        · rfl
        · refine runners_ite ((ih _).trans ((runners_modX ..).trans ?_)) (runners_modIo ..)
          refine runners_ite ((runners_wbRead ..).trans ?_) ?_ <;>
            exact runners_ite (runners_ite rfl rfl) ((runners_noteUse ..).trans (runners_ite rfl rfl))

@[simp] theorem runners_runX (s : State) (id : Nat) : (s.runX id).runners = s.runners := by
  unfold State.runX
  split
  · exact runners_advance ..
  · rfl

@[simp] theorem runners_startX (s : State) (x : Xfer) : (s.startX x).runners = s.runners := by simp [State.startX]

/-! ## Moves of tensors -/

@[simp] theorem runners_giveBack (s : State) (p : Fin 16) (c : Claim) : (s.giveBack p c).runners = s.runners := by
  refine runners_each (fun s e => ?_) c s
  split <;> simp

@[simp] theorem runners_goWb (s : State) (p : Fin 16) (t : Tensor) (why : Mv) (job : Option Nat) : (s.goWb p t why job).runners = s.runners := by
  simp [State.goWb, State.startWb]

@[simp] theorem runners_startLoad (s : State) (p : Fin 16) (b : Nat) (dest : Claim) (job : Option Nat) :
    (s.startLoad p b dest job).runners = s.runners := by
  unfold State.startLoad
  split <;> simp

theorem runners_startNext (p : Fin 16) (b fuel : Nat) (s : State) : (startNext p b fuel s).runners = s.runners := by
  induction fuel generalizing s with
  | zero => rfl
  | succ n ih =>
    unfold startNext
    repeat' split
    all_goals simp [ih]

@[simp] theorem runners_tdEnd (s : State) (p : Fin 16) (r : Nat) : (s.tdEnd p r).runners = s.runners := rfl

@[simp] theorem runners_tdSettle (s : State) (p : Fin 16) : (s.tdSettle p).runners = s.runners := by
  unfold State.tdSettle State.doDestroy State.doFlush
  repeat' split
  all_goals simp

@[simp] theorem runners_moveEnded (s : State) (p : Fin 16) (b : Nat) : (s.moveEnded p b).runners = s.runners := by
  simp [State.moveEnded, runners_startNext]

@[simp] theorem runners_abortLoad (s : State) (p : Fin 16) (b : Nat) : (s.abortLoad p b).runners = s.runners := by
  unfold State.abortLoad
  dsimp only
  split <;> simp

@[simp] theorem runners_abortWb (s : State) (p : Fin 16) (b : Nat) : (s.abortWb p b).runners = s.runners := by
  unfold State.abortWb
  repeat' split
  all_goals simp

/-! ## The end of a job -/

@[simp] theorem runners_endXfers (s : State) (j : Job) : (s.endXfers j).runners = s.runners := by
  refine runners_each (fun s x => ?_) _ s
  dsimp only
  repeat' split
  all_goals simp

@[simp] theorem runners_endPins (s : State) (j : Job) : (s.endPins j).runners = s.runners := by
  refine runners_each (fun s b => ?_) j.pins s
  unfold State.endPin
  repeat' split
  all_goals simp

@[simp] theorem runners_putCr (s : State) (p : Fin 16) (r : Fin 8) (o : RecOut) : (s.putCr p r o).runners = s.runners := by
  unfold State.putCr
  dsimp only
  split <;> simp

/-- Once a job has ended no conductor runs it: its conductors stop, and nothing after that starts one. -/
theorem runners_endJob {s : State} {id : Nat} {j : Job} (h : s.liveJob id = some j) (code e : Nat) (c : Fin 32) :
    (s.endJob id code e).runners[c] ≠ some id := by
  unfold State.endJob
  rw [h]
  dsimp -zeta only
  extract_lets rec_ wu stopped noted chans failed told freed streams released gone overrun missed
  rw [runners_settle, runners_promoteFault, runners_putCr, runners_unbound]
  have hmissed : missed.runners = overrun.runners := runners_ite rfl rfl
  have hoverrun : overrun.runners = gone.runners := runners_ite rfl rfl
  have hreleased : released.runners = streams.runners := by
    dsimp -zeta only [released]
    split <;> simp
  have hfreed : gone.runners = freed.runners := (runners_modJob ..).trans (hreleased.trans (runners_modP ..))
  rw [hmissed, hoverrun, hfreed]
  have hc : freed.runners[c] = (if told.cl[c].job = some id then told.cl[c].stop else told.cl[c]).job := by
    simp [State.runners, freed]
  rw [hc]
  split
  · exact (Option.some_ne_none id).symm
  · assumption

end Sys2Proof.Machine
end

section
/-! PROOFS. The ends of a job: its deadline, its final completion, and a cancel (04 R96, R98, R99, R101; 05 R136; 15 R361). -/

namespace Sys2Proof.Machine

/-! ## Deadline and final completion -/

section Live

variable {s : State} {id : Nat} {j : Job} (hj : s.liveJob id = some j)
include hj

theorem execDeadlineExpiry_passed (h0 : dDeadline j.desc ≠ 0) (h : dDeadline j.desc ≤ s.clk.gt.toNat) :
    execDeadlineExpiry id s = .next ((s.endJob id stDeadline 0).pumpAll) := by
  simp only [execDeadlineExpiry, hj, if_pos (And.intro h0 h)]

theorem execDeadlineExpiry_early (h : dDeadline j.desc = 0 ∨ s.clk.gt.toNat < dDeadline j.desc) : execDeadlineExpiry id s = .next s := by
  have hn : ¬ (dDeadline j.desc ≠ 0 ∧ dDeadline j.desc ≤ s.clk.gt.toNat) := fun hp => h.elim hp.1 (Nat.not_lt.mpr hp.2)
  simp only [execDeadlineExpiry, hj, if_neg hn]

/-- The final status of a job whose conductors have ended (04 R98; 13 R313). -/
theorem execJobFinalCompletion_done (hr : j.ph = .running) (hc : ∀ c ∈ j.clusters, s.cl[c].job = some id ∧ s.cl[c].ended = true)
    (ho : ∀ o ∈ s.ops, o.job ≠ id) : execJobFinalCompletion id s =
      .next ((s.endJob id (if j.exhausted then stExhausted else if j.trunc then stTruncated else stOk) 0).pumpAll) := by
  have hall : (j.clusters.all fun c => s.cl[c].job == some id && s.cl[c].ended) = true :=
    List.all_eq_true.mpr fun c hm => by rw [(hc c hm).1, (hc c hm).2, beq_self_eq_true, Bool.and_true]
  have hany : s.ops.any (·.job == id) = false := List.any_eq_false.mpr fun o hm => by rw [beq_iff_eq]; exact ho o hm
  simp only [execJobFinalCompletion, hj, hr, hall, hany, ne_eq, not_true_eq_false, Bool.not_true, Bool.false_eq_true, or_self, if_false]

theorem execJobFinalCompletion_waits (h : j.ph ≠ .running ∨ (∃ c ∈ j.clusters, s.cl[c].ended = false) ∨ (∃ o ∈ s.ops, o.job = id)) :
    execJobFinalCompletion id s = .next s := by
  have hw : j.ph ≠ .running ∨ (!(j.clusters.all fun c => s.cl[c].job == some id && s.cl[c].ended)) = true ∨ s.ops.any (·.job == id) = true := by
    refine h.imp_right (Or.imp (fun ⟨c, hm, he⟩ => ?_) fun ⟨o, hm, ho⟩ => ?_)
    · rw [Bool.not_eq_true', List.all_eq_false]
      exact ⟨c, hm, by rw [he, Bool.and_false]; exact Bool.false_ne_true⟩
    · exact List.any_eq_true.mpr ⟨o, hm, beq_iff_eq.mpr ho⟩
  simp only [execJobFinalCompletion, hj, if_pos hw]

end Live

/-! ## Cancellation -/

/-- The fetched and undecided jobs that a cancel word names, in the order of their fetch. -/
def State.undecidedNamed (s : State) (p : Fin 16) (v : W32) : List (Fin 8 × Nat × W32) :=
  ((List.finRange 8).flatMap (s.undecided p)).filter fun e => cancelNames v e.1.val e.2.1 e.2.2

/-- The live jobs that a cancel word names. -/
def State.liveNamed (s : State) (p : Fin 16) (v : W32) : List Job :=
  s.jobs.filter fun j => j.ptn == p && j.ph != .ended && j.ring.val == fld v 12 3 && j.slot == fld v 0 12
    && (!bit v 15 || fld j.fseq 0 16 == fld v 16 16)

theorem cancelCmd_eq (s : State) (p : Fin 16) (v : W32) : s.cancelCmd p v =
    match (s.undecidedNamed p v).getLast?, (s.liveNamed p v).getLast? with
    | some e, _ => s.modP p fun q => { q with cancels := q.cancels ++ [e] }
    | none, some j => (s.endJob j.id stCancelled 0).pumpAll
    | none, none => s.bump p .hlDbDrop 1 := by
  have hlive : (s.jobs.filter fun j => j.ptn == p && j.ph != .ended && cancelNames v j.ring.val j.slot j.fseq) = s.liveNamed p v :=
    List.filter_congr fun j _ => by simp only [cancelNames, Bool.and_assoc]
  unfold State.cancelCmd
  rw [hlive]
  rfl

/-- Settles O23: each end through the lemma about its command, a cancel through `cancelCmd_eq`, and that no conductor runs an ended job through
`runners_endJob`. -/
theorem jobEnds : Obligations.JobEnds := by
  unfold Obligations.JobEnds
  refine ⟨fun s id j hj => ⟨execDeadlineExpiry_passed hj, execDeadlineExpiry_early hj, execJobFinalCompletion_done hj,
    execJobFinalCompletion_waits hj⟩, fun s io n v ha hu hb => ?cancel, fun s id code e j hj c => ?stopped⟩
  case cancel =>
    have hexec : exec (.cancelDb (.vf io n) v) s = .next (s.cancelCmd n v) := congrArg _ (doorbell_bound ha hu hb _)
    rw [cancelCmd_eq] at hexec
    intro und l
    have hund : s.undecidedNamed n v = und := rfl
    have hl : s.liveNamed n v = l := rfl
    rw [hund, hl] at hexec
    refine ⟨fun e he => ?_, fun hu hl => ?_, fun hu j hj => ?_⟩
    · rw [hexec, he]
    · rw [hexec, hu, hl]
      rfl
    · rw [hexec, hu, hj]
      rfl
  case stopped =>
    have h := runners_endJob hj code e c
    rwa [State.runners, Fin.getElem_fin, Vector.getElem_map] at h

end Sys2Proof.Machine
end

section
/-! PROOFS. How a queued operation starts on a unit, and how one yields its unit when its slice ends (04 R94, R95; 05 R129, R130). -/

namespace Sys2Proof.Machine

/-! ## The operation that starts next -/

section Next

variable {s : State} {c : Fin 32} {k : QKind}

/-- An operation starts next exactly when it heads its queue, the device runs, nothing keeps it back, and it has the turn. -/
theorem nextOf_eq_some_iff {o : Op} : s.nextOf c k = some o ↔
    s.headOf c k = some o ∧ s.running = true ∧ s.canStart o = true ∧ s.hasTurn o = true := by
  simp only [State.nextOf, Option.filter_eq_some_iff, Bool.and_eq_true, and_assoc]

theorem nextOf_eq_none_of_head {o : Op} (ho : s.headOf c k = some o) (h : s.running = false ∨ s.canStart o = false ∨ s.hasTurn o = false) :
    s.nextOf c k = none := by
  rw [State.nextOf, ho, Option.filter_some]
  rcases h with h | h | h <;> simp [h]

theorem execEngineOpStart_none (h : s.nextOf c k = none) (m : List MemEv) : execEngineOpStart c k s m = .next s := by
  simp [execEngineOpStart, h]

theorem execEngineOpStart_some {o : Op} (h : s.nextOf c k = some o) (m : List MemEv) :
    execEngineOpStart c k s m = .next ((s.meet m).startHead c k) := by
  simp [execEngineOpStart, h]

end Next

/-! ## Its unit -/

/-- Ending a hold changes the thermal state alone, on which no unit rests. -/
theorem unitOf_skipHold (s : State) (o x : Op) : (s.skipHold o).unitOf x = s.unitOf x := by
  unfold State.skipHold
  split
  · split <;> rfl
  · rfl

theorem startHead_unit {s : State} {c : Fin 32} {k : QKind} {o : Op} (h : s.nextOf c k = some o) {u : Nat} (hu : s.unitOf o = some u) :
    s.startHead c k = ((((s.skipHold o).putOn o u).settle).pumpAll) := by
  simp only [State.startHead, h, unitOf_skipHold, hu]

section Unit

variable {o : Op} (h1 : o.k ≠ .vc1) (h2 : o.k ≠ .vc2)
include h1 h2

theorem unitOf_eq_find (s : State) : s.unitOf o = (match o.home with | some u => [u] | none => unitsFor o).find? (s.unitFree o.k) := by
  unfold State.unitOf
  split
  · exact absurd ‹_› h1
  · exact absurd ‹_› h2
  · rfl

theorem unitOf_home (s : State) {u : Nat} (hh : o.home = some u) : s.unitOf o = if s.unitFree o.k u then some u else none := by
  rw [unitOf_eq_find h1 h2, hh, List.find?_singleton]

theorem unitOf_new (s : State) (hh : o.home = none) : s.unitOf o = (unitsFor o).find? (s.unitFree o.k) := by
  rw [unitOf_eq_find h1 h2, hh]

end Unit

/-! ## On its unit -/

/-- An operation as it stands on the unit where it starts. -/
def State.onUnit (s : State) (o : Op) (u : Nat) : Op :=
  { o with run := some u, home := some u, startCyc := s.clk.cyc10, sliceCyc := s.clk.cyc10 }

section Put

variable (s : State) {o : Op} (u : Nat)

theorem putOn_suspended (h : o.started = true) :
    s.putOn o u = (s.own o u).modOp o.id fun x => { x with run := some u, sliceCyc := s.clk.cyc10 } := if_pos h

theorem putOn_refused (h : o.started = false) {e : Exc} (he : startCheck s (s.onUnit o u) = .error e) :
    s.putOn o u = s.opFail (s.onUnit o u) (.exc e) := by
  simp only [State.onUnit] at he
  simp only [State.putOn, h, Bool.false_eq_true, if_false, he, State.onUnit]

theorem putOn_new (h : o.started = false) {cbs : List (List Byte)} (he : startCheck s (s.onUnit o u) = .ok cbs) :
    s.putOn o u = startGo ((s.own { s.onUnit o u with cbs := cbs } u).modOp o.id fun _ => { s.onUnit o u with cbs := cbs })
      { s.onUnit o u with cbs := cbs } := by
  simp only [State.onUnit] at he
  simp only [State.putOn, h, Bool.false_eq_true, if_false, he, State.onUnit]

end Put

/-! ## The end of a slice -/

theorem shared_iff (k : QKind) : shared k = true ↔ k ∈ [QKind.lse, .gse, .smu, .txu] := by cases k <;> decide

/-- The operation that takes a unit over when the slice of `o` ends: the first, in the order of 04 R94, of those that could go on it. -/
def State.sliceNext (s : State) (k : QKind) (unit : Nat) (o : Op) : Option Op :=
  let t := s.modOp o.id fun x => { x with run := none }
  firstBy (fun a b => match s.job? a.job, s.job? b.job with | some i, some j => s.servedBefore k i j | _, _ => false)
    (((List.finRange 32).filterMap fun c => t.headOf c k).filter fun x => t.unitOf x == some unit && t.canStart x)

section Slice

variable {s : State} {k : QKind} {unit : Nat} {o : Op}

theorem execEngineSliceExpiry_idle (h : s.running = false ∨ k ∉ [QKind.lse, .gse, .smu, .txu]) : execEngineSliceExpiry k unit s = .next s := by
  rw [← shared_iff, Bool.not_eq_true] at h
  rcases h with h | h <;> simp [execEngineSliceExpiry, h]

theorem execEngineSliceExpiry_ends (hr : s.running = true) (hk : k ∈ [QKind.lse, .gse, .smu, .txu])
    (ho : (s.ops.find? fun o => o.k == k && o.run == some unit && !s.workDone o) = some o) :
    execEngineSliceExpiry k unit s = .next (s.sliceEnd k unit o) := by
  simp only [execEngineSliceExpiry, (shared_iff k).mpr hk, hr, ho, Bool.not_true, Bool.or_self, Bool.false_eq_true, if_false]

theorem sliceEnd_eq : s.sliceEnd k unit o = (s.sliceNext k unit o).elim s fun x =>
    if x.id = o.id then s else ((((s.suspend o).skipHold x).putOn x unit).settle).pumpAll := by
  change (match s.sliceNext k unit o with | some x => _ | none => s) = _
  cases s.sliceNext k unit o <;> rfl

end Slice

/-- Settles O32: the start through `startHead_unit`, the choice of a unit through `unitOf_eq_find`, what happens on it through `putOn`, and the
end of a slice through `State.sliceNext`. -/
theorem engineStart : Obligations.EngineStart := by
  unfold Obligations.EngineStart
  refine ⟨fun s c k => ⟨fun h => ?none, fun o ho => ⟨fun h => ?waits, fun hr hc ht => ?starts⟩⟩,
    fun s o h1 h2 => ⟨fun u => unitOf_home h1 h2 s, unitOf_new h1 h2 s⟩,
    fun s o u => ⟨putOn_suspended s u, fun h e => putOn_refused s u h, fun h cbs => putOn_new s u h⟩,
    fun s k unit o ho => ⟨execEngineSliceExpiry_idle, fun hr hk => ?slice⟩⟩
  case none =>
    have hnext : s.nextOf c k = none := by rw [State.nextOf, h, Option.filter_none]
    exact fun m => execEngineOpStart_none hnext m
  case waits => exact fun m => execEngineOpStart_none (nextOf_eq_none_of_head ho h) m
  case starts =>
    have hnext : s.nextOf c k = some o := nextOf_eq_some_iff.mpr ⟨ho, hr, hc, ht⟩
    refine ⟨fun m => execEngineOpStart_some hnext m, fun u hu => ?_⟩
    rw [exec_engineOpStart, execEngineOpStart_some hnext, meet_nil, startHead_unit hnext hu]
  case slice =>
    have hends := (execEngineSliceExpiry_ends hr hk ho).trans (congrArg _ sliceEnd_eq)
    intro v cands first
    have hfirst : s.sliceNext k unit o = first := rfl
    rw [hfirst] at hends
    refine ⟨fun h => ?_, fun x h hx => ?_, fun x h hx => ?_⟩
    · rw [exec_engineSliceExpiry, hends, h, Option.elim]
    · rw [exec_engineSliceExpiry, hends, h, Option.elim, if_pos hx]
    · rw [exec_engineSliceExpiry, hends, h, Option.elim, if_neg hx]

end Sys2Proof.Machine
end

section
/-! PROOFS. Folainar's scalar, predicate, scalar-store and jump instructions (05 R111-R115, Tables 5.4 and 5.5). -/

namespace Sys2Proof.Machine

/-! ## Scalar and predicate results -/

theorem execLui_next {c : Fin 32} {o : U20} {s : State} {j : Job} (h : Ready s c o.p 4 j) :
    ∃ t, execLui c o s = .next t ∧ WritesS s t c o.rd (o.imm.signExtend 64 <<< 12) (s.cl[c].pc + 4) :=
  issue_ws (f := fun _ => o.imm.signExtend 64 <<< 12) h rfl

theorem execPnot_next {c : Fin 32} {o : R3} {s : State} {j : Job} {d a : Fin 8} (h : Ready s c o.p 4 j) (hd : o.rd.val = d.val)
    (ha : o.ra.val = a.val) (hb : o.rb = 0) : ∃ t, execPnot c o s = .next t ∧ WritesP s t c d (!s.cl[c].rp a) :=
  issue_wp (f := fun k => !k.rp a) h (by simp only [pReg_of hd, pReg_of ha, hb, if_true])

/-- Settles O3: each class is its shared operation, with the function of Table 5.5. -/
theorem scalarArithmetic : Obligations.ScalarArithmetic := by
  unfold Obligations.ScalarArithmetic
  refine ⟨fun s c o j h => ?alu, ⟨fun s c o j h => ⟨?alui, fun hn => ?shift⟩, fun s c o j h => execLui_next h⟩,
    fun s c o j d h hd => ⟨?compare, fun a b ha => ⟨fun hb => ?logic, execPnot_next h hd ha⟩⟩⟩
  case alu =>
    simp only [List.forall_mem_cons, List.not_mem_nil, false_implies, implies_true, and_true, exec_add, exec_sub, exec_and, exec_or, exec_xor, exec_sll, exec_srl, exec_sra,
      exec_mul, exec_mulh, exec_mulhu, exec_min, exec_max, exec_minu, exec_maxu]
    and_intros <;> exact aluOp_next _ h
  case alui =>
    simp only [List.forall_mem_cons, List.not_mem_nil, false_implies, implies_true, and_true, exec_addi, exec_andi, exec_ori, exec_xori]
    and_intros <;> exact aluiOp_next _ h
  case shift =>
    simp only [List.forall_mem_cons, List.not_mem_nil, false_implies, implies_true, and_true, exec_slli, exec_srli, exec_srai]
    and_intros <;> exact shiftiOp_next _ h hn
  case compare =>
    simp only [List.forall_mem_cons, List.not_mem_nil, false_implies, implies_true, and_true, exec_ceq, exec_cne, exec_clt, exec_cltu, exec_cge, exec_cgeu]
    and_intros <;> exact cmpOp_next _ h hd
  case logic =>
    simp only [List.forall_mem_cons, List.not_mem_nil, false_implies, implies_true, and_true, exec_pand, exec_por, exec_pxor]
    and_intros <;> exact predOp_next _ h hd ha hb

/-! ## The scalar data store -/

theorem sext_bytes (n v : Nat) (hn : 0 < n) : sext n v = (BitVec.ofNat (8 * n) v).signExtend 64 := sext_eq (8 * n) v (by omega)

/-- Settles O4: a load extends what it read, a store leaves the bytes that `wrLe` writes. -/
theorem scalarMemory : Obligations.ScalarMemory := by
  unfold Obligations.ScalarMemory
  refine ⟨fun s c o j h => ?load, fun s c o j h => ?store⟩
  case load =>
    simp only [List.forall_mem_cons, List.not_mem_nil, false_implies, implies_true, and_true, exec_ldb, exec_ldh, exec_ldw, exec_ldd, exec_ldbu, exec_ldhu, exec_ldwu,
      ← sext_bytes 1 _ one_pos, ← sext_bytes 2 _ two_pos, ← sext_bytes 4 _ four_pos]
    and_intros <;> exact fun a ha hal hlt => loadOp_next _ h ha hal hlt
  case store =>
    simp only [List.forall_mem_cons, List.not_mem_nil, false_implies, implies_true, and_true, exec_stb, exec_sth, exec_stw, exec_std]
    and_intros <;> exact fun a ha hal hlt => storeOp_next h ha hal hlt

/-! ## Jumps -/

/-- Clearing the two low bits of an address and keeping its low 16. -/
theorem truncate_word_aligned (x : W64) : (x >>> 2 <<< 2).truncate 16 = BitVec.ofNat 16 (x.toNat / 4 * 4) := by
  apply BitVec.eq_of_toNat_eq
  simp [Nat.shiftRight_eq_div_pow, Nat.shiftLeft_eq]

/-- Settles O5: both jumps are `jumpTo` at their target. -/
theorem jumpResult : Obligations.JumpResult := by
  unfold Obligations.JumpResult
  refine ⟨fun s c o j h ht => ?jal, fun s c o j h ht => ?jalr⟩
  case jal =>
    rw [exec_jal]
    exact jumpTo_next h ht rfl
  case jalr =>
    rw [exec_jalr, ← truncate_word_aligned]
    exact jumpTo_next h ht rfl

end Sys2Proof.Machine
end

section
/-! PROOFS. Folainar's vector instructions (05 R116, Table 5.6; 06 R157, R158). -/

namespace Sys2Proof.Machine

/-! ## Functions of two lanes, on integers and on words -/

theorem vCount_toInt (w : Bool) (b : BitVec (laneW w)) : vCount w b.toInt = b.toNat % laneW w := by
  have hdvd : laneW w ∣ 2 ^ laneW w := by cases w <;> decide
  have hmod : b.toInt % (laneW w : Int) = (b.toNat : Int) % (laneW w : Int) := by
    rw [← Int.emod_emod_of_dvd b.toInt (Int.natCast_dvd_natCast.mpr hdvd), BitVec.toInt_eq_toNat_bmod, Int.bmod_emod,
      Int.emod_emod_of_dvd _ (Int.natCast_dvd_natCast.mpr hdvd)]
  rw [vCount, hmod]
  omega

theorem ofInt_max {w : Nat} (a b : BitVec w) : BitVec.ofInt w (max a.toInt b.toInt) = if a.slt b then b else a := by
  simp only [BitVec.slt, decide_eq_true_eq]
  split
  · rw [max_eq_right (by omega), BitVec.ofInt_toInt]
  · rw [max_eq_left (by omega), BitVec.ofInt_toInt]

theorem ofInt_min {w : Nat} (a b : BitVec w) : BitVec.ofInt w (min a.toInt b.toInt) = if a.slt b then a else b := by
  simp only [BitVec.slt, decide_eq_true_eq]
  split
  · rw [min_eq_left (by omega), BitVec.ofInt_toInt]
  · rw [min_eq_right (by omega), BitVec.ofInt_toInt]

theorem ofInt_mul_two_pow {w : Nat} (a : BitVec w) (n : Nat) : BitVec.ofInt w (a.toInt * 2 ^ n) = a <<< n := by
  rw [BitVec.ofInt_mul, BitVec.ofInt_toInt, BitVec.shiftLeft_eq_mul_twoPow]
  congr 1
  apply BitVec.eq_of_toNat_eq
  rw [BitVec.toNat_twoPow, ← BitVec.toNat_ofNat, ← BitVec.ofInt_natCast, Nat.cast_pow, Nat.cast_ofNat]

theorem ofInt_div_two_pow {w : Nat} (a : BitVec w) (n : Nat) : BitVec.ofInt w (a.toInt / 2 ^ n) = a.sshiftRight n := by
  rw [BitVec.sshiftRight, Int.shiftRight_eq_div_pow]
  norm_cast

theorem ofInt_greater {w : Nat} (a b : BitVec w) :
    BitVec.ofInt w (if b.toInt < a.toInt then -1 else 0) = if b.slt a then BitVec.allOnes w else 0 := by
  simp only [BitVec.slt, decide_eq_true_eq]
  split
  · exact (BitVec.ofInt_negSucc_eq_not_ofNat (n := 0)).trans BitVec.not_zero
  · rfl

/-! ## Reductions -/

theorem foldl_add_tail (g : Nat → Int) (n : Nat) :
    (List.range n).foldl (fun acc k => acc + g (k + 1)) (g 0) = ((List.range (n + 1)).map g).sum := by
  induction n with
  | zero => simp
  | succ n ih => rw [List.range_succ, List.foldl_append, ih, List.range_succ (n := n + 1)]; simp

/-- A fold by `max` gives the value of a lane that no lane exceeds. -/
theorem foldl_max_tail (g : Nat → Int) (n : Nat) :
    (∃ i < n + 1, (List.range n).foldl (fun acc k => max acc (g (k + 1))) (g 0) = g i) ∧
      ∀ i < n + 1, g i ≤ (List.range n).foldl (fun acc k => max acc (g (k + 1))) (g 0) := by
  induction n with
  | zero => simp
  | succ n ih =>
    obtain ⟨⟨i, hi, he⟩, hle⟩ := ih
    rw [List.range_succ, List.foldl_append, List.foldl_cons, List.foldl_nil, he]
    rw [he] at hle
    refine ⟨?_, fun k hk => ?_⟩
    · rcases max_choice (g i) (g (n + 1)) with h | h
      · exact ⟨i, by omega, h⟩
      · exact ⟨n + 1, by omega, h⟩
    · rcases Nat.lt_succ_iff_lt_or_eq.mp hk with h | rfl
      · exact (hle k h).trans (le_max_left ..)
      · exact le_max_right ..

/-! ## What the shared operations write -/

theorem laneN_succ (w : Bool) : laneN w = laneN w - 1 + 1 := by cases w <;> rfl

section Ready

variable {i : Instr} {c : Fin 32} {o : V3} {s : State} {j : Job} (h : Ready s c o.p 4 j)
include h

theorem vecOp_lanes {f : Int → Int → Int} {g : BitVec (laneW o.w) → BitVec (laneW o.w) → BitVec (laneW o.w)}
    (hfg : ∀ a b, BitVec.ofInt (laneW o.w) (f a.toInt b.toInt) = g a b) :
    ∃ t v, vecOp i c o s f = .next t ∧ WritesV s t c o.rd v ∧ ∀ n < 2048 / laneW o.w, v.extractLsb' (laneW o.w * n) (laneW o.w) =
      g (s.cl[c].v[o.ra].extractLsb' (laneW o.w * n) (laneW o.w)) (s.cl[c].v[o.rb].extractLsb' (laneW o.w * n) (laneW o.w)) := by
  obtain ⟨t, v, ht, hv, hlane⟩ := vecOp_next (i := i) f h
  exact ⟨t, v, ht, hv, fun n hn => (hlane n hn).trans (hfg _ _)⟩

/-- A bitwise function of two registers is that of each of their lanes, of either width. -/
theorem vbitOp_lanes {f : BitVec 2048 → BitVec 2048 → BitVec 2048} {g : BitVec (laneW o.w) → BitVec (laneW o.w) → BitVec (laneW o.w)}
    (hfg : ∀ x y n, (f x y).extractLsb' n (laneW o.w) = g (x.extractLsb' n (laneW o.w)) (y.extractLsb' n (laneW o.w))) :
    ∃ t v, vbitOp i c o s f = .next t ∧ WritesV s t c o.rd v ∧ ∀ n < 2048 / laneW o.w, v.extractLsb' (laneW o.w * n) (laneW o.w) =
      g (s.cl[c].v[o.ra].extractLsb' (laneW o.w * n) (laneW o.w)) (s.cl[c].v[o.rb].extractLsb' (laneW o.w * n) (laneW o.w)) := by
  obtain ⟨t, ht, hv⟩ : ∃ t, vbitOp i c o s f = .next t ∧ WritesV s t c o.rd (f s.cl[c].v[o.ra] s.cl[c].v[o.rb]) :=
    issue_wv (f := fun k => f k.v[o.ra] k.v[o.rb]) h rfl
  exact ⟨t, _, ht, hv, fun n _ => hfg ..⟩

theorem vlqOp_lanes {f : Nat → Nat} (hb : o.rb = 0) (hw : o.w = true) :
    ∃ t v, vlqOp i c o s f = .next t ∧ WritesV s t c o.rd v ∧
      ∀ n < 64, v.extractLsb' (32 * n) 32 = BitVec.ofNat 32 (f (s.cl[c].v[o.ra].extractLsb' (32 * n) 32).toNat) := by
  obtain ⟨t, ht, hv⟩ : ∃ t, vlqOp i c o s f = .next t ∧ WritesV s t c o.rd (ofLanes true fun n => f (laneU true s.cl[c].v[o.ra] n)) :=
    issue_wv (f := fun k => ofLanes true fun n => f (laneU true k.v[o.ra] n)) h (if_neg (by simp [hb, hw]))
  exact ⟨t, _, ht, hv, fun n hn => (ofLanes_lane true _ n hn).trans (by rw [laneU_eq]; rfl)⟩

theorem vredOp_next (f : Int → Int → Int) (hb : o.rb = 0) :
    ∃ t, vredOp i c o s f = .next t ∧ WritesS s t c o.rd (BitVec.ofInt 64 ((List.range (laneN o.w - 1)).foldl
      (fun acc n => f acc (laneS o.w s.cl[c].v[o.ra] (n + 1))) (laneS o.w s.cl[c].v[o.ra] 0))) (s.cl[c].pc + 4) :=
  issue_ws (f := fun k => BitVec.ofInt 64 ((List.range (laneN o.w - 1)).foldl
    (fun acc n => f acc (laneS o.w k.v[o.ra] (n + 1))) (laneS o.w k.v[o.ra] 0))) h (if_neg (by simp [hb]))

/-! ## Instructions of their own -/

theorem execVsplat_lanes (ha : o.ra = 0) :
    ∃ t v, execVsplat c o s = .next t ∧ WritesV s t c o.rd v ∧
      ∀ n < 2048 / laneW o.w, v.extractLsb' (laneW o.w * n) (laneW o.w) = BitVec.ofNat (laneW o.w) (s.cl[c].rs o.rb).toNat := by
  obtain ⟨t, ht, hv⟩ : ∃ t, execVsplat c o s = .next t ∧ WritesV s t c o.rd (ofLanes o.w fun _ => (s.cl[c].rs o.rb).toNat) :=
    issue_wv (f := fun k => ofLanes o.w fun _ => (k.rs o.rb).toNat) h (if_neg (by simp [ha]))
  exact ⟨t, _, ht, hv, fun n hn => ofLanes_lane _ _ n hn⟩

theorem execVsel_next : ∃ t, execVsel c o s = .next t ∧
    WritesV s t c o.rd ((s.cl[c].v[o.ra] &&& s.cl[c].v[o.rd]) ||| (s.cl[c].v[o.rb] &&& ~~~s.cl[c].v[o.rd])) :=
  issue_wv (f := fun k => (k.v[o.ra] &&& k.v[o.rd]) ||| (k.v[o.rb] &&& ~~~k.v[o.rd])) h rfl

theorem execVmov_next (hb : o.rb = 0) : ∃ t, execVmov c o s = .next t ∧ WritesV s t c o.rd s.cl[c].v[o.ra] :=
  issue_wv (f := fun k => k.v[o.ra]) h (if_neg (by simp [hb]))

theorem execVext_next (hn : (s.cl[c].rs o.rb).toNat < laneN o.w) : ∃ t, execVext c o s = .next t ∧
    WritesS s t c o.rd (BitVec.ofInt 64 (laneS o.w s.cl[c].v[o.ra] (s.cl[c].rs o.rb).toNat)) (s.cl[c].pc + 4) :=
  issue_ws (f := fun k => BitVec.ofInt 64 (laneS o.w k.v[o.ra] (k.rs o.rb).toNat)) h (if_pos hn)

/-- VREDADD adds up the lanes. -/
theorem execVredadd_next (hb : o.rb = 0) : ∃ t, execVredadd c o s = .next t ∧
    WritesS s t c o.rd (BitVec.ofInt 64 ((List.range (laneN o.w)).map (laneS o.w s.cl[c].v[o.ra])).sum) (s.cl[c].pc + 4) := by
  rw [laneN_succ, ← foldl_add_tail]
  exact vredOp_next h (· + ·) hb

/-- VREDMAX gives the value of a lane that no lane exceeds. -/
theorem execVredmax_next (hb : o.rb = 0) : ∃ t m, execVredmax c o s = .next t ∧ WritesS s t c o.rd (BitVec.ofInt 64 m) (s.cl[c].pc + 4) ∧
    (∃ n < laneN o.w, m = laneS o.w s.cl[c].v[o.ra] n) ∧ ∀ n < laneN o.w, laneS o.w s.cl[c].v[o.ra] n ≤ m := by
  obtain ⟨t, ht, hw⟩ := vredOp_next (i := .vredmax c o) h max hb
  rw [laneN_succ]
  exact ⟨t, _, ht, hw, foldl_max_tail ..⟩

end Ready

/-- Settles O6: lane-wise functions on integers are those on words, and a register made of lanes has them. -/
theorem vectorRegisters : Obligations.VectorRegisters := by
  unfold Obligations.VectorRegisters
  refine ⟨fun s c o j h w hw => ?lanes, fun s c o j h w hw => ?other⟩
  all_goals obtain rfl : w = laneW o.w := hw
  case lanes =>
    simp only [List.forall_mem_cons, List.not_mem_nil, false_implies, implies_true, and_true, exec_vadd, exec_vsub, exec_vmul, exec_vadds,
      exec_vmax, exec_vmin, exec_vand, exec_vor, exec_vxor, exec_vshl, exec_vshr, exec_vcmpgt]
    refine ⟨vecOp_lanes h fun a b => ?add, vecOp_lanes h fun a b => ?sub, vecOp_lanes h fun a b => ?mul, vecOp_lanes h fun a b => rfl,
      vecOp_lanes h ofInt_max, vecOp_lanes h ofInt_min, vbitOp_lanes h fun x y n => BitVec.extractLsb'_and,
      vbitOp_lanes h fun x y n => BitVec.extractLsb'_or, vbitOp_lanes h fun x y n => BitVec.extractLsb'_xor,
      vecOp_lanes h (g := fun a b => a <<< (b.toNat % laneW o.w)) fun a b => ?shl,
      vecOp_lanes h (g := fun a b => a.sshiftRight (b.toNat % laneW o.w)) fun a b => ?shr,
      vecOp_lanes h (f := fun a b => if b < a then -1 else 0) (g := fun a b => if b.slt a then BitVec.allOnes _ else 0) ofInt_greater⟩
    case add => rw [BitVec.ofInt_add, BitVec.ofInt_toInt, BitVec.ofInt_toInt]
    case sub => rw [Int.sub_eq_add_neg, BitVec.ofInt_add, BitVec.ofInt_neg, BitVec.ofInt_toInt, BitVec.ofInt_toInt, BitVec.sub_eq_add_neg]
    case mul => rw [BitVec.ofInt_mul, BitVec.ofInt_toInt, BitVec.ofInt_toInt]
    case shl => rw [vCount_toInt, ofInt_mul_two_pow]
    case shr => rw [vCount_toInt, ofInt_div_two_pow]
  case other =>
    intro lane
    have hlane : lane = laneS o.w s.cl[c].v[o.ra] := funext fun n => (laneS_eq ..).symm
    rw [hlane, exec_vsplat, exec_vsel, exec_vmov, exec_vexp2, exec_vlog2, exec_vext, exec_vredadd, exec_vredmax]
    exact ⟨execVsplat_lanes h, execVsel_next h, execVmov_next h, fun hb hw => ⟨vlqOp_lanes h hb hw, vlqOp_lanes h hb hw⟩, execVext_next h,
      execVredadd_next h, execVredmax_next h⟩

end Sys2Proof.Machine
end

section
/-! PROOFS. Folainar's descriptor instructions (05 R118, Table 5.7). -/

namespace Sys2Proof.Machine

/-! ## Fields of a descriptor -/

theorem ofNat_fld {n : Nat} (x : BitVec n) (lo w : Nat) : BitVec.ofNat w (fld x lo w) = x.extractLsb' lo w := by
  apply BitVec.eq_of_toNat_eq
  rw [BitVec.extractLsb'_toNat, BitVec.toNat_ofNat, Nat.shiftRight_eq_div_pow, fld, bits, Nat.mod_mod]

theorem extractLsb'_setFld_same {n : Nat} (x : BitVec n) {lo w : Nat} (v : Nat) (h : lo + w ≤ n) :
    (setFld x lo w v).extractLsb' lo w = BitVec.ofNat w v := by
  ext i hi
  have hin : lo ≤ lo + i ∧ lo + i < lo + w := by omega
  rw [BitVec.getElem_extractLsb', getLsbD_setFld x lo w v (by omega), if_pos hin, Nat.add_sub_cancel_left, ← BitVec.getLsbD_eq_getElem,
    BitVec.getLsbD_ofNat, decide_eq_true hi, Bool.true_and]

theorem extractLsb'_setFld_other {n : Nat} (x : BitVec n) {lo w lo' w' : Nat} (v : Nat) (h : lo' + w' ≤ n) (hd : lo' + w' ≤ lo ∨ lo + w ≤ lo') :
    (setFld x lo w v).extractLsb' lo' w' = x.extractLsb' lo' w' := by
  ext i hi
  have hout : ¬ (lo ≤ lo' + i ∧ lo' + i < lo + w) := by omega
  rw [BitVec.getElem_extractLsb', getLsbD_setFld x lo w v (by omega), if_neg hout, BitVec.getElem_extractLsb']

/-- A word written into a descriptor is read back there, and the other words are as they were. -/
theorem extractLsb'_setFld_word (x : BitVec 256) (v : W64) (w k : Fin 4) :
    (setFld x (64 * w.val) 64 v.toNat).extractLsb' (64 * k.val) 64 = if k = w then v else x.extractLsb' (64 * k.val) 64 := by
  split
  case isTrue h => rw [h, extractLsb'_setFld_same x _ (by omega), BitVec.ofNat_toNat, BitVec.setWidth_eq]
  case isFalse h =>
    have : k.val ≠ w.val := fun e => h (Fin.ext e)
    exact extractLsb'_setFld_other x _ (by omega) (by omega)

/-- OFFSET moves on modulo 2^48. -/
theorem extractLsb'_setFld_offset (x : TDesc) (v : W64) :
    (setFld x 0 48 (tOff x + v.toNat)).extractLsb' 0 48 = x.extractLsb' 0 48 + v.extractLsb' 0 48 := by
  rw [extractLsb'_setFld_same x _ (by omega), tOff, BitVec.ofNat_add, ofNat_fld]
  congr 1

/-! ## The class -/

theorem dReg_of {r : Fin 32} {d : Fin 16} (h : r.val = d.val) : dReg r = some d := by simp [dReg, h]

theorem dmemAddr_of {k : Cluster} {o : DMem} {a : Nat} (h : (k.rs o.ra + BitVec.ofNat 64 (32 * o.off.toNat)).toNat = a) (h1 : a % 32 = 0)
    (h2 : a + 32 ≤ 32768) : dmemAddr k o = some a := by
  unfold dmemAddr
  rw [h]
  exact if_pos ⟨h1, h2⟩

section Memory

variable {c : Fin 32} {o : DMem} {s : State} {j : Job} {d : Fin 16} {a : Nat} (h : Ready s c o.p 4 j) (hd : o.rd.val = d.val)
  (ha : (s.cl[c].rs o.ra + BitVec.ofNat 64 (32 * o.off.toNat)).toNat = a) (hal : a % 32 = 0) (hlt : a + 32 ≤ 32768)
include h hd ha hal hlt

theorem execDld_next : ∃ t, execDld c o s = .next t ∧ WritesD s t c d (BitVec.ofNat 256 (rdLe s.cl[c].sds a 32)) :=
  issue_wd (f := fun k => BitVec.ofNat 256 (rdLe k.sds a 32)) h (by simp only [dReg_of hd, dmemAddr_of ha hal hlt])

theorem execDst_next : ∃ t, execDst c o s = .next t ∧ WritesSds s t c a 32 s.cl[c].d[d].toNat :=
  issue_sds (f := fun k => k.d[d].toNat) h (by simp only [dReg_of hd, dmemAddr_of ha hal hlt])

end Memory

section Register

variable {c : Fin 32} {o : DReg} {s : State} {j : Job} {d a : Fin 16} (h : Ready s c o.p 4 j)
include h

theorem execDsetw_next (hd : o.rd.val = d.val) (ha : o.ra = 0) :
    ∃ t, execDsetw c o s = .next t ∧ WritesD s t c d (setFld s.cl[c].d[d] (64 * o.w.val) 64 (s.cl[c].rs o.rs).toNat) :=
  issue_wd (f := fun k => setFld k.d[d] (64 * o.w.val) 64 (k.rs o.rs).toNat) h (by simp [dReg_of hd, ha])

theorem execDaddo_next (hd : o.rd.val = d.val) (ha : o.ra = 0) (hw : o.w = 0) :
    ∃ t, execDaddo c o s = .next t ∧ WritesD s t c d (setFld s.cl[c].d[d] 0 48 (tOff s.cl[c].d[d] + (s.cl[c].rs o.rs).toNat)) :=
  issue_wd (f := fun k => setFld k.d[d] 0 48 (tOff k.d[d] + (k.rs o.rs).toNat)) h (by simp [dReg_of hd, ha, hw])

theorem execDgetw_next (ha : o.ra.val = a.val) (hs : o.rs = 0) :
    ∃ t, execDgetw c o s = .next t ∧ WritesS s t c o.rd (BitVec.ofNat 64 (fld s.cl[c].d[a] (64 * o.w.val) 64)) (s.cl[c].pc + 4) :=
  issue_ws (f := fun k => BitVec.ofNat 64 (fld k.d[a] (64 * o.w.val) 64)) h (by simp [dReg_of ha, hs])

theorem execDmov_next (hd : o.rd.val = d.val) (ha : o.ra.val = a.val) (hs : o.rs = 0) (hw : o.w = 0) :
    ∃ t, execDmov c o s = .next t ∧ WritesD s t c d s.cl[c].d[a] :=
  issue_wd (f := fun k => k.d[a]) h (by simp [dReg_of hd, dReg_of ha, hs, hw])

end Register

/-- Settles O10: each command writes the one register or the 32 bytes it names, and `setFld` leaves the other fields of a descriptor. -/
theorem descriptorResult : Obligations.DescriptorResult := by
  unfold Obligations.DescriptorResult
  refine ⟨fun s c o j d a h hd ha hal hlt => ?memory, fun s c o j h => ⟨fun d hd ha => ⟨?setw, fun hw => ?addo⟩, fun a ha hs => ?get⟩⟩
  case memory =>
    rw [exec_dld, exec_dst]
    exact ⟨execDld_next h hd ha hal hlt, execDst_next h hd ha hal hlt⟩
  case setw =>
    obtain ⟨t, ht, hw⟩ := execDsetw_next h hd ha
    exact ⟨t, _, ht, hw, extractLsb'_setFld_word _ _ o.w⟩
  case addo =>
    obtain ⟨t, ht, hw⟩ := execDaddo_next h hd ha hw
    exact ⟨t, _, ht, hw, extractLsb'_setFld_offset .., extractLsb'_setFld_other _ _ (by omega) (by omega)⟩
  case get =>
    rw [exec_dgetw, exec_dmov, ← ofNat_fld]
    exact ⟨execDgetw_next h ha hs, fun d hd hw => execDmov_next h hd ha hs hw⟩

end Sys2Proof.Machine
end

section
/-! PROOFS. Folainar's tally and control instructions (05 R119, R120, R122, R134-R136, R142, Tables 5.9, 5.17 and 5.18). -/

namespace Sys2Proof.Machine

theorem bit_eq_getLsbD {n : Nat} (x : BitVec n) (i : Nat) : bit x i = x.getLsbD i := rfl

/-! ## Tallies and the words that name them -/

theorem tallyReached_eq (t v : W32) : tallyReached t v = decide (0 ≤ (t - v).toInt) := by
  have hmsb : bit (t - v) 31 = (t - v).msb := (BitVec.msb_eq_getLsbD_last _).symm
  rw [tallyReached, hmsb, BitVec.msb_eq_toInt, ← decide_not]
  exact decide_eq_decide.mpr Int.not_lt

section Named

variable {s : State} {c : Fin 32} {j : Job} {r : Fin 32} {y : Nat} (hn : NamesTally s c j r y)
include hn

theorem localTally_of : localTally s j (s.cl[c].rs r) = some y := by
  obtain ⟨hlt, rfl, hset⟩ := hn
  rw [localTally, fld_zero]
  exact if_pos ⟨hlt, hset⟩

theorem not_remote_of : bit (s.cl[c].rs r) 34 = false := Nat.testBit_lt_two_pow hn.1

end Named

section Tally

variable {i : Instr} {c : Fin 32} {o : R3} {s : State} {j : Job} {y : Nat} (h : Ready s c o.p 4 j) (hn : NamesTally s c j o.ra y)
include h hn

theorem execWait_reached (hd : o.rd = 0) (hv : 0 ≤ (s.tallyGet y - (s.cl[c].rs o.rb).truncate 32).toInt) :
    execWait c o s = .next (s.modC c fun k => { k with pc := k.pc + 4 }) :=
  issue_done h (by simp only [hd, ne_eq, not_true_eq_false, if_false, localTally_of hn, tallyReached_eq, hv, decide_true, if_true])

theorem execWait_short (hd : o.rd = 0) (hv : (s.tallyGet y - (s.cl[c].rs o.rb).truncate 32).toInt < 0) :
    execWait c o s = .next (s.modC c fun k => { k with stall := .wait y ((s.cl[c].rs o.rb).truncate 32) s.clk.gt }).settle :=
  issue_stall h (by simp only [hd, ne_eq, not_true_eq_false, if_false, localTally_of hn, tallyReached_eq, Int.not_le.mpr hv, decide_false,
    Bool.false_eq_true])

theorem tallyOp_local (hd : o.rd = 0) (signal : Bool) :
    tallyOp i c o s signal = .next ((s.tallyPut y (if signal then (s.cl[c].rs o.rb).truncate 32
      else s.tallyGet y + (s.cl[c].rs o.rb).truncate 32)).settle.modC c fun k => { k with pc := k.pc + 4 }) :=
  issue_done h (by
    simp only [hd, ne_eq, not_true_eq_false, if_false, not_remote_of hn, localTally_of hn, State.tallyAdd, Bool.false_eq_true]
    cases signal <;> rfl)

theorem execTread_next (hb : o.rb = 0) :
    ∃ t, execTread c o s = .next t ∧ WritesS s t c o.rd ((s.tallyGet y).zeroExtend 64) (s.cl[c].pc + 4) :=
  issue_ws (f := fun _ => (s.tallyGet y).zeroExtend 64) h (by simp only [hb, ne_eq, not_true_eq_false, if_false, localTally_of hn])

end Tally

/-! ## A conductor that waits -/

theorem toNat_eq_zero {n : Nat} (x : BitVec n) : x.toNat = 0 ↔ x = 0 := by
  rw [BitVec.toNat_eq, BitVec.ofNat_eq_ofNat, BitVec.toNat_zero]

section Waiting

variable {s : State} {c : Fin 32} {y : Nat} {v : W32} {since : W64} (hw : s.cl[c].stall = .wait y v since)
include hw

theorem settleC_wait : s.settleC c =
    if 0 ≤ (s.tallyGet y - v).toInt then s.modC c fun k => { k with stall := .none, pc := k.pc + 4 } else s := by
  simp only [State.settleC, hw, tallyReached_eq, decide_eq_true_eq]

/-- WAIT_TIMEOUT is raised once the limit of a WAIT has passed that is neither satisfied nor without a limit (05 R122). -/
theorem execWaitTimeout_waiting {j : Job} (hj : s.cl[c].job.bind s.job? = some j) (hr : s.running = true)
    (hh : s.dbg.halt.getLsbD c.val = false) : execWaitTimeout c s =
    if (s.P j.ptn).waitLimit ≠ 0 ∧ (s.tallyGet y - v).toInt < 0 ∧ since.toNat + 1000 * (s.P j.ptn).waitLimit.toNat < s.clk.gt.toNat then
      .next (s.except j.id j.ptn c.val c s.cl[c].pc (BitVec.ofNat 32 (rdLe s.cl[c].istore s.cl[c].pc.toNat 4)) 0 exWait)
    else .next s := by
  simp only [execWaitTimeout, hw, hj, hr, bit_eq_getLsbD, hh, tallyReached_eq, Bool.true_and, Bool.not_false, Bool.and_true, Bool.and_eq_true,
    bne_iff_ne, ne_eq, toNat_eq_zero, ← decide_not, decide_eq_true_eq, Int.not_le, and_assoc]

end Waiting

/-- Settles O11: the instructions through `localTally_of`, a stalled WAIT through `settleC_wait`, its limit through `execWaitTimeout_waiting`. -/
theorem tallyResult : Obligations.TallyResult := by
  unfold Obligations.TallyResult
  refine ⟨fun s c o j y h hn => ?named, fun s y z v => ⟨tallyGet_tallyPut s y z v, rfl⟩,
    fun s c y v since hw => ⟨fun hv => ?goesOn, fun hv => ?stays⟩,
    fun s c j y v since hj hr hw hh => ⟨fun ht hlim hv => ?timeout, fun hno => ?within⟩⟩
  case named =>
    intro v next
    exact ⟨execWait_reached h hn, execWait_short h hn, fun hd => tallyOp_local h hn hd true, fun hd => tallyOp_local h hn hd false,
      execTread_next h hn⟩
  case goesOn => rw [settleC_wait hw, if_pos hv]
  case stays => rw [settleC_wait hw, if_neg (Int.not_le.mpr hv)]
  case timeout => rw [exec_waitTimeout, execWaitTimeout_waiting hw hj hr hh, if_pos ⟨hlim, hv, ht⟩]
  case within =>
    rw [exec_waitTimeout, execWaitTimeout_waiting hw hj hr hh, if_neg]
    rintro ⟨hlim, hv, ht⟩
    rcases hno with h | h | h
    · exact Nat.not_lt.mpr h ht
    · exact hlim h
    · exact Int.not_lt.mpr h hv

/-! ## Control -/

section Control

variable {c : Fin 32} {o : CtlF} {s : State} {j : Job} (h : Ready s c o.p 4 j)
include h

theorem execNop_next (hd : o.rd = 0) (hi : o.imm = 0) : ∃ t, execNop c o s = .next t ∧ OnlyPc s t c 4 :=
  ⟨_, issue_done h (if_neg (by simp [hd, hi])), rfl⟩

theorem execDrain_empty (hd : o.rd = 0) (hi : o.imm = 0) (he : s.pendingOf c = []) : ∃ t, execDrain c o s = .next t ∧ OnlyPc s t c 4 :=
  ⟨_, issue_done h (by simp [hd, hi, he]), rfl⟩

theorem execDrain_outstanding (hd : o.rd = 0) (hi : o.imm = 0) (he : s.pendingOf c ≠ []) :
    execDrain c o s = .next (s.modC c fun k => { k with stall := .drain }).settle :=
  issue_stall h (by simp [hd, hi, he])

theorem execTime_next (hi : o.imm = 0) : ∃ t, execTime c o s = .next t ∧ WritesS s t c o.rd s.clk.gt (s.cl[c].pc + 4) :=
  issue_ws (f := fun _ => s.clk.gt) h (if_neg (by simp [hi]))

theorem execCsrr_next {v : W64} (hv : csr s c j o.imm.toNat = some v) :
    ∃ t, execCsrr c o s = .next t ∧ WritesS s t c o.rd v (s.cl[c].pc + 4) :=
  issue_ws (f := fun _ => v) h (by simp only [hv])

theorem execTrap_raises (hd : o.rd = 0) : execTrap c o s =
    .next (s.except j.id j.ptn c.val c s.cl[c].pc ((encodeWord (.trap c o)).getD (0, 0)).1 ((encodeWord (.trap c o)).getD (0, 0)).2 exTrap) :=
  issue_exc h (if_neg (by simp [hd]))

end Control

theorem csr_cfg (s : State) (c : Fin 32) (j : Job) : csr s c j 0x006 = some (if j.cfg then 1 else 0) := by
  unfold csr
  cases j.cfg <;> rfl

/-- The two halves of RESULT (05 R136). -/
theorem ofNat_halves (hi lo : W64) : BitVec.ofNat 128 (lo.toNat + hi.toNat * 2 ^ 64) = hi ++ lo := by
  apply BitVec.eq_of_toNat_eq
  have hhi := hi.isLt
  have hlo := lo.isLt
  rw [BitVec.toNat_append, BitVec.toNat_ofNat, Nat.mod_eq_of_lt (by omega), ← Nat.shiftLeft_add_eq_or_of_lt hlo, Nat.shiftLeft_eq, Nat.add_comm]

theorem execEndc_stalls {c : Fin 32} {o : EndF} {s : State} {j : Job} (h : Ready s c o.p 4 j) (ht : s.dbg.traceEn.getLsbD c.val = false) :
    execEndc c o s = .next
      ((if s.cl[c].rank = 0 then
          s.modJob j.id fun x => { x with trunc := o.t, resultLen := (s.cl[c].rs o.rd).truncate 32
                                          result := s.cl[c].rs o.rb ++ s.cl[c].rs o.ra }
        else s).modC c fun k => { k with stall := .endDrain }).settle :=
  issue_stall h (by simp only [trace_off ht, ofNat_halves])

/-- Settles O12: each command by its own rule; CSRR reads what `csr` lists. -/
theorem controlResult : Obligations.ControlResult := by
  unfold Obligations.ControlResult
  refine ⟨fun s c o j h => ⟨execNop_next h, execDrain_empty h, execDrain_outstanding h, execTime_next h, fun n v hv hn => ?csr,
    execTrap_raises h⟩, fun s c o j h ht => execEndc_stalls h ht⟩
  have hcsr : csr s c j n = some v := by
    simp only [List.mem_cons, Prod.mk.injEq, List.not_mem_nil, or_false] at hv
    obtain ⟨rfl, rfl⟩ | ⟨rfl, rfl⟩ | ⟨rfl, rfl⟩ | ⟨rfl, rfl⟩ | ⟨rfl, rfl⟩ | ⟨rfl, rfl⟩ | ⟨rfl, rfl⟩ | ⟨rfl, rfl⟩ := hv
    on_goal 7 => exact csr_cfg s c j
    all_goals rfl
  exact execCsrr_next h (hn ▸ hcsr)

end Sys2Proof.Machine
end

section
/-! PROOFS. Conductor access to tensors (05 R115, R117; 07 R167, R191, R197; 09 R241; 12 R302). -/

namespace Sys2Proof.Machine

/-! ## What the accesses of a command meet -/

theorem meet_single {s : State} (hr : s.running = true) (m : MemEv) : s.meet [m] = s.meet1 m := if_pos hr

section Met

variable {s : State} (hr : s.running = true)
include hr

theorem meet_corrected (t1 : Bool) {g : Fin 128} {off : BitVec 30} (h : s.granOk t1 g.val off.toNat = true) : s.meet [.corrected t1 g off] =
    s.report (memRec 1 (if t1 then 2 else 1) (0x50 + s.dieOf (t1, g.val)) (memDetail t1 g.val off.toNat) (s.granHolder t1 g.val)) none 0 :=
  (meet_single hr _).trans (if_pos h)

theorem meet_refetched (u : Byte) (t1 : Bool) {g : Fin 128} {off : BitVec 30} (h : s.granOk t1 g.val off.toNat = true) :
    s.meet [.refetched u t1 g off] = s.report (memRec 1 3 u.toNat (memDetail t1 g.val off.toNat) (s.granHolder t1 g.val)) none 0 :=
  (meet_single hr _).trans (if_pos h)

theorem meet_uncorrectable {p : Fin 16} {u : Nat} {t : Tensor} (ht : (s.P p).tensorAt (u * 64) = some t) (h2 : t.tier ≠ 2) :
    ∃ b, s.meet [.uncorrectable p u] = s.modP p (fun q => { q with bad := b }) ∧ ∀ x, x ∈ b ↔ x = u ∨ x ∈ (s.P p).bad := by
  refine ⟨if (s.P p).bad.contains u then (s.P p).bad else u :: (s.P p).bad, ?_, fun x => ?_⟩
  · rw [meet_single hr]
    exact (if_pos (by simpa [ht] using h2)).trans (modP_congr rfl)
  · split
    case isTrue h => exact ⟨Or.inr, fun hx => hx.elim (fun e => e ▸ List.contains_iff_mem.mp h) id⟩
    case isFalse => exact List.mem_cons

theorem meet_directory {p : Fin 16} {off : BitVec 30} (ha : (s.P p).activeValid = true) (ho : off.toNat < 32 * csTdCap (s.P p).act) :
    s.meet [.directory p off] = s.report (memRec 3 4 (0x50 + s.dieOf (true, csTdGranule (s.P p).act))
      (memDetail true (csTdGranule (s.P p).act) off.toNat) (some p)) none 0 :=
  (meet_single hr _).trans (if_pos (by simp [ha, ho]))

end Met

/-- Of its instruction, issue uses the words alone. -/
theorem issue_congr {i i' : Instr} (h : encodeWord i = encodeWord i') (c : Fin 32) (p : Fin 8) (n : Nat) (s : State)
    (body : State → Job → Res) : issue i c p n s body = issue i' c p n s body := by
  simp only [issue, h]

section Issuing

variable {s : State} {c : Fin 32} (hc : s.canIssue c = true) (m : List MemEv)
include hc

/-- What a load meets comes before it. -/
theorem execLdx_meet {o : I12} (hp : s.cl[c].rp o.p = true) : execLdx c o s m = execLdx c o (s.meet m) [] := by
  unfold execLdx
  rw [meet_nil, ite_self, hc, hp]
  exact issue_congr (i := .ldx c o m) (i' := .ldx c o []) rfl c o.p 4 (s.meet m) _

theorem execVld_meet {o : R3} (hp : s.cl[c].rp o.p = true) : execVld c o s m = execVld c o (s.meet m) [] := by
  unfold execVld
  rw [meet_nil, ite_self, hc, hp]
  exact issue_congr (i := .vld c o m) (i' := .vld c o []) rfl c o.p 4 (s.meet m) _

end Issuing

/-! ## Reads -/

theorem cndLoc_of {s : State} {j : Job} {d : Fin 16} {b : TDesc} {at_ n : Nat} {wr : Bool} {l : Loc} (hb : tOk b = true)
    (hl : s.locate j.cnd d b at_ n (!wr) wr = .ok l) : cndLoc s j d b at_ n true wr = .ok l := by
  simp only [cndLoc, hb, Bool.not_true, Bool.false_eq_true, if_false]
  exact hl

section Read

variable {s : State} {c : Fin 32} {j : Job} {d : Fin 16} {b : TDesc} {at_ n : Nat} {l : Loc} (hb : tOk b = true)
  (hl : s.locate j.cnd d b at_ n true false = .ok l)
include hb hl

theorem cndRead_stall {z : Nat} (hz : s.zeroingAt j l = some z) (f : Cluster → List Byte → Cluster) :
    cndRead s c j d b at_ n true f = .stall s (.zeroing z s.clk.cyc10) := by
  simp only [cndRead, cndLoc_of (wr := false) hb hl, hz]

theorem cndRead_onC (hz : s.zeroingAt j l = none) (hg : s.badIn j.cnd l n = false) (f : Cluster → List Byte → Cluster) :
    cndRead s c j d b at_ n true f = onC (s.readSoft { j.cnd with bad := s.unsettled j.ptn } l n).1 c
      fun k => f k (s.readSoft { j.cnd with bad := s.unsettled j.ptn } l n).2 := by
  simp only [cndRead, cndLoc_of (wr := false) hb hl, hz, hg, Bool.false_eq_true, if_false]

end Read

/-- Reading takes free values at most. -/
theorem blur_fst (s : State) (u : Nat) (all : Bool) (l : List (Nat × Nat)) (bs : List Byte) : ∃ n, (s.blur u all l bs).1 = { s with free := n } := by
  unfold State.blur
  split
  · exact ⟨_, rfl⟩
  · exact ⟨s.free, rfl⟩

theorem readSoft_eq (s : State) (w : Who) (l : Loc) (n : Nat) : ∃ k bs, s.readSoft w l n = ({ s with free := k }, bs) := by
  unfold State.readSoft
  split
  · obtain ⟨k, hk⟩ := blur_fst ..
    exact ⟨k, _, Prod.ext hk rfl⟩
  · exact ⟨s.free, _, rfl⟩

/-- Where no running operation writes, a conductor reads what memory holds. -/
theorem readSoft_settled {s : State} {j : Job} {l : Loc} {n : Nat} (h : Settled s j l n) :
    s.readSoft { j.cnd with bad := s.unsettled j.ptn } l n = (s, s.readLoc j.cnd l n) := by
  unfold State.readSoft
  split
  case h_1 u b =>
    have hlen : (s.readLoc { j.cnd with bad := s.unsettled j.ptn } (.mem u b) n).length = n := by
      simp [State.readLoc, overlay, Job.cnd, rdBytes]
    have hno : (s.unsettled j.ptn).any (meets (u, n)) = false := List.any_eq_false.mpr fun r hr => by simp [h u b rfl r hr]
    simp only [State.blur, hlen, hno, Bool.or_self, Bool.false_eq_true, if_false]
    rfl
  case h_2 => rfl

/-! ## Loads -/

theorem modC_congr {s : State} {c : Fin 32} {f g : Cluster → Cluster} (h : f s.cl[c] = g s.cl[c]) : s.modC c f = s.modC c g := by
  show { s with cl := s.cl.set c (f s.cl[c]) } = { s with cl := s.cl.set c (g s.cl[c]) }
  rw [h]

theorem ws_pc (k : Cluster) (r : Fin 32) (v : W64) : (k.ws r v).pc = k.pc := by
  unfold Cluster.ws
  split <;> rfl

section Issued

variable {i : Instr} {c : Fin 32} {p : Fin 8} {s : State} {j : Job} {rd : Fin 32} (h : Ready s c p 4 j)
include h

/-- A scalar register is written once free values have been taken. -/
theorem issue_ws_free {body : State → Job → Res} {v : W64} {n : Nat} (hb : body s j = onC { s with free := n } c fun k => k.ws rd v) :
    ∃ t v, issue i c p 4 s body = .next t ∧ WritesS { s with free := t.free } t c rd v (s.cl[c].pc + 4) := by
  refine ⟨_, v, issue_done h hb, ?_⟩
  rw [modC_pc, modC_congr (g := fun k => { k.ws rd v with pc := s.cl[c].pc + 4 }) (by rw [ws_pc]; rfl)]
  exact writesS_modC ..

/-- A vector register is written once free values have been taken. -/
theorem issue_wv_free {body : State → Job → Res} {v : BitVec 2048} {n : Nat} (hb : body s j = onC { s with free := n } c fun k => k.wv rd v) :
    ∃ t v, issue i c p 4 s body = .next t ∧ WritesV { s with free := t.free } t c rd v := by
  refine ⟨_, v, issue_done h hb, ?_⟩
  rw [modC_pc, modC_congr (g := fun k => { k.wv rd v with pc := s.cl[c].pc + 4 }) rfl]
  exact writesV_modC { s with free := n } ..

variable {d : Fin 16} {b : TDesc} {at_ n : Nat} {l : Loc} (hb : tOk b = true) (hl : s.locate j.cnd d b at_ n true false = .ok l)
  (hz : s.zeroingAt j l = none) (hg : s.badIn j.cnd l n = false)
include hb hl hz hg

/-- An instruction that loads a scalar register from a tensor. -/
theorem issue_load_ws (f : List Byte → W64) :
    (∃ t v, issue i c p 4 s (fun u i => cndRead u c i d b at_ n true fun k bs => k.ws rd (f bs)) = .next t ∧
      WritesS { s with free := t.free } t c rd v (s.cl[c].pc + 4)) ∧
    (Settled s j l n → ∃ t, issue i c p 4 s (fun u i => cndRead u c i d b at_ n true fun k bs => k.ws rd (f bs)) = .next t ∧
      WritesS s t c rd (f (s.readLoc j.cnd l n)) (s.cl[c].pc + 4)) := by
  refine ⟨?_, fun hs => ?_⟩
  · obtain ⟨m, bs, hm⟩ := readSoft_eq s { j.cnd with bad := s.unsettled j.ptn } l n
    exact issue_ws_free (v := f bs) (n := m) h (by rw [cndRead_onC hb hl hz hg, hm])
  · exact issue_ws (f := fun _ => f (s.readLoc j.cnd l n)) h (by rw [cndRead_onC hb hl hz hg, readSoft_settled hs])

/-- An instruction that loads a vector register from a tensor. -/
theorem issue_load_wv (f : List Byte → BitVec 2048) :
    (∃ t v, issue i c p 4 s (fun u i => cndRead u c i d b at_ n true fun k bs => k.wv rd (f bs)) = .next t ∧
      WritesV { s with free := t.free } t c rd v) ∧
    (Settled s j l n → ∃ t, issue i c p 4 s (fun u i => cndRead u c i d b at_ n true fun k bs => k.wv rd (f bs)) = .next t ∧
      WritesV s t c rd (f (s.readLoc j.cnd l n))) := by
  refine ⟨?_, fun hs => ?_⟩
  · obtain ⟨m, bs, hm⟩ := readSoft_eq s { j.cnd with bad := s.unsettled j.ptn } l n
    exact issue_wv_free (v := f bs) (n := m) h (by rw [cndRead_onC hb hl hz hg, hm])
  · exact issue_wv (f := fun _ => f (s.readLoc j.cnd l n)) h (by rw [cndRead_onC hb hl hz hg, readSoft_settled hs])

end Issued

/-- Of what an instruction would do, issue uses what it does in the state where it is issued. -/
theorem issue_body_congr {i : Instr} {c : Fin 32} {p : Fin 8} {n : Nat} {s : State} {f g : State → Job → Res} {j : Job} (h : Ready s c p n j)
    (hfg : f s j = g s j) : issue i c p n s f = issue i c p n s g := by
  have hj := h.job
  simp only [Fin.getElem_fin] at hj
  simp only [issue, Fin.getElem_fin, hj, hfg]

section Indexed

variable {c : Fin 32} {o : I12} {s : State} {j : Job} {d : Fin 16} {r : Fin 32} (h : Ready s c o.p 4 j) (hd : o.ra.val = d.val)
  (hi : o.imm.toNat = 128 * r.val)

include hi in
theorem xReg_of : xReg o = r := by
  apply Fin.ext
  show o.imm.toNat / 128 % 32 = r.val
  omega

include hi in
theorem imm_low_of : fld o.imm 0 7 = 0 := by rw [fld_zero]; omega

variable (hal : (tOff s.cl[c].d[d] + (s.cl[c].rs r).toNat) % 8 = 0)
include h hd hi hal

theorem execLdx_read : execLdx c o s = issue (.ldx c o []) c o.p 4 s fun u i =>
    cndRead u c i d s.cl[c].d[d] (s.cl[c].rs r).toNat 8 true fun k bs => k.ws o.rd (BitVec.ofNat 64 (ofLe bs)) := by
  unfold execLdx
  rw [meet_nil, ite_self]
  exact issue_body_congr h (by simp only [dReg_of hd, imm_low_of hi, xReg_of hi, hal, ne_eq, not_true_eq_false, if_false, beq_self_eq_true])

theorem execStx_write : execStx c o s = issue (.stx c o) c o.p 4 s fun u i =>
    cndWrite u i d s.cl[c].d[d] (s.cl[c].rs r).toNat (leBytes 8 (s.cl[c].rs o.rd).toNat) true :=
  issue_body_congr h (by simp only [dReg_of hd, imm_low_of hi, xReg_of hi, hal, ne_eq, not_true_eq_false, if_false, beq_self_eq_true])

end Indexed

section Vector

variable {c : Fin 32} {o : R3} {s : State} {j : Job} {d : Fin 16} (h : Ready s c o.p 4 j) (hd : o.ra.val = d.val)
  (hal : (s.cl[c].rs o.rb).toNat % 64 = 0)
include h hd hal

theorem execVld_read : execVld c o s = issue (.vld c o []) c o.p 4 s fun u i =>
    cndRead u c i d s.cl[c].d[d] (s.cl[c].rs o.rb).toNat 256 true fun k bs => k.wv o.rd (BitVec.ofNat 2048 (ofLe bs)) := by
  unfold execVld
  rw [meet_nil, ite_self]
  exact issue_body_congr h (by simp only [dReg_of hd, hal, beq_self_eq_true])

theorem execVst_write : execVst c o s = issue (.vst c o) c o.p 4 s fun u i =>
    cndWrite u i d s.cl[c].d[d] (s.cl[c].rs o.rb).toNat (leBytes 256 s.cl[c].v[o.rd].toNat) true :=
  issue_body_congr h (by simp only [dReg_of hd, hal, beq_self_eq_true])

end Vector

/-! ## Stores -/

/-- A partition's block with bytes stored in its resident tensor at `base`. -/
def stored (uta base : Nat) (bs : List Byte) (q : Ptn) : Ptn :=
  { q with mem := wrBytes q.mem uta bs
           bad := q.bad.filter fun x => !(uta ≤ x * 64 && x * 64 + 64 ≤ uta + bs.length)
           dir := q.dir.map fun t => if t.base = base then { t with dirty := true } else t }

/-- `t` differs from `s` at most in free values taken and in the bytes that transfers have still to send. -/
def SameButSent (s t : State) : Prop :=
  { t with free := s.free, xfers := s.xfers } = s ∧ t.xfers.map (fun x => { x with data := [] }) = s.xfers.map fun x => { x with data := [] }

theorem sameButSent_blurHwr (s : State) (p : Fin 16) (uta n : Nat) (self : Option Nat) : SameButSent s (s.blurHwr p uta n self) := by
  refine List.foldlRecOn (motive := SameButSent s) _ _ ⟨rfl, rfl⟩ ?_
  rintro t ⟨hrest, hdata⟩ x -
  split
  case isFalse => exact ⟨hrest, hdata⟩
  case isTrue =>
    obtain ⟨k, hk⟩ := blur_fst t x.base false [(uta, n)] x.data
    simp only [hk]
    refine ⟨hrest, ?_⟩
    rw [← hdata]
    simp only [State.modX, List.map_map]
    exact List.map_congr_left fun y _ => by dsimp; split <;> rfl

/-- Storing bytes changes the partition's block, what the operations and the transfers of HWRs note of it, and free values taken. -/
theorem putMem_eq (s : State) (p : Fin 16) (uta base : Nat) (bs : List Byte) (self : Option Nat) : ∃ o,
    SameButSent { s.modP p (stored uta base bs) with ops := o } (s.putMem p uta base bs self) ∧
      o.map (fun x => { x with stale := [] }) = s.ops.map (fun x => { x with stale := [] }) := by
  unfold State.putMem State.modTensor
  simp only [modP_modP]
  refine ⟨_, sameButSent_blurHwr .., ?_⟩
  rw [List.map_map]
  refine List.map_congr_left fun x _ => ?_
  simp only [Function.comp_apply, Op.overwritten]
  split <;> rfl

/-- A store of a conductor, whose PC then moves on. -/
theorem storesTensor_putMem (s : State) (c : Fin 32) (p : Fin 16) (u base n v : Nat) :
    StoresTensor s ((s.putMem p u base (leBytes n v) none).modC c fun k => { k with pc := k.pc + 4 }) c p u base n v := by
  obtain ⟨o, ⟨hrest, hsent⟩, hops⟩ := putMem_eq s p u base (leBytes n v) none
  generalize s.putMem p u base (leBytes n v) none = t at hrest hsent ⊢
  have ht : t = { s with ptn := t.ptn, ops := t.ops, xfers := t.xfers, free := t.free } :=
    congrArg (fun x : State => { x with ptn := t.ptn, ops := t.ops, xfers := t.xfers, free := t.free }) hrest
  have hP : ∀ q, t.P q = (s.modP p (stored u base (leBytes n v))).P q := fun q => by
    have hq := congrArg (State.P · q) hrest
    exact hq
  have hp : (t.modC c fun k => { k with pc := k.pc + 4 }).P p = stored u base (leBytes n v) (s.P p) := (hP p).trans (modP_same ..)
  refine ⟨congrArg (fun x : State => { x with ptn := s.ptn, cl := s.cl, ops := s.ops }) hrest, congrArg (State.modC · c _) ht,
    fun q hq => (hP q).trans (modP_other s p q _ hq), ?_, ?_, fun x => ?_, ?_, hsent, fun a => ?_⟩
  · rw [hp]; rfl
  · rw [hp]; rfl
  · rw [hp, stored]
    simp only [List.mem_filter, leBytes_length, Bool.not_eq_true', Bool.and_eq_false_iff, decide_eq_false_iff_not, not_and_or]
  · rw [← hops]
    exact congrArg (fun x : State => x.ops.map fun x => { x with stale := [] }) hrest
  · rw [hp]
    exact sget_wrLe ..

section Write

variable {s : State} {j : Job} {d : Fin 16} {b : TDesc} {at_ u base : Nat} {bs : List Byte} (hb : tOk b = true)
  (hl : s.locate j.cnd d b at_ bs.length false true = .ok (.mem u base))
include hb hl

theorem cndWrite_stall (hz : (s.P j.ptn).zeroing base = true) : cndWrite s j d b at_ bs true = .stall s (.zeroing base s.clk.cyc10) := by
  simp only [cndWrite, cndLoc_of (wr := true) hb hl, State.zeroingAt, hz, if_true]

theorem cndWrite_done (hz : (s.P j.ptn).zeroing base = false) (hg : s.badEdge j.cnd (.mem u base) bs.length = false) :
    cndWrite s j d b at_ bs true = .done (s.putMem j.ptn u base bs none) := by
  simp only [cndWrite, cndLoc_of (wr := true) hb hl, State.zeroingAt, hz, hg, Bool.false_eq_true, if_false]

end Write

/-- An instruction that stores `n` bytes in a resident tensor. -/
theorem issue_store {i : Instr} {c : Fin 32} {p : Fin 8} {s : State} {j : Job} {d : Fin 16} {b : TDesc} {at_ u base n v : Nat}
    (h : Ready s c p 4 j) (hb : tOk b = true) (hl : s.locate j.cnd d b at_ n false true = .ok (.mem u base))
    (hz : (s.P j.ptn).zeroing base = false) (hg : s.badEdge j.cnd (.mem u base) n = false) :
    ∃ t, issue i c p 4 s (fun u i => cndWrite u i d b at_ (leBytes n v) true) = .next t ∧ StoresTensor s t c j.ptn u base n v := by
  rw [← leBytes_length n v] at hl hg
  exact ⟨_, issue_done h (cndWrite_done hb hl hz hg), storesTensor_putMem ..⟩

/-- Settles O9: each access is `cndRead` or `cndWrite` at the place that `locate` gives. -/
theorem tensorMemory : Obligations.TensorMemory := by
  unfold Obligations.TensorMemory
  refine ⟨⟨fun s c o j d r l h hd hi hb hal hl => ?ldx, fun s c o j d l h hd hb hal hl hz hg => ?vld⟩,
    ⟨fun s c o j d r u base h hd hi hb hal hl => ?stx, fun s c o j d u base h hd hb hal hl hz hg => ?vst⟩,
    fun s c m hc => ⟨fun o => execLdx_meet hc m, fun o => execVld_meet hc m⟩,
    fun s hr => ⟨fun t1 g off => meet_corrected hr t1, fun u t1 g off => meet_refetched hr u t1, fun p u t => meet_uncorrectable hr,
      fun p off => meet_directory hr⟩⟩
  case ldx =>
    rw [exec_ldx, execLdx_read h hd hi hal]
    exact ⟨fun z hz => issue_stall h (cndRead_stall hb hl hz _), fun hz hg => issue_load_ws h hb hl hz hg fun bs => BitVec.ofNat 64 (ofLe bs)⟩
  case vld =>
    rw [exec_vld, execVld_read h hd hal]
    exact issue_load_wv h hb hl hz hg fun bs => BitVec.ofNat 2048 (ofLe bs)
  case stx =>
    rw [exec_stx, execStx_write h hd hi hal]
    exact ⟨fun hz => issue_stall h (cndWrite_stall hb hl hz), issue_store h hb hl⟩
  case vst =>
    rw [exec_vst, execVst_write h hd hal]
    exact issue_store h hb hl hz hg

end Sys2Proof.Machine
end

section
/-! PROOFS. The completion of engine operations (05 R121, R137; 06 R163, R164; 09 R235). -/

namespace Sys2Proof.Machine

section Completing

variable {s : State} {id : Nat} {o : Op} {mn : EngOp}

/-- The completion of another mnemonic finds no operation at work. -/
theorem atWork_other (hop : s.op? id = some o) (hmn : o.mn ≠ mn) : s.atWork id mn = none := by
  rw [State.atWork, hop, Option.filter_some, beq_false_of_ne hmn]
  rfl

theorem engDone_idle (h : s.atWork id mn = none) (b : Bool) (m : List MemEv) : engDone s id mn b m = .next s := by
  simp only [engDone, h, Option.isNone_none, if_true]

variable (h : s.atWork id mn = some o)
include h

/-- The errors that its accesses meet come before the completion. -/
theorem engDone_meet (b : Bool) (m : List MemEv) : engDone s id mn b m = engDone (s.meet m) id mn b [] := by
  cases hm : (s.meet m).atWork id mn <;>
    simp only [engDone, h, hm, meet_nil, Option.isNone_none, Option.isNone_some, Bool.false_eq_true, if_true, if_false]

theorem engDone_parity : engDone s id mn true [] = .next ((s.cutOp o).opFail o (.exc exData)) := by
  simp only [engDone, h, meet_nil, Option.isNone_some, Bool.false_eq_true, if_true, if_false]

theorem engDone_work : engDone s id mn false [] = .next ((opWork o s none).1.opEnd o (opWork o s none).2) := by
  simp only [engDone, h, meet_nil, Option.isNone_some, Bool.false_eq_true, if_false]

end Completing

/-- What an operation made has still to be written: it leaves its unit and waits. -/
theorem opEnd_waits {s : State} {o : Op} (h : (s.charge o).workDone o = true) : s.opEnd o none = (s.charge o).pumpAll := by
  simp only [State.opEnd, h, if_true]

/-- The completions of an operation that is on its unit, with its work still to do and no tensor of it still being zeroed. -/
theorem engDone_cases {s : State} {id : Nat} {o : Op} (hop : s.op? id = some o) (hrun : o.run ≠ none) (hs : s.running = true)
    (hwd : s.workDone o = false) (hz : ∀ b ∈ s.opTensors o, (s.P o.ptn).zeroing b = false) (mn : EngOp) :
    (o.mn ≠ mn → ∀ b m, engDone s id mn b m = .next s) ∧
    (o.mn = mn → (∀ b m, engDone s id mn b m = engDone (s.meet m) id mn b []) ∧
      engDone s id mn true [] = .next ((s.cutOp o).opFail o (.exc exData)) ∧
      (∀ t x, opWork o s none = (t, some x) → engDone s id mn false [] = .next (t.opFail o x)) ∧
      (∀ t, opWork o s none = (t, none) →
        ((t.charge o).workDone o = false → engDone s id mn false [] = .next (((t.charge o).opDone o).pumpAll)) ∧
        ((t.charge o).workDone o = true → engDone s id mn false [] = .next (t.charge o).pumpAll))) := by
  refine ⟨fun hmn => engDone_idle (atWork_other hop hmn), fun hmn => ?_⟩
  have hat := atWork_eq_some hop hmn hrun hs hwd hz
  refine ⟨engDone_meet hat, engDone_parity hat, fun t x hw => ?_, fun t hw => ⟨fun hl => ?_, fun hl => ?_⟩⟩
  · rw [engDone_work hat, hw, opEnd_some]
  · rw [engDone_work hat, hw, opEnd_none hl]
  · rw [engDone_work hat, hw, opEnd_waits hl]

/-- Settles O33: every completion is `engDone` of its mnemonic. -/
theorem engineDone : Obligations.EngineDone := by
  unfold Obligations.EngineDone
  refine ⟨fun s id o hop hrun hs hwd hz => ?completes, fun s o => ⟨fun hn => ?silent, fun hn => ?counted⟩⟩
  case completes =>
    have hdone := engDone_cases hop hrun hs hwd hz
    simp only [List.forall_mem_cons, List.not_mem_nil, false_implies, implies_true, and_true, exec_xmulDone, exec_mvmulDone, exec_topkDone,
      exec_lscanDone, exec_gathDone, exec_scatDone, exec_compactDone, exec_sampDone, exec_ttokDone, exec_tdtkDone]
    exact ⟨hdone _, hdone _, hdone _, hdone _, hdone _, hdone _, hdone _, hdone _, hdone _, hdone _⟩
  case silent => rw [State.opDone, State.opTally, if_pos hn]
  case counted =>
    rw [State.opDone, State.opTally, hn]
    rfl

end Sys2Proof.Machine
end

section
/-! PROOFS. The issue of engine operations and of KVCMP (05 R127-R130, Tables 5.12 and 5.13; 12 R285, R286). -/

namespace Sys2Proof.Machine

/-! ## Engine operations -/

theorem nextOp_noteStall (s : State) (c : Fin 32) : (s.noteStall c).nextOp = s.nextOp := by
  unfold State.noteStall
  split
  case h_1 => dsimp only; split <;> rfl
  case h_2 => rfl
  case h_3 => rfl

/-- Releasing a stall names no operation. -/
theorem nextOp_settleC (s : State) (c : Fin 32) : (s.settleC c).nextOp = s.nextOp := by
  unfold State.settleC
  dsimp only
  split
  case h_1 => rfl
  case h_2 => split <;> rfl
  case h_3 =>
    split
    · exact nextOp_noteStall s c
    · rfl
  case h_4 =>
    split
    · rfl
    · exact nextOp_noteStall s c
  case h_5 => split <;> rfl
  case h_6 => split <;> rfl

theorem nextOp_settle (s : State) : s.settle.nextOp = s.nextOp :=
  List.foldlRecOn (motive := fun t => t.nextOp = s.nextOp) _ _ rfl fun t ht c _ => (nextOp_settleC t c).trans ht

section Engine

variable {i : Instr} {c : Fin 32} {o : EngF} {s : State} {j : Job} {k : QKind} {mn : EngOp} {u : Uses} {acc : Bool} (h : Ready s c o.p 8 j)
  (hf : engFormOk o u acc = true) (ht : o.notally = false → (csTallies (s.jobSet j)).testBit (o.tally.toNat / 1024) = true)
include h hf ht

/-- What a well-formed engine-issue instruction does to its conductor. -/
theorem engIssue_eq : engIssue i c o s k mn u acc = issue i c o.p 8 s fun u _ => enqueueOrStall u (mkOp i s c j o k mn) := by
  have htally : (!o.notally && !tallyOk (s.jobSet j) o.tally.toNat) = false := by
    cases hn : o.notally
    · simpa [tallyOk] using ht hn
    · rfl
  exact issue_body_congr h (by simp only [hf, htally, Bool.not_true, Bool.false_eq_true, if_false])

theorem engIssue_room (hq : (s.queued c k).length < 16) : engIssue i c o s k mn u acc =
    .next ({ s with ops := s.ops ++ [mkOp i s c j o k mn], nextOp := s.nextOp + 1 }.modC c fun k => { k with pc := k.pc + 8 }) := by
  rw [engIssue_eq h hf ht]
  exact issue_done h (if_pos hq)

theorem engIssue_full (hq : 16 ≤ (s.queued c k).length) : engIssue i c o s k mn u acc =
    .next ({ s with nextOp := s.nextOp + 1 }.modC c fun r => { r with stall := .queue (mkOp i s c j o k mn) s.clk.cyc10 }).settle := by
  rw [engIssue_eq h hf ht]
  exact issue_stall h (if_neg (Nat.not_lt.mpr hq))

end Engine

/-! ## KVCMP -/

section Channel

variable {i : Instr} {c : Fin 32} {o : EngF} {s : State} {f : Nat}

/-- The command of another function of Table 12.1 changes nothing. -/
theorem kvIssue_other (hp : s.cl[c].rp o.p = true) (hf : fld (s.cl[c].rs o.sp) 12 3 ≠ f) (h5 : fld (s.cl[c].rs o.sp) 12 3 ≤ 5) :
    kvIssue i c o s f = .next s := if_pos (by simp only [hp, bne_iff_ne.mpr hf, h5, decide_true, Bool.and_self])

/-- The command of the function that s[SP] names is issued, and, other than COMPACT, tried at once. -/
theorem kvIssue_named {t : State} (hf : fld (s.cl[c].rs o.sp) 12 3 = f)
    (hi : engIssue i c o s .gse .kvcmp { a := true, b := true, c := false, d := false } false = .next t) (hn : t.nextOp = s.nextOp + 1) :
    kvIssue i c o s f = .next (if f = 3 then t else t.startHead c .gse) := by
  have hne : ¬ t.nextOp = s.nextOp := by omega
  simp only [kvIssue, hf, bne_self_eq_false, Bool.and_false, Bool.false_and, Bool.false_eq_true, if_false, hi, hne, or_false]

end Channel

theorem tally_field_ok {o : EngF} (hn : o.notally = true ∧ o.tally = 0 ∨ o.notally = false) : (!o.notally || o.tally == 0) = true := by
  obtain ⟨hn, hy⟩ | hn := hn
  · rw [hn, hy]; rfl
  · rw [hn]; rfl

/-- Settles O14: an engine instruction queues or stalls through `engIssue`, and a KVCMP is one through `kvIssue`. -/
theorem engineIssue : Obligations.EngineIssue := by
  unfold Obligations.EngineIssue
  refine ⟨fun s c o j h hn ht => ?engine, fun s c o j h hn ht hden hdD hdC hacc => ?channel⟩
  all_goals have htally := tally_field_ok hn
  case engine =>
    simp only [List.forall_mem_cons, List.not_mem_nil, false_implies, implies_true, and_true, exec_xmul, exec_mvmul, exec_topk, exec_lscan,
      exec_gath, exec_scat, exec_samp, exec_mconv, exec_ttok, exec_tdtk, exec_hrd, exec_hwr, Bool.and_eq_true]
    refine ⟨?xmul, ?mvmul, ?topk, ?lscan, ?gath, ?scat, ?samp, ?mconv, ?ttok, ?tdtk, ?hrd, ?hwr⟩
    all_goals
      intro he
      refine ⟨mkOp _ s c j o _ _, by and_intros <;> rfl, engIssue_room h ?_ ht, engIssue_full h ?_ ht⟩
      all_goals simp only [engFormOk, useABC, htally, he, Bool.true_or, Bool.or_true, Bool.and_self]
  case channel =>
    have hf : engFormOk o { a := true, b := true, c := false, d := false } false = true := by
      rw [engFormOk, htally, hden, hdD, hdC, hacc]
      rfl
    simp only [List.forall_mem_cons, List.not_mem_nil, false_implies, implies_true, and_true, exec_kvcmpOpen, exec_kvcmpReserve,
      exec_kvcmpSetlen, exec_kvcmpCompact, exec_kvcmpState, exec_kvcmpClose]
    refine ⟨?opens, ?reserve, ?setlen, ?compact, ?state, ?closes⟩
    all_goals
      exact ⟨kvIssue_other h.pred, fun hw => ⟨mkOp _ s c j o .gse .kvcmp, by and_intros <;> rfl,
        fun hq => kvIssue_named hw (engIssue_room h hf ht hq) rfl, fun hq => kvIssue_named hw (engIssue_full h hf ht hq) (nextOp_settle _)⟩⟩

end Sys2Proof.Machine
end

section
/-! PROOFS. The issue of ring operations (05 R126, R128; 17 R398). -/

namespace Sys2Proof.Machine

/-- A ring operation, queued on its VC (17 R398). -/
def ringOp (i : Instr) (s : State) (c : Fin 32) (j : Job) (o : Rng) (mn : EngOp) (d : Fin 16) (y : Nat) : Op :=
  { id := s.nextOp, k := if o.vc = 1 then .vc1 else .vc2, mn := mn, c := c, job := j.id, ptn := j.ptn, cfg := j.cfg
    pc := s.cl[c].pc, w1 := ((encodeWord i).getD (0, 0)).1, w2 := 0, dA := s.cl[c].d[d], dB := 0, dC := 0, dD := 0
    rA := d, rB := 0, rC := 0, rD := 0, den := false, accum := false, notally := false, sp := s.cl[c].rs o.rb
    tally := y, run := none, startCyc := 0, sliceCyc := 0, issued := s.clk.cyc10, stale := [], home := none, cuts := [], hid := 0
    doom := none, cbs := [] }

theorem ringIssue_room {i : Instr} {c : Fin 32} {o : Rng} {s : State} {j : Job} {d : Fin 16} {y : Nat} {mn : EngOp} {ropMax : Nat}
    (h : Ready s c o.p 4 j) (hd : o.ra.val = d.val) (hv : o.vc = 1 ∨ o.vc = 2) (hn : NamesTally s c j o.rd y) (hr : o.rop.val ≤ ropMax)
    (hf : mn = .rreduce → reduceOk s.cl[c].d[d] o.rop.val = true) (hq : (s.queued c (if o.vc = 1 then .vc1 else .vc2)).length < 16) :
    ringIssue i c o s mn ropMax = .next ({ s with ops := s.ops ++ [ringOp i s c j o mn d y], nextOp := s.nextOp + 1 }.modC c
      fun k => { k with pc := k.pc + 4 }) := by
  have hvc : ((o.vc != 1 && o.vc != 2) || decide (ropMax < o.rop.val)) = false := by
    rw [decide_eq_false (Nat.not_lt.mpr hr)]
    rcases hv with hv | hv <;> rw [hv] <;> rfl
  have hfmt : (decide (mn = .rreduce) && !reduceOk s.cl[c].d[d] o.rop.val) = false := by
    by_cases hm : mn = .rreduce
    · rw [hf hm, Bool.not_true, Bool.and_false]
    · rw [decide_eq_false hm, Bool.false_and]
  refine issue_done h ?_
  simp only [dReg_of hd, hvc, localTally_of hn, hfmt, Bool.false_eq_true, if_false]
  exact if_pos hq

end Sys2Proof.Machine

namespace Sys2Proof

open Machine

/-- Settles O15: each is `ringIssue` with room in its queue. -/
theorem ringIssue : Obligations.RingIssue := by
  unfold Obligations.RingIssue
  intro s c o j d y h hd hv hn
  simp only [List.forall_mem_cons, List.not_mem_nil, false_implies, implies_true, and_true, exec_rsend, exec_rrecv, exec_rreduce, beq_iff_eq,
    Bool.and_eq_true, decide_eq_true_eq]
  refine ⟨fun hr hq => ?_, fun hr hq => ?_, fun ⟨hr, hf⟩ hq => ?_⟩
  · exact ⟨ringOp _ s c j o _ d y, by and_intros <;> rfl, ringIssue_room h hd hv hn (by simp [hr]) (by simp) hq⟩
  · exact ⟨ringOp _ s c j o _ d y, by and_intros <;> rfl, ringIssue_room h hd hv hn (by simp [hr]) (by simp) hq⟩
  · exact ⟨ringOp _ s c j o _ d y, by and_intros <;> rfl, ringIssue_room h hd hv hn hr (fun _ => Bool.and_eq_true_iff.mpr ⟨hf, decide_eq_true hr⟩) hq⟩

end Sys2Proof
end

section
/-! PROOFS. Tensor instructions: PIN, UNPIN and MIG (05 R123, R124, Tables 5.10 and 5.11; 07 R192, R193). -/

namespace Sys2Proof.Machine

/-- The state with a status written to s[RD], past the instruction. -/
def withStatus (c : Fin 32) (o : Ten) (u : State) (st : Nat) : State := u.modC c fun k => { k.ws o.rd (BitVec.ofNat 64 st) with pc := k.pc + 4 }

/-- An accepted set waits for its tally, which `settleWaits` adds (05 R123, R124). -/
def withWait (j : Job) (y : Option Nat) (u : State) (bases ops : List Nat) (unpin : Bool) : State :=
  (u.modP j.ptn fun x => { x with waits := x.waits ++ [{ job := j.id, bases := bases, ops := ops, unpin := unpin, tally := y }] }).settleWaits j.ptn

/-- A tensor instruction ends by writing its status. -/
theorem issue_status {i : Instr} {c : Fin 32} {o : Ten} {s u : State} {j : Job} {body : State → Job → Res} {st : Nat} (h : Ready s c o.p 4 j)
    (hb : body s j = onC u c fun k => k.ws o.rd (BitVec.ofNat 64 st)) : issue i c o.p 4 s body = .next (withStatus c o u st) := by
  rw [issue_done h hb, modC_pc]
  simp only [ws_pc]
  rfl

theorem tenTally_of {s : State} {c : Fin 32} {j : Job} {o : Ten} {y : Option Nat} (hy : TensorTally s c j o y) :
    (if o.nt then some none else (localTally s j (s.cl[c].rs o.rb)).map some) = some y := by
  obtain ⟨hnt, -, rfl⟩ | ⟨hnt, z, hz, rfl⟩ := hy
  · rw [if_pos hnt]
  · rw [hnt, localTally_of hz]
    rfl

section Decided

variable {i : Instr} {c : Fin 32} {o : Ten} {s : State} {j : Job} {y : Option Nat} {tierMax : Nat} {unpin : Bool}
  {f : State → Job → List Tensor → Nat × State} (h : Ready s c o.p 4 j) (hr : o.ra.val + o.cnt.val ≤ 31) (hy : TensorTally s c j o y)
  (ht : o.tier.val ≤ tierMax)
include h hr hy ht

omit h in
theorem tenForm_ok : ¬ (tierMax < o.tier.val ∨ 31 < o.ra.val + o.cnt.val ∨ (o.nt ∧ o.rb ≠ 0)) := by
  rintro (htier | hcount | ⟨hnt, hrb⟩)
  · omega
  · omega
  · obtain ⟨-, hrb0, -⟩ | ⟨hnt0, -⟩ := hy
    · exact hrb hrb0
    · simp [hnt0] at hnt

theorem tenOp_notTensor (hb : tenBases (s.P j.ptn) s.cl[c] o = none) : tenOp i c o s tierMax unpin f = .next (withStatus c o s 2) :=
  issue_status h (by
    simp only [if_neg (tenForm_ok hr hy ht), tenTally_of hy, hb]
    rfl)

variable {b : List Nat} {u : State} (hb : tenBases (s.P j.ptn) s.cl[c] o = some b)
include hb

theorem tenOp_refused {st : Nat} (hf : f s j (b.filterMap (s.P j.ptn).tensor) = (st, u)) (hst : st ≠ 0) :
    tenOp i c o s tierMax unpin f = .next (withStatus c o u st) :=
  issue_status h (by simp only [if_neg (tenForm_ok hr hy ht), tenTally_of hy, hb, hf, tsOk, hst, if_false])

theorem tenOp_accepted (hf : f s j (b.filterMap (s.P j.ptn).tensor) = (0, u)) : tenOp i c o s tierMax unpin f =
    .next (withStatus c o (withWait j y u b (if unpin then (s.ops.filter (·.job == j.id)).map (·.id) else []) unpin) 0) :=
  issue_status h (by
    simp only [if_neg (tenForm_ok hr hy ht), tenTally_of hy, hb, hf, tsOk, if_true]
    rfl)

end Decided

/-- Settles O16: what each instruction decides of its set, through `tenOp`. -/
theorem tensorIssue : Obligations.TensorIssue := by
  unfold Obligations.TensorIssue
  intro s c o j y h hr hy q die coming adv pend
  simp only [exec_pin, exec_unpin, exec_mig]
  have htier : o.tier = 0 → o.tier.val ≤ 0 := fun ht => by rw [ht]; rfl
  refine ⟨fun hb => ⟨fun ht => tenOp_notTensor h hr hy (htier ht) hb, fun ht => tenOp_notTensor h hr hy (htier ht) hb,
    fun ht => tenOp_notTensor h hr hy ht hb⟩, fun b hb => ?_⟩
  refine ⟨fun ht hx => ?pinLimit, fun ht hx => ?pin, fun ht hx => ?notPinned, fun ht hx => ?unpin, fun ht hx => ?pinned, fun ht hx => ?mig⟩
  case pinLimit =>
    have hfull := List.any_eq_true.mpr (hx.imp fun t ht => ⟨ht.1, decide_eq_true ht.2⟩)
    exact tenOp_refused h hr hy (htier ht) hb (if_pos hfull) (by decide)
  case pin =>
    have hfree : ¬ ((b.filterMap q.tensor).any fun t => 65535 ≤ t.pins + coming t) = true :=
      ne_true_of_eq_false (List.any_eq_false.mpr fun t ht => by simpa using hx t ht)
    refine ⟨fun hn => tenOp_refused h hr hy (htier ht) hb ((if_neg hfree).trans ?_) (by decide),
      fun u hu => tenOp_accepted h hr hy (htier ht) hb ((if_neg hfree).trans ?_)⟩
    · rw [hn]; rfl
    · rw [hu]; rfl
  case notPinned =>
    have hnone := List.any_eq_true.mpr (hx.imp fun t ht => ⟨ht.1, beq_iff_eq.mpr ht.2⟩)
    exact tenOp_refused h hr hy (htier ht) hb (if_pos hnone) (by decide)
  case unpin =>
    have hleft : ¬ ((b.filterMap q.tensor).any fun t => q.pinsLeft t == 0) = true :=
      ne_true_of_eq_false (List.any_eq_false.mpr fun t ht => by simpa using hx t ht)
    exact tenOp_accepted h hr hy (htier ht) hb (if_neg hleft)
  case pinned =>
    have hpin : ((b.filterMap q.tensor).any fun t => 0 < t.pins || t.next.any (·.pinJob.isSome)) = true :=
      List.any_eq_true.mpr (hx.imp fun t ht => ⟨ht.1, Bool.or_eq_true_iff.mpr (.inl (decide_eq_true ht.2))⟩)
    exact tenOp_refused h hr hy ht hb (if_pos hpin) (by decide)
  case mig =>
    have hfree : ¬ ((b.filterMap q.tensor).any fun t => 0 < t.pins || t.next.any (·.pinJob.isSome)) = true :=
      ne_true_of_eq_false (List.any_eq_false.mpr fun t ht => by simpa using hx t ht)
    refine ⟨fun hn => tenOp_refused h hr hy ht hb ((if_neg hfree).trans ?_) (by decide),
      fun u hu => tenOp_accepted h hr hy ht hb ((if_neg hfree).trans ?_)⟩
    · rw [hn]; rfl
    · rw [hu]; rfl

end Sys2Proof.Machine
end

section
namespace Sys2Proof

open Machine

/-- An LDX of s0 through d0 whose access meets an error of a channel's state. -/
def ldxMeeting : Instr := .ldx 0 { p := 0, rd := 0, ra := 0, imm := 0 } [.channel 0]

/-- Refutes O60: the memory errors that an LDX or a VLD meets are operands of the command and no bits of its word, so a word read back names none. -/
theorem not_encodeDecode : ¬ Obligations.EncodeDecode := by
  unfold Obligations.EncodeDecode
  rintro ⟨hround, -, -⟩
  obtain ⟨c, hc⟩ := hround ldxMeeting _ rfl (by simp [ldxMeeting])
  have hread : decodeWord (fun _ => 0) c 0x40007000 0 = some (.ldx c { p := 0, rd := 0, ra := 0, imm := 0 } []) := rfl
  have heq := (hc fun _ => 0).symm.trans hread
  simp [ldxMeeting] at heq

end Sys2Proof
end

section
/-! PROOFS. Rules of the tensor directory and of the bytes a range holds, which the proofs about moves and directory commands share (07 R169, R172,
Table 7.2). -/

namespace Sys2Proof.Machine

/-- What storage holds once the entries of some indices are erased: at those the default, elsewhere what it held. -/
theorem sget_filter_index {β : Type} (d : β) (m : Sparse β) (keep : Nat → Bool) (j : Nat) :
    sget d (m.filter fun e => keep e.1) j = if keep j = true then sget d m j else d := by
  induction m with
  | nil => exact (ite_self d).symm
  | cons e rest ih =>
    obtain ⟨a, b⟩ := e
    by_cases hj : a = j
    · subst hj
      by_cases hk : keep a = true
      · simp [sget, hk]
      · simpa [List.filter_cons, hk] using ih
    · by_cases hk : keep a = true <;> simpa [List.filter_cons, sget, hk, hj] using ih

/-- What erasing a range leaves at an index: the default within the range, the former contents elsewhere. -/
theorem sget_sclear {β : Type} (d : β) (m : Sparse β) (lo n j : Nat) :
    sget d (sclear m lo n) j = if lo ≤ j ∧ j < lo + n then d else sget d m j := by
  refine (sget_filter_index d m (fun a => a < lo || lo + n ≤ a) j).trans ?_
  rw [← ite_not]
  exact if_congr (by simp only [Bool.or_eq_true, decide_eq_true_eq]; omega) rfl rfl

theorem base_of_tensor {q : Ptn} {base : Nat} {t : Tensor} (h : q.tensor base = some t) : t.base = base := by
  simpa using List.find?_some h

/-- A change of the entry at `base` that keeps where tensors lie is seen by looking that entry up, and by no other. -/
theorem find_base_map {f : Tensor → Tensor} (hf : ∀ t, (f t).base = t.base) (l : List Tensor) (base b : Nat) :
    (l.map fun t => if t.base = base then f t else t).find? (·.base == b) =
      (l.find? (·.base == b)).map fun t => if t.base = base then f t else t := by
  have hbase : ∀ t : Tensor, (if t.base = base then f t else t).base = t.base := fun t => by
    split
    · exact hf t
    · rfl
  simp only [List.find?_map, Function.comp_def, hbase]

end Sys2Proof.Machine
end

section
/-! PROOFS. The ends of loads, write-backs and moves (07 R174-R178, R189, R197). -/

namespace Sys2Proof.Machine

/-! ## Loads -/

theorem dieOf_lt (s : State) (g : Bool × Nat) : s.dieOf g < 4 := by
  unfold State.dieOf Fuses.dieT1
  split
  · split
    · omega
    · split <;> omega
    · omega
  · omega

theorem destTier_lt (l : Claim) : destTier l < 4 := by
  unfold destTier
  split
  · exact (Bool.toNat_lt _).trans (by decide)
  · decide

/-- The die on which a load into a claim leaves its tensor. -/
def State.loadDie (s : State) (t : Tensor) : Fin 4 := dieFin (match t.dest with | e :: _ => s.dieOf e.1.2 | [] => t.die.val)

theorem loadDie_cons {s : State} {t : Tensor} {e : (Option Nat × Bool × Nat) × Nat} {l : Claim} (h : t.dest = e :: l) :
    (s.loadDie t).val = s.dieOf e.1.2 := by
  unfold State.loadDie
  rw [h]
  exact Nat.mod_eq_of_lt (dieOf_lt s e.1.2)

/-- A partition's block once the bytes of a tensor have arrived from its backing. -/
def Ptn.filled (q : Ptn) (base : Nat) (t : Tensor) (bs : List Byte) (die : Fin 4) (now : W64) : Ptn :=
  { q with
    mem := wrBytes (sclear q.mem base (t.size * 4096)) base bs
    bad := q.bad.filter fun u => u * 64 < base || base + t.size * 4096 ≤ u * 64
    dir := q.dir.map fun u => if u.base = base then u.arrive die now else u }

section Filled

variable (q : Ptn) (base : Nat) (t : Tensor) {bs : List Byte} (die : Fin 4) (now : W64)

/-- The tensor's bytes are those that arrived, every other byte is as it was. -/
theorem sget_filled (hl : bs.length = t.size * 4096) (a : Nat) : sget 0 (q.filled base t bs die now).mem a =
    if base ≤ a ∧ a < base + t.size * 4096 then bs.getD (a - base) 0 else sget 0 q.mem a := by
  rw [Ptn.filled, sget_wrBytes, sget_sclear, hl]
  split <;> rfl

theorem tensor_filled (b : Nat) :
    (q.filled base t bs die now).tensor b = (q.tensor b).map fun u => if u.base = base then u.arrive die now else u :=
  find_base_map (f := (·.arrive die now)) (fun _ => rfl) q.dir base b

theorem tensor_filled_other {b : Nat} (h : b ≠ base) : (q.filled base t bs die now).tensor b = q.tensor b := by
  rw [tensor_filled]
  cases hb : q.tensor b with
  | none => rfl
  | some u => rw [Option.map_some, if_neg (by rw [base_of_tensor hb]; exact h)]

theorem tensor_filled_same (h : q.tensor base = some t) : (q.filled base t bs die now).tensor base = some (t.arrive die now) := by
  rw [tensor_filled, h, Option.map_some, if_pos (base_of_tensor h)]

end Filled

section Load

variable {s : State} {p : Fin 16} {base : Nat} {t : Tensor} {x : Xfer}

theorem loading_of (hr : s.running = true) (ht : (s.P p).tensor base = some t)
    (hx : (s.xfers.find? fun x => x.ptn == p && x.chan == 0 && x.base == base) = some x) (hm : t.moving = some .load) (hi : x.st = .issued)
    (hf : t.dest.free = true) : s.loading p base = some (t, x) := by
  simp [State.loading, ht, hx, hr, hm, hi, hf]

theorem execMgeLoadDone_loading (h : s.loading p base = some (t, x)) (d : HostRead) : execMgeLoadDone p base d s = s.loadEnd p base d t x := by
  simp [execMgeLoadDone, h]

theorem loadEnd_illFormed {bs : List Byte} (hl : bs.length ≠ t.size * 4096) : s.loadEnd p base (.data bs) t x = .refused .illFormed := if_pos hl

theorem loadEnd_data {bs : List Byte} (hl : bs.length = t.size * 4096) : s.loadEnd p base (.data bs) t x =
    .next (((s.delX x.id).modP p fun q => q.filled base t bs (s.loadDie t) s.clk.gt).moveEnded p base) := by
  refine (if_neg (not_not_intro hl)).trans ?_
  simp only [State.modTensor, modP_modP]
  rfl

end Load

/-! ## Write-backs -/

/-- A write-back whose transfer is done is counted. -/
def State.wbCounted (s : State) (p : Fin 16) (x : Xfer) : State := (s.delX x.id).bump p .wb 1

/-- A flushed tensor stays where it is, clean. -/
def State.wbKept (s : State) (p : Fin 16) (base : Nat) (x : Xfer) : State :=
  (s.wbCounted p x).modTensor p base fun t => { t with dirty := false, moving := none, cause := none }

/-- A tensor written back for a MIG or an eviction leaves for T2, clean. -/
def State.wbGone (s : State) (p : Fin 16) (base : Nat) (t : Tensor) (x : Xfer) : State :=
  ((s.wbCounted p x).dropCopy p t).modTensor p base fun t => { t with dirty := false }

section WriteBack

variable {s : State} {p : Fin 16} {base : Nat} {t : Tensor} {x : Xfer}

theorem writing_of (hr : s.running = true) (ht : (s.P p).tensor base = some t)
    (hx : (s.xfers.find? fun x => x.ptn == p && x.chan == 1 && x.base == base) = some x) (hi : x.st = .issued) :
    s.writing p base = some (t, x) := by
  simp [State.writing, ht, hx, hr, hi]

theorem execWritebackDone_writing (h : s.writing p base = some (t, x)) : execWritebackDone p base s = .next (s.writeEnd p base t x) := by
  simp [execWritebackDone, h]

theorem writeEnd_flush (hm : t.moving = some .flush) (hb : x.bad1 = none) : s.writeEnd p base t x = (s.wbKept p base x).moveEnded p base := by
  simp only [State.writeEnd, hm, hb]
  rfl

theorem writeEnd_flush_bad (hm : t.moving = some .flush) {u : Nat} (hb : x.bad1 = some u) : s.writeEnd p base t x =
    ((s.wbKept p base x).report { wbBadRec t p (u * 64 - base) with sev := 2 } none 0).moveEnded p base := by
  simp only [State.writeEnd, hm, hb]
  rfl

/-- A write-back that met no uncorrectable unit, or whose job no longer runs, fails none. -/
theorem writeEnd_out {b : Bool} (hm : t.moving = some (.writeback b))
    (h : x.bad1 = none ∨ ∀ id, t.cause = some id → (s.wbGone p base t x).stillRuns id = false) :
    s.writeEnd p base t x = (s.wbGone p base t x).moveEnded p base := by
  simp only [State.writeEnd, hm]
  cases hb : x.bad1 with
  | none => rfl
  | some u =>
    have hstop := h.resolve_left (by simp [hb])
    cases hc : t.cause with
    | none => rfl
    | some id => exact congrArg (State.moveEnded · p base) (if_neg (ne_true_of_eq_false (hstop id hc)))

theorem writeEnd_out_bad {b : Bool} (hm : t.moving = some (.writeback b)) {u id : Nat} (hb : x.bad1 = some u) (hc : t.cause = some id)
    (h : (s.wbGone p base t x).stillRuns id = true) :
    s.writeEnd p base t x = ((s.wbGone p base t x).failJob id (wbBadRec t p (u * 64 - base))).moveEnded p base := by
  simp only [State.writeEnd, hm, hb, hc]
  exact congrArg (State.moveEnded · p base) (if_pos h)

end WriteBack

/-! ## Moves between T0 and T1 -/

section Move

variable {s : State} {p : Fin 16} {base : Nat} {t : Tensor} {b : Bool}

theorem shifting_of (hr : s.running = true) (ht : (s.P p).tensor base = some t) (hm : t.moving = some (.move b)) :
    s.shifting p base = if t.dest.free = true then some b else none := by
  simp [State.shifting, ht, hm, hr]

theorem execMoveDone_none (h : s.shifting p base = none) : execMoveDone p base s = .next s := by
  simp [execMoveDone, h]

theorem execMoveDone_shifting (h : s.shifting p base = some b) : execMoveDone p base s = .next ((s.modTensor p base fun t =>
    { t with moving := none, cause := none, tier := if b then 1 else 0, frames := t.dest.frames, dest := [] }).moveEnded p base) := by
  have htier : BitVec.ofNat 2 b.toNat = if b then 1 else 0 := by cases b <;> rfl
  simp [execMoveDone, h, htier]

end Move

/-- Settles O37: each command finds its tensor and transfer at `loading`, `writing` or `shifting`, and its end is the rule above for what it met. -/
theorem moveEnds : Obligations.MoveEnds := by
  unfold Obligations.MoveEnds
  refine ⟨?load, ?writeBack, ?move⟩
  case load =>
    intro s p base t x hr ht hx hm hi hf
    have hdone : ∀ d, exec (.mgeLoadDone p base d []) s = s.loadEnd p base d t x :=
      execMgeLoadDone_loading (loading_of hr ht hx hm hi hf)
    refine ⟨hdone .failed, fun bs hl => (hdone _).trans (loadEnd_illFormed hl), fun bs hl => ⟨_, (hdone _).trans (loadEnd_data hl), ?_⟩⟩
    rw [modP_same]
    refine ⟨onlyP_modP (s.delX x.id) p _, rfl, rfl, sget_filled _ base t _ _ hl, fun b => tensor_filled_other _ base t _ _,
      t.arrive (s.loadDie t) s.clk.gt, tensor_filled_same _ base t _ _ ht, rfl, rfl, rfl, ?_, fun e l => loadDie_cons, rfl, rfl, rfl, rfl, rfl⟩
    exact (BitVec.toNat_ofNat ..).trans (Nat.mod_eq_of_lt (destTier_lt t.dest))
  case writeBack =>
    intro s p base t x hr ht hx hi v kept gone
    have hdone : exec (.writebackDone p base []) s = .next (s.writeEnd p base t x) := execWritebackDone_writing (writing_of hr ht hx hi)
    rw [hdone]
    refine ⟨fun hm => ⟨fun hb => ?_, fun u hb => ?_⟩, fun b hm => ⟨fun h => ?_, fun u id hb hc h => ?_⟩⟩
    · exact congrArg _ (writeEnd_flush hm hb)
    · exact congrArg _ (writeEnd_flush_bad hm hb)
    · exact congrArg _ (writeEnd_out hm h)
    · exact congrArg _ (writeEnd_out_bad hm hb hc h)
  case move =>
    intro s p base t b hr ht hm
    exact ⟨fun hf => execMoveDone_shifting ((shifting_of hr ht hm).trans (if_pos hf)),
      fun hf => execMoveDone_none ((shifting_of hr ht hm).trans (if_neg (ne_true_of_eq_false hf)))⟩

end Sys2Proof.Machine
end

section
/-! PROOFS. Page walks: the entries one after another, and the end of a walk (07 R183-R187, R189). -/

namespace Sys2Proof.Machine

/-! ## Fields of an entry -/

theorem pteAddr_eq (e : W64) : pteAddr e = e.toNat / 4096 * 4096 := by
  have he : e.toNat < 2 ^ 64 := e.isLt
  have hfits : e.toNat / 2 ^ 12 < 2 ^ 52 := by omega
  exact congrArg (· * 4096) (Nat.mod_eq_of_lt hfits)

theorem fld_eq_zero_iff {n : Nat} (x : BitVec n) (lo w : Nat) : fld x lo w = 0 ↔ x.extractLsb' lo w = 0 := by
  rw [← ofNat_fld, BitVec.ofNat_eq_ofNat, ← BitVec.toNat_inj, BitVec.toNat_ofNat, BitVec.toNat_ofNat, Nat.zero_mod, fld, bits, Nat.mod_mod]

/-- A valid entry that points to the table of the next level (07 R184). -/
def pteTable (e : W64) : Prop := e.getLsbD 0 = true ∧ e.getLsbD 3 = false ∧ e.getLsbD 4 = false ∧ e.extractLsb' 5 7 = 0

/-! ## One entry of a walk, read at its index in its table -/

theorem walk_not_present {page level table : Nat} {a e : W64} (ha : a.toNat = (table + 8 * pteIndex page level) % 2 ^ 64)
    (hv : e.getLsbD 0 = false) (rest : List (W64 × W64)) : walk page level table ((a, e) :: rest) = .fault 1 := by
  have hv' : (!pteV e) = true := by rw [pteV, bit_eq_getLsbD, hv]; rfl
  rw [walk.eq_def]
  exact (if_neg (not_not_intro ha)).trans (if_pos hv')

section Upper

variable {page n table : Nat} {a e : W64} (ha : a.toNat = (table + 8 * pteIndex page (n + 1)) % 2 ^ 64) (rest : List (W64 × W64))
include ha

/-- A valid entry above level 0: reserved bits fault, a leaf maps 512 pages where it may stand, and a table leads on. -/
theorem walk_upper (hv : e.getLsbD 0 = true) : walk page (n + 1) table ((a, e) :: rest) =
    if e.extractLsb' 5 7 ≠ 0 ∨ e.getLsbD 4 = true then .fault 3
    else if e.getLsbD 3 = true then
      if n = 0 ∧ e.extractLsb' 12 9 = 0 then .leaf (page / 512 * 512) 512 (e.toNat / 4096 * 4096) (e.getLsbD 1) (e.getLsbD 2) else .fault 3
    else walk page n (e.toNat / 4096 * 4096) rest := by
  have hv' : ¬ (!pteV e) = true := by rw [pteV, bit_eq_getLsbD, hv]; decide
  rw [walk, if_neg (not_not_intro ha), if_neg hv']
  simp only [Bool.or_eq_true, bne_iff_ne, ne_eq, fld_eq_zero_iff, pteAddr_eq]
  rfl

theorem walk_table (h : pteTable e) : walk page (n + 1) table ((a, e) :: rest) = walk page n (e.toNat / 4096 * 4096) rest := by
  obtain ⟨hv, hleaf, hc64, hres⟩ := h
  rw [walk_upper ha rest hv, hleaf, hc64, hres]
  rfl

theorem walk_upper_reserved (hv : e.getLsbD 0 = true) (h : e.getLsbD 4 = true ∨ e.extractLsb' 5 7 ≠ 0) :
    walk page (n + 1) table ((a, e) :: rest) = .fault 3 := by
  rw [walk_upper ha rest hv, if_pos h.symm]

/-- No leaf may stand above level 1. -/
theorem walk_high_leaf (hn : n ≠ 0) (hv : e.getLsbD 0 = true) (hleaf : e.getLsbD 3 = true) :
    walk page (n + 1) table ((a, e) :: rest) = .fault 3 := by
  rw [walk_upper ha rest hv, if_pos hleaf, if_neg (c := n = 0 ∧ _) (fun h => hn h.1), ite_self]

theorem walk_level1_leaf (hn : n = 0) (hv : e.getLsbD 0 = true) (hleaf : e.getLsbD 3 = true) (hc64 : e.getLsbD 4 = false)
    (hres : e.extractLsb' 5 7 = 0) : walk page (n + 1) table ((a, e) :: rest) =
      if e.extractLsb' 12 9 = 0 then .leaf (page / 512 * 512) 512 (e.toNat / 4096 * 4096) (e.getLsbD 1) (e.getLsbD 2) else .fault 3 := by
  have hok : ¬ (e.extractLsb' 5 7 ≠ 0 ∨ e.getLsbD 4 = true) := by rw [hc64, hres]; decide
  rw [walk_upper ha rest hv, if_neg hok, if_pos hleaf]
  simp only [hn, true_and]

end Upper

section Level0

variable {page table : Nat} {a e : W64} (ha : a.toNat = (table + 8 * pteIndex page 0) % 2 ^ 64) (hv : e.getLsbD 0 = true)
  (rest : List (W64 × W64))
include ha hv

/-- A valid entry of level 0 is a leaf of one page or of its group of 16, or faults. -/
theorem walk_level0 : walk page 0 table ((a, e) :: rest) =
    if e.extractLsb' 5 7 ≠ 0 ∨ e.getLsbD 3 = false then .fault 3
    else if e.getLsbD 4 then
      .leaf (page / 16 * 16) 16 ((e.toNat / 4096 * 4096 + 2 ^ 64 - page % 16 * 4096) % 2 ^ 64) (e.getLsbD 1) (e.getLsbD 2)
    else .leaf page 1 (e.toNat / 4096 * 4096) (e.getLsbD 1) (e.getLsbD 2) := by
  have hv' : ¬ (!pteV e) = true := by rw [pteV, bit_eq_getLsbD, hv]; decide
  rw [walk, if_neg (not_not_intro ha), if_neg hv']
  simp only [Bool.or_eq_true, bne_iff_ne, ne_eq, fld_eq_zero_iff, Bool.not_eq_true', pteAddr_eq]
  rfl

theorem walk_level0_reserved (h : e.getLsbD 3 = false ∨ e.extractLsb' 5 7 ≠ 0) : walk page 0 table ((a, e) :: rest) = .fault 3 := by
  rw [walk_level0 ha hv, if_pos h.symm]

theorem walk_level0_leaf (hleaf : e.getLsbD 3 = true) (hres : e.extractLsb' 5 7 = 0) : walk page 0 table ((a, e) :: rest) =
    if e.getLsbD 4 then
      .leaf (page / 16 * 16) 16 ((e.toNat / 4096 * 4096 + 2 ^ 64 - page % 16 * 4096) % 2 ^ 64) (e.getLsbD 1) (e.getLsbD 2)
    else .leaf page 1 (e.toNat / 4096 * 4096) (e.getLsbD 1) (e.getLsbD 2) := by
  rw [walk_level0 ha hv, if_neg (by rw [hleaf, hres]; decide)]

end Level0

/-! ## The end of a walk -/

section Done

variable {s : State} {p : Fin 16} {cfg : Bool} {page : BitVec 36}

theorem execPageWalkDone_idle (h : s.waiters p cfg page.toNat = [] ∨ s.io[s.dmaIo p cfg].link = false) (w : WalkRead) :
    execPageWalkDone p cfg page w s = .next s := by
  refine if_pos ?_
  rcases h with h | h
  · rw [h]; rfl
  · rw [h]; exact Bool.or_true _

variable (hl : s.waiters p cfg page.toNat ≠ []) (hk : s.io[s.dmaIo p cfg].link = true)
include hl hk

theorem walk_awaited : ((s.waiters p cfg page.toNat).isEmpty || !s.io[s.dmaIo p cfg].link) = false := by
  rw [List.isEmpty_eq_false_iff.mpr hl, hk]
  rfl

theorem execPageWalkDone_failed : execPageWalkDone p cfg page .failed s = .next (s.each (s.waiters p cfg page.toNat) fun s x =>
    if (s.x? x.id).isSome then s.failX x 5 (x.iova + x.done) stError else s).failDoomed :=
  if_neg (ne_true_of_eq_false (walk_awaited hl hk))

variable {es : List (W64 × W64)}

theorem execPageWalkDone_short (hw : walk page.toNat 3 (csRoot ((s.P p).cset cfg)) es = .short) :
    execPageWalkDone p cfg page (.entries es) s = .refused .illFormed := by
  simp only [execPageWalkDone, hw]
  exact if_neg (ne_true_of_eq_false (walk_awaited hl hk))

theorem execPageWalkDone_fault {r : Nat} (hw : walk page.toNat 3 (csRoot ((s.P p).cset cfg)) es = .fault r) :
    execPageWalkDone p cfg page (.entries es) s = .next ((s.each (s.waiters p cfg page.toNat) fun s x => s.raiseFault x r).pumpAll) := by
  simp only [execPageWalkDone, hw]
  exact if_neg (ne_true_of_eq_false (walk_awaited hl hk))

/-- A leaf fills the IOTLB, and each waiter goes on or faults by its right. -/
theorem execPageWalkDone_leaf {first n pa : Nat} {r w : Bool} (hw : walk page.toNat 3 (csRoot ((s.P p).cset cfg)) es = .leaf first n pa r w) :
    execPageWalkDone p cfg page (.entries es) s = .next (((s.modIo (s.dmaIo p cfg) fun d =>
      { d with tlb := tlbFill d.tlb { ptn := p, cfg := cfg, page := first, pages := n, pa := pa, r := r, w := w } }).each
        (s.waiters p cfg page.toNat) fun s x =>
          if (if x.write then w else r) then s.runX x.id else s.raiseFault x rsnPermission).pumpAll.failDoomed) := by
  simp only [execPageWalkDone, hw]
  exact if_neg (ne_true_of_eq_false (walk_awaited hl hk))

end Done

/-- Settles O38: the end of a walk by the rules of its command, the walk itself by those of each level, from the root down. -/
theorem pageWalks : Obligations.PageWalks := by
  unfold Obligations.PageWalks
  refine ⟨?done, ?walk⟩
  case done =>
    intro s p cfg page l io root
    exact ⟨execPageWalkDone_idle, fun hl hk => ⟨execPageWalkDone_failed hl hk, fun es => ⟨execPageWalkDone_short hl hk,
      fun r => execPageWalkDone_fault hl hk, fun first n pa r w => execPageWalkDone_leaf hl hk⟩⟩⟩
  case walk =>
    intro page root a3 e3 a2 e2 a1 e1 a0 e0 rest table base h3 h2 h1 h0
    have h3' : a3.toNat = (root + 8 * pteIndex page 3) % 2 ^ 64 := h3
    have h2' : a2.toNat = (base e3 + 8 * pteIndex page 2) % 2 ^ 64 := h2
    have h1' : a1.toNat = (base e2 + 8 * pteIndex page 1) % 2 ^ 64 := h1
    have h0' : a0.toNat = (base e1 + 8 * pteIndex page 0) % 2 ^ 64 := by rw [h0, pteIndex, Nat.pow_zero, Nat.div_one]
    have to2 : table e3 → ∀ l, walk page 3 root ((a3, e3) :: l) = walk page 2 (base e3) l := fun t3 l => walk_table h3' l t3
    have to1 : table e3 → table e2 → ∀ l, walk page 3 root ((a3, e3) :: (a2, e2) :: l) = walk page 1 (base e2) l :=
      fun t3 t2 l => (to2 t3 _).trans (walk_table h2' l t2)
    have to0 : table e3 → table e2 → table e1 → ∀ l, walk page 3 root ((a3, e3) :: (a2, e2) :: (a1, e1) :: l) = walk page 0 (base e1) l :=
      fun t3 t2 t1 l => (to1 t3 t2 _).trans (walk_table h1' l t1)
    refine ⟨fun hv => walk_not_present h3' hv _, fun hv hleaf => walk_high_leaf h3' _ (by decide) hv hleaf,
      fun t3 hv => (to2 t3 _).trans (walk_not_present h2' hv _), fun t3 hv hleaf => (to2 t3 _).trans (walk_high_leaf h2' _ (by decide) hv hleaf),
      fun t3 t2 hv => (to1 t3 t2 _).trans (walk_not_present h1' hv _),
      fun t3 t2 hv hleaf hc64 hres => (to1 t3 t2 _).trans (walk_level1_leaf h1' _ rfl hv hleaf hc64 hres), ?reserved, fun t3 t2 t1 => ?level0⟩
    case reserved =>
      rintro e (rfl | ⟨rfl, t3⟩ | ⟨rfl, t3, t2⟩) hv hres
      · exact walk_upper_reserved h3' _ hv hres
      · exact (to2 t3 _).trans (walk_upper_reserved h2' _ hv hres)
      · exact (to1 t3 t2 _).trans (walk_upper_reserved h1' _ hv hres)
    case level0 =>
      intro w
      have hw : w = walk page 0 (base e1) ((a0, e0) :: rest) := to0 t3 t2 t1 _
      rw [hw]
      exact ⟨fun hv => walk_not_present h0' hv _, fun hv hres => walk_level0_reserved h0' hv _ hres,
        fun hv hleaf hres => walk_level0_leaf h0' hv _ hleaf hres⟩

end Sys2Proof.Machine
end

section
/-! PROOFS. Held faults, their resume, and IOTLB invalidation (07 R186, R188, R189; 03 R74). -/

namespace Sys2Proof.Machine

/-! ## Faults -/

section Held

variable {s : State} {p : Fin 16} {fid : W16} {x : Xfer} (hx : s.heldX p fid = some x)
include hx

section Expiry

variable {t : W64} (hst : x.st = .held fid t)
include hst

theorem execFaultHoldExpiry_held : execFaultHoldExpiry p fid s =
    if t.toNat + 1000000000 ≤ s.clk.gt.toNat then .next (s.failFault p x fid) else .next s := by
  simp only [execFaultHoldExpiry, hx, hst]

theorem execFaultHoldExpiry_due (h : t.toNat + 1000000000 ≤ s.clk.gt.toNat) : execFaultHoldExpiry p fid s = .next (s.failFault p x fid) :=
  (execFaultHoldExpiry_held hx hst).trans (if_pos h)

theorem execFaultHoldExpiry_early (h : s.clk.gt.toNat < t.toNat + 1000000000) : execFaultHoldExpiry p fid s = .next s :=
  (execFaultHoldExpiry_held hx hst).trans (if_neg (Nat.not_le_of_lt h))

end Expiry

variable {io : Fin 2} (ha : s.fnAlive (.vf io p) = true) (hu : s.up = true) (hb : s.ioOf p = some io) {v : W32} (hv : v.truncate 16 = fid)
include ha hu hb hv

/-- A resume through the bound VF fails the fault that it names, or retries it. -/
theorem execFaultResumeDb_bound : execFaultResumeDb (.vf io p) v s =
    .next (if v.getLsbD 16 = true then s.failFault p x fid else ((s.retryX x).promoteFault p).pumpAll.failDoomed) := by
  have hfid : BitVec.ofNat 16 (fld v 0 16) = fid := by
    rw [← hv, fld_zero, BitVec.truncate_eq_setWidth]
    apply BitVec.eq_of_toNat_eq
    rw [BitVec.toNat_ofNat, Nat.mod_mod, BitVec.toNat_setWidth]
  rw [execFaultResumeDb, doorbell_bound ha hu hb]
  simp only [hfid, hx]
  rfl

theorem execFaultResumeDb_fail (h : v.getLsbD 16 = true) : execFaultResumeDb (.vf io p) v s = .next (s.failFault p x fid) := by
  rw [execFaultResumeDb_bound hx ha hu hb hv, if_pos h]

theorem execFaultResumeDb_retry (h : v.getLsbD 16 = false) :
    execFaultResumeDb (.vf io p) v s = .next ((s.retryX x).promoteFault p).pumpAll.failDoomed := by
  rw [execFaultResumeDb_bound hx ha hu hb hv, if_neg (ne_true_of_eq_false h)]

end Held

/-! ## Invalidation -/

/-- An entry of the partition that an invalidation picks. -/
def invPicks (p : Fin 16) (hit : Tlb → Bool) (e : Tlb) : Bool := e.ptn == p && hit e

theorem invPicks_iff (p : Fin 16) (hit : Tlb → Bool) (e : Tlb) : invPicks p hit e = true ↔ e.ptn = p ∧ hit e = true := by
  rw [invPicks, Bool.and_eq_true, beq_iff_eq]

/-- The reads that have been served by an entry that an invalidation picks. -/
def State.invReads (s : State) (p : Fin 16) (hit : Tlb → Bool) : List Nat :=
  let gone := s.io.toList.flatMap fun d => d.tlb.filter (invPicks p hit)
  (s.xfers.filter fun x => x.ptn == p && !x.write && 0 < x.done &&
    gone.any fun e => e.cfg == x.cfg && x.iova / 4096 < e.page + e.pages && e.page * 4096 < x.iova + x.done).map (·.id)

theorem mem_invReads {s : State} {p : Fin 16} {hit : Tlb → Bool} {id : Nat} : id ∈ s.invReads p hit ↔
    ∃ x ∈ s.xfers, x.id = id ∧ x.ptn = p ∧ x.write = false ∧ 0 < x.done ∧ ∃ io : Fin 2, ∃ e ∈ s.io[io].tlb, (e.ptn = p ∧ hit e = true) ∧
      e.cfg = x.cfg ∧ x.iova / 4096 < e.page + e.pages ∧ e.page * 4096 < x.iova + x.done := by
  have hio : ∀ d, d ∈ s.io ↔ ∃ io : Fin 2, s.io[io] = d := fun d => by
    rw [Vector.mem_iff_getElem]
    exact ⟨fun ⟨i, hi, h⟩ => ⟨⟨i, hi⟩, h⟩, fun ⟨i, h⟩ => ⟨i, i.isLt, h⟩⟩
  simp only [State.invReads, List.mem_map, List.mem_filter, List.any_eq_true, List.mem_flatMap, Vector.mem_toList_iff, hio, invPicks_iff,
    Bool.and_eq_true, Bool.not_eq_true', decide_eq_true_eq, beq_iff_eq]
  constructor
  · rintro ⟨x, ⟨hx, ⟨⟨hp, hw⟩, hd⟩, e, ⟨-, ⟨io, rfl⟩, he, hpick⟩, ⟨hc, hlo⟩, hhi⟩, hid⟩
    exact ⟨x, hx, hid, hp, hw, hd, io, e, he, hpick, hc, hlo, hhi⟩
  · rintro ⟨x, hx, hid, hp, hw, hd, io, e, he, hpick, hc, hlo, hhi⟩
    exact ⟨x, ⟨hx, ⟨⟨hp, hw⟩, hd⟩, e, ⟨_, ⟨io, rfl⟩, he, hpick⟩, ⟨hc, hlo⟩, hhi⟩, hid⟩

/-- The device without the entries that an invalidation picks. -/
def State.invCleared (s : State) (p : Fin 16) (hit : Tlb → Bool) : State :=
  { s with io := s.io.map fun d => { d with tlb := d.tlb.filter fun e => !invPicks p hit e } }

section Start

variable {s : State} {p : Fin 16} {hit : Tlb → Bool}

theorem invStart_busy (h : (s.P p).invBusy = true) : s.invStart p hit = s.modP p fun q => { q with invDropped := true } := if_pos h

theorem invStart_idle (h : (s.P p).invBusy = false) : s.invStart p hit =
    (s.invCleared p hit).modP p fun q => { q with invBusy := true, invWait := s.invReads p hit } :=
  if_neg (ne_true_of_eq_false h)

theorem invCleared_io (io : Fin 2) :
    (s.invCleared p hit).io[io] = { s.io[io] with tlb := s.io[io].tlb.filter fun e => !invPicks p hit e } := by
  simp [State.invCleared]

theorem mem_invCleared {io : Fin 2} {e : Tlb} : e ∈ (s.invCleared p hit).io[io].tlb ↔ e ∈ s.io[io].tlb ∧ ¬ (e.ptn = p ∧ hit e = true) := by
  rw [invCleared_io, List.mem_filter, Bool.not_eq_true', ← Bool.not_eq_true, invPicks_iff]

/-- An invalidation changes the IOTLBs, BUSY and the reads it waits for. -/
theorem invStart_frame (h : (s.P p).invBusy = false) (w : List Nat) :
    let t := (s.invCleared p hit).modP p fun q => { q with invBusy := true, invWait := w }
    OnlyP p { s with io := t.io } t ∧ (t.P p).invBusy = true ∧ { t.P p with invBusy := false, invWait := (s.P p).invWait } = s.P p := by
  dsimp only
  rw [modP_same]
  refine ⟨onlyP_modP (s.invCleared p hit) p _, rfl, ?_⟩
  show { s.P p with invBusy := false } = s.P p
  rw [← h]

end Start

section Reached

variable {s : State} {fn : Fn} {p : Fin 16} (h : s.reach fn p = true)
include h

theorem execIotlbInvAll_reach : execIotlbInvAll fn p s = .next (s.invStart p fun _ => true) := congrArg Host.Outcome.next (if_pos h)

/-- The range test of IOTLB_INV_CMD.RANGE: the entry maps a named page. -/
def Ptn.invHits (q : Ptn) (e : Tlb) : Bool :=
  let lo := fld q.invAddr 12 36
  let n := q.invLen.toNat
  n != 0 && e.page < lo + n && lo < e.page + e.pages

theorem execIotlbInvRange_reach : execIotlbInvRange fn p s = .next (s.invStart p (s.P p).invHits) := congrArg Host.Outcome.next (if_pos h)

end Reached

theorem invHits_iff (q : Ptn) (e : Tlb) : q.invHits e = true ↔ 0 < q.invLen.toNat ∧
    e.page < q.invAddr.toNat / 4096 % 2 ^ 36 + q.invLen.toNat ∧ q.invAddr.toNat / 4096 % 2 ^ 36 < e.page + e.pages := by
  simp only [Ptn.invHits, Bool.and_eq_true, bne_iff_ne, decide_eq_true_eq, and_assoc, Nat.pos_iff_ne_zero]
  rfl

section Done

variable {s : State} {p : Fin 16}

theorem execIotlbInvDone_clear (hb : (s.P p).invBusy = true) (h : ∀ id ∈ (s.P p).invWait, ∀ x, s.x? id = some x → x.st ≠ .issued) :
    execIotlbInvDone p s = .next (s.modP p fun q => { q with invBusy := false, invWait := [] }) := by
  refine congrArg Host.Outcome.next (if_pos ?_)
  rw [hb, Bool.true_and, List.all_eq_true]
  exact fun id hid => Option.all_eq_true _ _ |>.mpr fun x hx => bne_iff_ne.mpr (h id hid x hx)

theorem execIotlbInvDone_wait (h : (s.P p).invBusy = false ∨ ∃ id ∈ (s.P p).invWait, ∃ x, s.x? id = some x ∧ x.st = .issued) :
    execIotlbInvDone p s = .next s := by
  refine congrArg Host.Outcome.next (if_neg ?_)
  rcases h with h | ⟨id, hid, x, hx, hi⟩
  · rw [h, Bool.false_and]; decide
  · rw [Bool.and_eq_true, List.all_eq_true]
    rintro ⟨-, hall⟩
    have hst := hall id hid
    rw [hx, Option.all_some, hi] at hst
    exact absurd hst (by decide)

end Done

/-- Settles O39: the ends of a fault by the rules above; an invalidation drops what `invPicks` says and waits for `invReads`. -/
theorem faultsAndIotlb : Obligations.FaultsAndIotlb := by
  unfold Obligations.FaultsAndIotlb
  refine ⟨?fault, fun s fn p h => ⟨fun hb => ?busy, fun hb => ⟨?all, ?range⟩⟩, fun s p => ⟨execIotlbInvDone_clear, execIotlbInvDone_wait⟩⟩
  case fault =>
    intro s p fid x t hx hst
    exact ⟨execFaultHoldExpiry_due hx hst, execFaultHoldExpiry_early hx hst,
      fun io v ha hu hb hv => ⟨execFaultResumeDb_fail hx ha hu hb hv, execFaultResumeDb_retry hx ha hu hb hv⟩⟩
  case busy =>
    exact ⟨(execIotlbInvRange_reach h).trans (congrArg _ (invStart_busy hb)), (execIotlbInvAll_reach h).trans (congrArg _ (invStart_busy hb))⟩
  case all =>
    obtain ⟨honly, hbusy, hrest⟩ := invStart_frame (hit := fun _ => true) hb (s.invReads p fun _ => true)
    refine ⟨_, (execIotlbInvAll_reach h).trans (congrArg _ (invStart_idle hb)), honly, hbusy, hrest, fun id => ?_, fun io => ?_⟩
    · rw [modP_same]
      refine mem_invReads.trans ?_
      simp only [and_true]
    · refine (invCleared_io io).trans ?_
      simp only [invPicks, Bool.and_true, bne]
  case range =>
    obtain ⟨honly, hbusy, hrest⟩ := invStart_frame (hit := (s.P p).invHits) hb (s.invReads p (s.P p).invHits)
    refine ⟨_, (execIotlbInvRange_reach h).trans (congrArg _ (invStart_idle hb)), honly, hbusy, hrest, fun io => ⟨?_, fun e => ?_⟩⟩
    · exact congrArg (fun d : IoDie => { d with tlb := s.io[io].tlb }) (invCleared_io io)
    · exact mem_invCleared.trans (by rw [invHits_iff])

end Sys2Proof.Machine
end

section
/-! PROOFS. The directory commands CREATE, DESTROY, QUERY and FLUSH (07 R172, R173, Tables 7.3 and 7.4; the order of CREATE's results: log 24). -/

namespace Sys2Proof.Machine

/-! ## A command written to a partition that is reached -/

theorem tdOp_busy {s : State} {p : Fin 16} (hb : (s.P p).tdBusy = true) (op : Nat) :
    s.tdOp p op = s.modP p fun q => { q with tdDropped := true } := if_pos hb

theorem tdCmd_idle {s : State} {p : Fin 16} (hb : (s.P p).tdBusy = false) (f : State → State) : s.tdCmd p f = f s :=
  if_neg (ne_true_of_eq_false hb)

section Reached

variable {s : State} {fn : Fn} {p : Fin 16} (h : s.reach fn p = true)
include h

theorem execCreate_reach : execCreate fn p s = .next (s.tdOp p 1) := congrArg Host.Outcome.next (if_pos h)
theorem execDestroy_reach : execDestroy fn p s = .next (s.tdOp p 2) := congrArg Host.Outcome.next (if_pos h)
theorem execQuery_reach : execQuery fn p s = .next (s.tdOp p 3) := congrArg Host.Outcome.next (if_pos h)
theorem execFlush_reach : execFlush fn p s = .next (s.tdOp p 4) := congrArg Host.Outcome.next (if_pos h)

/-- Every directory command written while BUSY is dropped. -/
theorem exec_dropped (hb : (s.P p).tdBusy = true) {i : Instr} (hi : i ∈ [Instr.create fn p, .destroy fn p, .query fn p, .flush fn p]) :
    exec i s = .next (s.modP p fun q => { q with tdDropped := true }) := by
  simp only [List.mem_cons, List.not_mem_nil, or_false] at hi
  rcases hi with rfl | rfl | rfl | rfl
  · exact (execCreate_reach h).trans (congrArg _ (tdOp_busy hb 1))
  · exact (execDestroy_reach h).trans (congrArg _ (tdOp_busy hb 2))
  · exact (execQuery_reach h).trans (congrArg _ (tdOp_busy hb 3))
  · exact (execFlush_reach h).trans (congrArg _ (tdOp_busy hb 4))

variable (hb : (s.P p).tdBusy = false)
include hb

theorem execCreate_idle : execCreate fn p s = .next (s.doCreate p) := (execCreate_reach h).trans (congrArg _ (tdCmd_idle hb _))

theorem execDestroy_idle : execDestroy fn p s = .next (s.orWait p 2 fun s t => s.doDestroy p t) :=
  (execDestroy_reach h).trans (congrArg _ (tdCmd_idle hb _))

theorem execQuery_idle : execQuery fn p s = .next (s.doQuery p) := (execQuery_reach h).trans (congrArg _ (tdCmd_idle hb _))

theorem execFlush_idle : execFlush fn p s = .next (s.orWait p 4 fun s t => s.doFlush p t) :=
  (execFlush_reach h).trans (congrArg _ (tdCmd_idle hb _))

/-- DESTROY, QUERY and FLUSH of an address in no tensor. -/
theorem exec_notTensor (ht : (s.P p).argTensor = none) {i : Instr} (hi : i ∈ [Instr.destroy fn p, .query fn p, .flush fn p]) :
    exec i s = .next (s.tdEnd p tdNotTensor) := by
  have hwait : ∀ op f, s.orWait p op f = s.tdEnd p tdNotTensor := fun op f => by simp only [State.orWait, ht]
  have hquery : s.doQuery p = s.tdEnd p tdNotTensor := by simp only [State.doQuery, ht]
  simp only [List.mem_cons, List.not_mem_nil, or_false] at hi
  rcases hi with rfl | rfl | rfl
  · exact (execDestroy_idle h hb).trans (congrArg _ (hwait 2 _))
  · exact (execQuery_idle h hb).trans (congrArg _ hquery)
  · exact (execFlush_idle h hb).trans (congrArg _ (hwait 4 _))

end Reached

/-! ## CREATE -/

/-- The frames that an unbacked tensor may be placed in: those free on its HOME. -/
def State.createRoom (s : State) (p : Fin 16) : Frames :=
  s.freeList p (s.P p).act (s.P p).newTensor.home.toNat ((s.P p).newTensor.place == 1)

/-- The new entry of an unbacked tensor, in place. -/
def State.placed (s : State) (p : Fin 16) : Tensor :=
  { (s.P p).newTensor with tier := BitVec.ofNat 2 (s.P p).newTensor.place.toNat, die := dieFin (s.P p).newTensor.home.toNat
                           frames := (takeFrames (s.createRoom p) (s.P p).newTensor.size).1 }

theorem placed_tier (s : State) (p : Fin 16) : (s.placed p).tier = (s.P p).newTensor.place := BitVec.ofNat_toNat ..

/-- A block that holds a new entry BUSY until its frames are zeroed. -/
def Ptn.createHeld (q : Ptn) (u : Tensor) : Ptn :=
  { q.wipe u.base u.size with
    dir := q.dir ++ [u], tdBusy := true, tdWait := some { op := 1, base := u.base }
    zero := q.zero ++ [{ t0 := 0, t1 := 0, tally := 0, cl := 0, why := .create }] }

section Create

variable {s : State} {p : Fin 16}

theorem doCreate_badArg (h : (s.P p).badArg = true) : s.doCreate p = s.tdEnd p tdBadArg := if_pos h

variable (ha : (s.P p).badArg = false)
include ha

theorem doCreate_overlap (h : ∃ u ∈ (s.P p).dir, u.base < (s.P p).newTensor.base + (s.P p).newTensor.size * 4096 ∧
    (s.P p).newTensor.base < u.base + u.size * 4096) : s.doCreate p = s.tdEnd p tdOverlap := by
  refine (if_neg (ne_true_of_eq_false ha)).trans (if_pos (List.any_eq_true.mpr ?_))
  simpa only [Bool.and_eq_true, decide_eq_true_eq] using h

variable (ho : ¬ ∃ u ∈ (s.P p).dir, u.base < (s.P p).newTensor.base + (s.P p).newTensor.size * 4096 ∧
  (s.P p).newTensor.base < u.base + u.size * 4096)
include ho

/-- With arguments that are well formed and overlap nothing, CREATE looks for an entry, and then for room. -/
theorem doCreate_apart : s.doCreate p =
    if csTdCap (s.P p).act ≤ (s.P p).dir.length then s.tdEnd p tdFull
    else if (s.P p).newTensor.backed = true then
      if 2 ^ 28 < (s.P p).newTensor.size + (((s.P p).dir.filter (·.backed)).map (·.size)).sum then s.tdEnd p tdT2Limit
      else (s.modP p fun q => { q with dir := q.dir ++ [(s.P p).newTensor] }).tdEnd p tdOk
    else if frameTotal (s.createRoom p) < (s.P p).newTensor.size then (s.bump p .noRoom 1).tdEnd p tdNoRoom
    else s.modP p fun q => q.createHeld (s.placed p) := by
  have hany : ¬ ((s.P p).dir.any fun u => u.base < (s.P p).newTensor.base + (s.P p).newTensor.size * 4096 &&
      (s.P p).newTensor.base < u.base + u.size * 4096) = true := by
    simpa only [List.any_eq_true, Bool.and_eq_true, decide_eq_true_eq] using ho
  have hsplit : ∀ {b : Bool} {c : Prop} [Decidable c] (x y z : State),
      (if (b && decide c) = true then x else if b = true then y else z) = if b = true then if c then x else y else z := fun {b} => by
    cases b <;> simp
  exact (if_neg (ne_true_of_eq_false ha)).trans ((if_neg hany).trans (ite_congr rfl (fun _ => rfl) fun _ => hsplit ..))

end Create

/-- The held block reads zero in the new tensor's range and as before elsewhere. -/
theorem sget_createHeld (q : Ptn) (u : Tensor) (a : Nat) :
    sget 0 (q.createHeld u).mem a = if u.base ≤ a ∧ a < u.base + u.size * 4096 then 0 else sget 0 q.mem a :=
  sget_sclear ..

theorem createHeld_rest (q : Ptn) (u : Tensor) : { q.createHeld u with
    dir := q.dir, mem := q.mem, bad := q.bad, tdBusy := q.tdBusy, tdWait := q.tdWait, zero := q.zero } = q := rfl

/-! ## DESTROY, QUERY and FLUSH of a tensor -/

section Tensor

variable {s : State} {p : Fin 16} {t : Tensor}

theorem doQuery_tensor (h : (s.P p).argTensor = some t) : s.doQuery p = (s.modP p fun q => { q with tdRes := t.words }).tdEnd p tdOk := by
  simp only [State.doQuery, h]

theorem still_iff : t.still = true ↔ t.moving = none ∧ t.next = [] := by
  rw [Tensor.still, Bool.and_eq_true, Option.isNone_iff_eq_none, List.isEmpty_iff]

theorem orWait_moving (h : (s.P p).argTensor = some t) (hm : t.moving ≠ none ∨ t.next ≠ []) (op : Nat) (f : State → Tensor → State) :
    s.orWait p op f = s.modP p fun q => { q with tdBusy := true, tdWait := some { op := op, base := t.base } } := by
  simp only [State.orWait, h]
  exact if_neg fun hs => (still_iff.mp hs).elim fun h1 h2 => hm.elim (· h1) (· h2)

theorem orWait_still (h : (s.P p).argTensor = some t) (hm : t.moving = none) (hn : t.next = []) (op : Nat) (f : State → Tensor → State) :
    s.orWait p op f = f s t := by
  simp only [State.orWait, h]
  exact if_pos (still_iff.mpr ⟨hm, hn⟩)

theorem doDestroy_pinned (h : t.pins ≠ 0) : s.doDestroy p t = s.tdEnd p tdPinned := if_pos h

theorem doFlush_pinned (h : t.pins ≠ 0) : s.doFlush p t = s.tdEnd p tdPinned := if_pos h

variable (h : t.pins = 0)
include h

theorem doDestroy_unpinned : s.doDestroy p t =
    (s.modP p fun q => { q.wipe t.base t.size with dir := q.dir.filter fun u => u.base != t.base }).tdEnd p tdOk :=
  if_neg (not_not_intro h)

theorem doFlush_clean (hc : t.dirty = false ∨ t.backed = false ∨ t.tier = 2) : s.doFlush p t = s.tdEnd p tdOk := by
  refine (if_neg (not_not_intro h)).trans (if_pos ?_)
  rcases hc with hc | hc | hc <;> simp [hc]

theorem doFlush_starts (hd : t.dirty = true) (hb : t.backed = true) (ht : t.tier ≠ 2) : s.doFlush p t =
    (s.modP p fun q => { q with tdBusy := true, tdWait := some { op := 5, base := t.base } }).goWb p t .flush none :=
  (if_neg (not_not_intro h)).trans (if_neg (by rw [hd, hb, beq_false_of_ne ht]; decide))

end Tensor

/-- Settles O40: CREATE by the tests of `doCreate_apart` in their order, the other commands by what their tensor is doing. -/
theorem directoryCommands : Obligations.DirectoryCommands := by
  unfold Obligations.DirectoryCommands
  intro s fn p h q ends
  refine ⟨fun hb i => exec_dropped h hb, fun hb => ⟨fun ha => ?badArg, fun ha => ?create, fun ht i => exec_notTensor h hb ht,
    fun t ht => ⟨?query, fun hm => ?moving, fun hm hn => ⟨fun hp => ?pinned, fun hp => ?unpinned⟩⟩⟩⟩
  case badArg => exact (execCreate_idle h hb).trans (congrArg _ (doCreate_badArg ha))
  case create =>
    intro t overlap
    refine ⟨fun ho => (execCreate_idle h hb).trans (congrArg _ (doCreate_overlap ha ho)), fun ho => ?_⟩
    have hcreate : exec (.create fn p) s = .next _ := (execCreate_idle h hb).trans (congrArg _ (doCreate_apart ha ho))
    refine ⟨fun hf => hcreate.trans (congrArg _ (if_pos hf)), fun hf => ?_⟩
    have hfree := hcreate.trans (congrArg _ (if_neg (Nat.not_le_of_lt hf)))
    refine ⟨fun hbk hlim => hfree.trans (congrArg _ ((if_pos hbk).trans (if_pos hlim))),
      fun hbk hlim => hfree.trans (congrArg _ ((if_pos hbk).trans (if_neg (Nat.not_lt_of_le hlim)))), fun hbk => ?_⟩
    have hunbacked := hfree.trans (congrArg _ (if_neg (ne_true_of_eq_false hbk)))
    refine ⟨fun hroom => hunbacked.trans (congrArg _ (if_pos hroom)),
      fun hroom => ⟨_, hunbacked.trans (congrArg _ (if_neg (Nat.not_lt_of_le hroom))), onlyP_modP s p _, ?_⟩⟩
    rw [modP_same]
    exact ⟨rfl, congrArg (fun k => q.dir ++ [{ s.placed p with tier := k }]) (placed_tier s p), sget_createHeld q (s.placed p), rfl, rfl,
      createHeld_rest q (s.placed p)⟩
  case query => exact (execQuery_idle h hb).trans (congrArg _ (doQuery_tensor ht))
  case moving =>
    exact ⟨(execDestroy_idle h hb).trans (congrArg _ (orWait_moving ht hm 2 _)), (execFlush_idle h hb).trans (congrArg _ (orWait_moving ht hm 4 _))⟩
  case pinned =>
    exact ⟨(execDestroy_idle h hb).trans (congrArg _ ((orWait_still ht hm hn 2 _).trans (doDestroy_pinned hp))),
      (execFlush_idle h hb).trans (congrArg _ ((orWait_still ht hm hn 4 _).trans (doFlush_pinned hp)))⟩
  case unpinned =>
    have hflush : exec (.flush fn p) s = .next (s.doFlush p t) := (execFlush_idle h hb).trans (congrArg _ (orWait_still ht hm hn 4 _))
    exact ⟨(execDestroy_idle h hb).trans (congrArg _ ((orWait_still ht hm hn 2 _).trans (doDestroy_unpinned hp))),
      fun hc => hflush.trans (congrArg _ (doFlush_clean hp hc)), fun hd hb ht => hflush.trans (congrArg _ (doFlush_starts hp hd hb ht))⟩

end Sys2Proof.Machine
end

section
/-! PROOFS. The end of zeroing (07 R190, R191; 08 R209-R212; 06 R165). -/

namespace Sys2Proof.Machine

/-! ## What a zeroing request clears -/

section Owned

variable (s : State) (z : Zero)

theorem tallyGet_zeroOwned (y : Nat) : (s.zeroOwned z).tallyGet y = if bit z.tally (y / 1024) then 0 else s.tallyGet y := by
  refine (sget_filter_index 0 s.tallies (fun a => !bit z.tally (a / 1024)) y).trans ?_
  cases bit z.tally (y / 1024) <;> rfl

theorem zeroOwned_cl (c : Fin 32) : (s.zeroOwned z).cl[c] =
    if bit z.cl c.val then
      { Cluster.reset with job := s.cl[c].job, rank := s.cl[c].rank, stall := s.cl[c].stall, ended := s.cl[c].ended, startCyc := s.cl[c].startCyc
                           owner := s.cl[c].owner, trace := s.cl[c].trace, traceTotal := s.cl[c].traceTotal, traceCyc := s.cl[c].traceCyc }
    else s.cl[c] := by
  simp [State.zeroOwned]

theorem zeroOwned_P (p : Fin 16) : (s.zeroOwned z).P p = s.P p := by
  simp only [State.P, State.zeroOwned]

end Owned

/-! ## The partition's registers in a reset -/

theorem each_P {α : Type} {p : Fin 16} {f : State → α → State} (h : ∀ s a, (f s a).P p = s.P p) (l : List α) (s : State) :
    (s.each l f).P p = s.P p := by
  induction l generalizing s with
  | nil => rfl
  | cons a rest ih => exact (ih (f s a)).trans (h s a)

/-- A record that is lost changes its partition's error ring alone. -/
theorem dropLate_P (s : State) (p : Fin 16) (sev : Nat) (recs : List (BitVec 256)) (d : Bool) :
    ∃ er, (s.dropLate (some p) sev recs d).P p = { s.P p with er := er } := by
  refine ⟨_, Eq.trans ?_ (modEr_P_same s p fun r => { r with ovf := satAdd r.ovf 1 })⟩
  unfold State.dropLate
  split
  · exact each_P (f := fun t b => t.markDropped (some p) b) (fun _ _ => rfl) recs _
  · split
    · exact each_P (f := fun t b => t.logRec (some p) true b) (fun _ _ => rfl) recs _
    · rfl

theorem dropQueue_P (s : State) (p : Fin 16) (d : Bool) : ∃ er, (s.dropQueue (some p) d).P p = { s.P p with er := er } := by
  have hdrop : ∀ (old : List WaitRec) (t : State),
      ∃ er, (t.each old fun t w => t.dropLate (some p) w.sev w.recs d).P p = { t.P p with er := er } := fun old => by
    induction old with
    | nil => exact fun t => ⟨(t.P p).er, rfl⟩
    | cons w rest ih =>
      intro t
      obtain ⟨er, h⟩ := dropLate_P t p w.sev w.recs d
      obtain ⟨er', h'⟩ := ih (t.dropLate (some p) w.sev w.recs d)
      exact ⟨er', h'.trans (by rw [h])⟩
  obtain ⟨er, h⟩ := hdrop (s.er (some p)).waitq (s.modEr (some p) fun r => { r with waitq := [] })
  exact ⟨er, h.trans (by rw [modEr_P_same])⟩

/-- The registers of a block that a partition reset leaves: at their reset values, but for the two sets with their images, which of them is active,
and what is still to be zeroed or released. -/
def Ptn.afterReset (q : Ptn) : Ptn :=
  { Ptn.reset with
    cfgA := q.cfgA, cfgB := q.cfgB, imgA := q.imgA, imgB := q.imgB, activeValid := q.activeValid, zero := q.zero
    swap := { Swap.reset with active := q.swap.active, releasing := q.swap.releasing, asked := q.swap.asked } }

theorem resetPtnRegs_P (s : State) (p : Fin 16) : (s.resetPtnRegs p).P p = (s.P p).afterReset := by
  obtain ⟨er, h⟩ := dropQueue_P s p false
  refine (modP_same _ p Ptn.afterReset).trans ?_
  show ((s.dropQueue (some p) false).P p).afterReset = _
  rw [h]
  rfl

/-! ## The end of a request -/

/-- The oldest zeroing request of a partition is done: what it names reads zero. -/
def State.zeroTaken (s : State) (p : Fin 16) (z : Zero) (rest : List Zero) : State := (s.modP p fun q => { q with zero := rest }).zeroOwned z

theorem zeroTaken_P (s : State) (p : Fin 16) (z : Zero) (rest : List Zero) : (s.zeroTaken p z rest).P p = { s.P p with zero := rest } :=
  (zeroOwned_P ..).trans (modP_same ..)

theorem zeroTaken_P_other (s : State) {p q : Fin 16} (h : q ≠ p) (z : Zero) (rest : List Zero) : (s.zeroTaken p z rest).P q = s.P q :=
  (zeroOwned_P ..).trans (modP_other _ _ _ _ h)

/-- A block whose fence has been zeroed has no tensor, and goes on releasing only where `more` says that a release is still to be zeroed. -/
def Ptn.emptied (q : Ptn) (more : Bool) : Ptn :=
  { q with dir := [], mem := [], bad := [], swap := { q.swap with releasing := q.swap.releasing && more } }

/-- The device with that block, and without the partition's write-backs. -/
def State.emptied (s : State) (p : Fin 16) (more : Bool) : State :=
  ({ s with xfers := s.xfers.filter fun x => !(x.ptn == p && x.chan == 1) } : State).modP p fun q => q.emptied more

theorem emptied_P (s : State) (p : Fin 16) (more : Bool) : (s.emptied p more).P p = (s.P p).emptied more := modP_same ..

theorem createEnd_other {s : State} {p : Fin 16} (h : ∀ w, (s.P p).tdWait = some w → w.op ≠ 1) : s.createEnd p = s := by
  unfold State.createEnd
  split
  · next w hw => exact if_pos (h w hw)
  · rfl

theorem createEnd_held {s : State} {p : Fin 16} {w : TdWait} (hw : (s.P p).tdWait = some w) (h : w.op = 1) : s.createEnd p =
    ((s.each (s.ops.filter fun o => o.ptn == p && o.run.isSome && (s.opTensors o).contains w.base) fun s o =>
      s.bumpK p .zeroStall ((s.clk.cyc10 - o.startCyc) / 10)).tdEnd p tdOk).settle := by
  simp only [State.createEnd, hw]
  exact if_neg (not_not_intro h)

section Complete

variable {s : State} {p : Fin 16} {z : Zero} {rest : List Zero}

theorem execZeroingComplete_idle (h : (s.P p).zero = []) : execZeroingComplete p s = .next s := by
  simp only [execZeroingComplete, h]

variable (h : (s.P p).zero = z :: rest)
include h

theorem execZeroingComplete_create (hw : z.why = .create) :
    execZeroingComplete p s = .next ((s.zeroTaken p z rest).createEnd p).recheck.kick := by
  simp only [execZeroingComplete, h, hw]
  rfl

theorem execZeroingComplete_release (hw : z.why = .release) : execZeroingComplete p s = .next ((s.zeroTaken p z rest).modP p fun q =>
    { q with swap := { q.swap with releasing := !q.swap.asked || rest.any fun e => decide (e.why = ZWhy.release) } }).recheck.kick := by
  simp only [execZeroingComplete, h, hw]
  rfl

theorem execZeroingComplete_fence (hw : z.why = .fence ∨ z.why = .reset) : execZeroingComplete p s =
    .next (if (s.P p).resetting then ((s.zeroTaken p z rest).emptied p (rest.any fun e => decide (e.why = ZWhy.release))).resetPtnRegs p
      else ((s.zeroTaken p z rest).emptied p (rest.any fun e => decide (e.why = ZWhy.release))).modP p fun q =>
        { q with fencing := false, fenced := true }).recheck.kick := by
  have hreset : (((s.zeroTaken p z rest).emptied p (rest.any fun e => decide (e.why = ZWhy.release))).P p).resetting = (s.P p).resetting := by
    rw [emptied_P, zeroTaken_P]
    rfl
  rw [← hreset]
  rcases hw with hw | hw
  · simp only [execZeroingComplete, h, hw]
    rfl
  · simp only [execZeroingComplete, h, hw]
    rfl

end Complete

/-- Settles O41: what the request clears by the rules of `zeroOwned`, and what its end does by the rule of its kind. -/
theorem zeroingEnds : Obligations.ZeroingEnds := by
  unfold Obligations.ZeroingEnds
  refine ⟨fun s p => execZeroingComplete_idle, fun s p z rest h => ?_⟩
  intro u more
  refine ⟨tallyGet_zeroOwned _ z, fun c hc => ?kept, fun c hc => ?cleared, rfl, zeroTaken_P s p z rest, fun q hq => zeroTaken_P_other s hq z rest,
    fun hw => ?fence, fun hw hop => ?createOther, fun w hw htd hop => ?create, fun hw => execZeroingComplete_release h hw⟩
  case kept => exact (zeroOwned_cl _ z c).trans (if_neg (ne_true_of_eq_false hc))
  case cleared =>
    have hcl := (zeroOwned_cl (s.modP p fun q => { q with zero := rest }) z c).trans (if_pos hc)
    rw [hcl]
    exact ⟨rfl, rfl, rfl, rfl, rfl, rfl⟩
  case fence =>
    intro v
    refine ⟨fun hr => ?_, fun hr => ?_, ?_⟩
    · exact (execZeroingComplete_fence h hw).trans (congrArg (fun t : State => (.next t.recheck.kick : Out)) (if_neg (ne_true_of_eq_false hr)))
    · exact (execZeroingComplete_fence h hw).trans (congrArg (fun t : State => (.next t.recheck.kick : Out)) (if_pos hr))
    · intro r
      have hu : u.P p = { s.P p with zero := rest } := zeroTaken_P s p z rest
      have hv : v.P p = (u.P p).emptied more := emptied_P u p more
      have hr : r = (v.P p).afterReset := resetPtnRegs_P v p
      rw [hr, hv, hu]
      exact ⟨rfl, rfl, rfl, rfl, rfl, rfl, rfl, rfl, rfl, rfl, rfl⟩
  case createOther =>
    refine (execZeroingComplete_create h hw).trans ?_
    rw [createEnd_other (by rw [zeroTaken_P]; exact hop)]
    rfl
  case create =>
    have htd' : (u.P p).tdWait = some w := (congrArg Ptn.tdWait (zeroTaken_P s p z rest)).trans htd
    exact (execZeroingComplete_create h hw).trans (congrArg (fun t : State => (.next t.recheck.kick : Out)) (createEnd_held htd' hop))

end Sys2Proof.Machine
end

section
/-! PROOFS. FENCE, UNFENCE and the partition reset (08 R211, R212, R215; 18 R433; a fence while one is in force: log 10). -/

namespace Sys2Proof.Machine

/-- A command that a function may give only where it reaches the partition acts where it does. -/
theorem next_reached {s : State} {fn : Fn} {p : Fin 16} (h : s.reach fn p = true) (t : State) :
    (.next (if s.reach fn p then t else s) : Out) = .next t := congrArg Host.Outcome.next (if_pos h)

/-! ## The end of a swap by a cancel -/

theorem cancelSwap_busy {q : Ptn} (h : q.swap.busy = true) : q.cancelSwap =
    { q with swap := { q.swap with st := .refused, reason := 8, badOff := 0, holder := 0, claims := false, began := false } } := if_pos h

theorem cancelSwap_idle {q : Ptn} (h : q.swap.busy = false) : q.cancelSwap = q := if_neg (Bool.eq_false_iff.mp h)

/-- After a cancel no swap is in progress: a refused one is none. -/
theorem busy_cancelSwap (q : Ptn) : q.cancelSwap.swap.busy = false := by
  cases h : q.swap.busy with
  | true => rw [cancelSwap_busy h]; rfl
  | false => rw [cancelSwap_idle h, h]

section Commands

variable {s : State} {p : Fin 16}

/-! ## FENCE -/

theorem hostFence_held (h : (s.P p).fencing = true ∨ (s.P p).fenced = true) : s.hostFence p = s := if_pos (Bool.or_eq_true_iff.mpr h)

theorem hostFence_open (hf : (s.P p).fencing = false) (hd : (s.P p).fenced = false) : s.hostFence p =
    ((s.issue (fenceRec p 1)).st.fencePtn p 1 (s.issue (fenceRec p 1)).pseq.toNat).pumpAll :=
  if_neg (Bool.eq_false_iff.mp (Bool.or_eq_false_iff.mpr ⟨hf, hd⟩))

/-! ## UNFENCE -/

theorem unfence_dropped (h : (s.P p).fencing = true ∨ (s.P p).fenced = true ∧ (s.erPending (some p) = true ∨ s.gerPendingOf p = true)) :
    s.unfence p = s.modP p fun q => { q with unfenceDrop := true } := if_pos (by simpa only [Bool.or_eq_true, Bool.and_eq_true] using h)

/-- With no fence in progress and no record waiting, UNFENCE is not dropped. -/
theorem unfence_taken (hf : (s.P p).fencing = false) (hw : (s.P p).fenced = true → s.erPending (some p) = false ∧ s.gerPendingOf p = false) :
    s.unfence p = if (s.P p).fenced then
      (s.modP p fun q => { q with
        fenced := false
        swap := if q.swap.st = .waitFence then { q.swap with st := .validating, began := true } else q.swap }).pump p
      else s := by
  refine if_neg (Bool.eq_false_iff.mp (Bool.or_eq_false_iff.mpr ⟨hf, ?_⟩))
  cases hd : (s.P p).fenced with
  | false => rfl
  | true =>
    obtain ⟨her, hger⟩ := hw hd
    rw [her, hger]
    rfl

/-! ## The partition reset -/

theorem resetPtn_eq : s.resetPtn p =
    let u := (s.issue (fenceRec p 5)).st.modP p Ptn.cancelSwap
    if (u.P p).fencing then (u.modP p fun q => { q with resetting := true }).pumpAll
    else ((u.dropHeldEr p).fenceBody p 5 (s.issue (fenceRec p 5)).pseq.toNat true true).pumpAll := rfl

end Commands

/-- Settles O26: each command by its rules above, through a function that reaches the partition. -/
theorem partitionControl : Obligations.PartitionControl := by
  unfold Obligations.PartitionControl
  intro s fn p h
  simp only [exec_fence, exec_unfence, exec_partitionReset, execFence, execUnfence, execPartitionReset, next_reached h]
  refine ⟨fun hh => ?fenceHeld, fun hf hd => ?fenceOpen, fun hh => ?dropped, fun hf hd her hger => ?unfence, fun hf hd => ?noFence,
    fun u hu => ⟨?cancelled, fun hf => ?zeroing, fun hf => ?reset⟩⟩
  case fenceHeld => rw [hostFence_held hh]
  case fenceOpen => rw [hostFence_open hf hd]
  case dropped => rw [unfence_dropped hh]
  case unfence => rw [unfence_taken hf fun _ => ⟨her, hger⟩, if_pos hd]
  case noFence => rw [unfence_taken hf fun hd' => absurd (hd.symm.trans hd') Bool.false_ne_true, if_neg (Bool.eq_false_iff.mp hd)]
  case cancelled => rw [hu, modP_same, busy_cancelSwap]
  case zeroing =>
    subst hu
    rw [resetPtn_eq, if_pos hf]
  case reset =>
    subst hu
    rw [resetPtn_eq, if_neg (Bool.eq_false_iff.mp hf)]

end Sys2Proof.Machine
end

section
/-! PROOFS. SWAP, its cancellation, its validation and its instant (08 R205-R209, R214-R216, Table 8.4; an image of another length: log 95). -/

namespace Sys2Proof.Machine

/-! ## SWAP and its cancellation -/

section Command

variable {s : State} {p : Fin 16}

theorem swapCmd_busy (h : (s.P p).swap.busy = true) : s.swapCmd p = s.modP p fun q => { q with swap := { q.swap with collapsed := true } } := by
  unfold State.swapCmd
  exact modP_congr (if_pos h)

theorem swapCmd_idle (h : (s.P p).swap.busy = false) : s.swapCmd p = s.modP p fun q => { q with swap := { q.swap with
    st := if (s.P p).fencing || (s.P p).fenced then .waitFence else .validating, reason := 0, badOff := 0, holder := 0, claims := false
    began := !((s.P p).fencing || (s.P p).fenced), arr := (s.ptn.toList.map fun x => x.swap.arr).foldl max 0 + 1 } } := by
  unfold State.swapCmd
  exact modP_congr (if_neg (Bool.eq_false_iff.mp h))

end Command

/-! ## Validation -/

/-- The set that a swap of partition p brings in. -/
def State.incoming (s : State) (p : Fin 16) : CfgSet := (s.P p).cset (!(s.P p).swap.active)

/-- What the first four checks of Table 8.4 find, which look at the set and its partition alone. -/
def State.earlyRefusal (s : State) (p : Fin 16) : Option Refuse :=
  (check1 (s.incoming p)).or ((check2 s.fuses (s.incoming p)).or ((check3 (s.incoming p)).or ((s.P p).check4 (s.incoming p))))

/-- The image of the incoming set has passed check 5. -/
def State.imaged (s : State) (p : Fin 16) (im : Image) : State := s.modP p fun q => q.setImg (!(s.P p).swap.active) im

/-- What checks 6 and 7 find. -/
def State.lateRefusal (s : State) (p : Fin 16) (im : Image) : Option Refuse :=
  ((s.imaged p im).check6 p (s.incoming p)).or ((s.imaged p im).check7 p (s.incoming p))

/-- All checks have passed: the swap claims what its set grants. -/
def State.claimed (s : State) (p : Fin 16) (im : Image) : State :=
  (s.imaged p im).modP p fun q => { q with swap := { q.swap with claims := true, st := .waitResource } }

section Validation

variable {s : State} {p : Fin 16} {img : HostRead}

theorem execSwapValidationDone_idle (h : (s.P p).swap.st ≠ .validating) : execSwapValidationDone p img s = .next s := by
  unfold execSwapValidationDone
  exact if_pos h

variable (h : (s.P p).swap.st = .validating)
include h

theorem execSwapValidationDone_early {r : Refuse} (he : s.earlyRefusal p = some r) :
    execSwapValidationDone p img s = .next (s.modP p fun q => q.refuseSwap r) := by
  simp only [State.earlyRefusal, State.incoming] at he
  unfold execSwapValidationDone
  simp only [h, he, ne_eq, not_true_eq_false, if_false]

variable (he : s.earlyRefusal p = none)
include he

theorem execSwapValidationDone_failed : execSwapValidationDone p .failed s = .next (s.modP p fun q => q.refuseSwap ⟨5, 128, 0⟩) := by
  simp only [State.earlyRefusal, State.incoming] at he
  unfold execSwapValidationDone
  simp only [h, he, ne_eq, not_true_eq_false, if_false]

variable {bs : List Byte}

theorem execSwapValidationDone_illFormed (hl : bs.length ≠ csImageLen (s.incoming p)) :
    execSwapValidationDone p (.data bs) s = .refused .illFormed := by
  simp only [State.earlyRefusal, State.incoming] at he hl
  unfold execSwapValidationDone
  simp only [h, he, hl, ne_eq, not_true_eq_false, not_false_eq_true, if_false, if_true]

variable (hl : bs.length = csImageLen (s.incoming p))
include hl

theorem execSwapValidationDone_badImage (hi : parseImage bs (popCount 32 (csClusters (s.incoming p))) = none) :
    execSwapValidationDone p (.data bs) s = .next (s.modP p fun q => q.refuseSwap ⟨5, 128, 0⟩) := by
  simp only [State.earlyRefusal, State.incoming] at he hl hi
  unfold execSwapValidationDone
  simp only [h, he, hl, hi, ne_eq, not_true_eq_false, if_false]

variable {im : Image} (hi : parseImage bs (popCount 32 (csClusters (s.incoming p))) = some im)
include hi

theorem execSwapValidationDone_behind (hb : s.swapBehind p = true) : execSwapValidationDone p (.data bs) s = .next s := by
  simp only [State.earlyRefusal, State.incoming] at he hl hi
  unfold execSwapValidationDone
  simp only [h, he, hl, hi, hb, ne_eq, not_true_eq_false, if_false, if_true]

variable (hb : s.swapBehind p = false)
include hb

theorem execSwapValidationDone_late {r : Refuse} (hr : s.lateRefusal p im = some r) :
    execSwapValidationDone p (.data bs) s = .next ((s.imaged p im).modP p fun q => q.refuseSwap r) := by
  simp only [State.earlyRefusal, State.lateRefusal, State.imaged, State.incoming] at he hl hi hr
  unfold execSwapValidationDone
  simp only [h, he, hl, hi, hb, hr, ne_eq, not_true_eq_false, if_false, Bool.false_eq_true]
  rfl

theorem execSwapValidationDone_passed (hr : s.lateRefusal p im = none) : execSwapValidationDone p (.data bs) s =
    .next (if (s.claimed p im).swapReady p then (s.claimed p im).modP p fun q => { q with swap := { q.swap with st := .pending } }
      else s.claimed p im) := by
  simp only [State.earlyRefusal, State.lateRefusal, State.imaged, State.incoming] at he hl hi hr
  unfold execSwapValidationDone
  simp only [h, he, hl, hi, hb, hr, ne_eq, not_true_eq_false, if_false, Bool.false_eq_true]
  rfl

end Validation

/-! ## The instant -/

/-- The block of a partition whose incoming set becomes active. -/
def Ptn.takeSet (q : Ptn) : Ptn :=
  { q with
    activeValid := true
    swap := { q.swap with st := .done, active := !q.swap.active, claims := false, began := false, releasing := q.activeValid, asked := !q.activeValid }
    cnt := q.cnt.set Ctr.swapCnt.ix (satAdd q.cnt[Ctr.swapCnt.ix] 1) }

/-- The incoming set is active, and the transfers that no job owns and that are not yet translated are under it (07 R183). -/
def State.takeSet (s : State) (p : Fin 16) : State :=
  { s.modP p Ptn.takeSet with
    xfers := s.xfers.map fun x => if x.ptn = p ∧ x.job = none ∧ x.st ≠ XSt.issued then { x with cfg := !(s.P p).swap.active } else x }

theorem takeSet_P (s : State) (p : Fin 16) : (s.takeSet p).P p = (s.P p).takeSet := modP_same ..

theorem onlyP_takeSet (s : State) (p : Fin 16) : OnlyP p { s with xfers := (s.takeSet p).xfers } (s.takeSet p) :=
  ⟨rfl, fun _ hq => modP_other s p _ Ptn.takeSet hq⟩

theorem takeSet_swapCnt (q : Ptn) : q.takeSet.cnt[Ctr.swapCnt.ix] = satAdd q.cnt[Ctr.swapCnt.ix] 1 := vec_set_self ..

section Instant

variable {s : State} {p : Fin 16}

theorem execSwapTakeEffect_idle (h : (s.P p).swap.st ≠ .pending) : execSwapTakeEffect p s = .next s := if_pos h

theorem execSwapTakeEffect_pending (h : (s.P p).swap.st = .pending) :
    execSwapTakeEffect p s = .next ((((s.takeSet p).unbound p (s.P p).swap.active).recheck).kick) := by
  simp only [execSwapTakeEffect, h, ne_eq, not_true_eq_false, if_false, State.bump, modP_modP]
  rfl

end Instant

/-- Settles O27: the commands by `swapCmd` and `cancelSwap`, the end of validation by the first check that fails, the instant by `takeSet`. -/
theorem swapPath : Obligations.SwapPath := by
  unfold Obligations.SwapPath
  refine ⟨fun s fn p h => ?commands, fun s p img => ?validation,
    fun s p => ⟨execSwapTakeEffect_idle, fun h => ?instant⟩⟩
  case commands =>
    simp only [exec_swap, exec_swapCancel, execSwap, execSwapCancel, next_reached h]
    refine ⟨fun hb => ⟨?_, ?_⟩, fun hb => ⟨?_, ?_⟩⟩
    · rw [swapCmd_busy hb]
    · exact congrArg Host.Outcome.next (modP_congr (cancelSwap_busy hb))
    · rw [swapCmd_idle hb]
    · rw [modP_eq_self (cancelSwap_idle hb)]
  case validation =>
    intro b early refused
    simp only [exec_swapValidationDone]
    refine ⟨execSwapValidationDone_idle, fun h => ⟨fun r he => execSwapValidationDone_early h he, fun he => ⟨execSwapValidationDone_failed h he, fun bs =>
      ⟨execSwapValidationDone_illFormed h he, fun hl => ⟨execSwapValidationDone_badImage h he hl, fun im hi => ?_⟩⟩⟩⟩⟩
    refine ⟨execSwapValidationDone_behind h he hl hi, fun hb r hr => execSwapValidationDone_late h he hl hi hb hr, fun hb hr => ?_⟩
    have passed := execSwapValidationDone_passed h he hl hi hb hr
    exact ⟨fun hw => passed.trans (congrArg Host.Outcome.next (if_pos hw)),
      fun hw => passed.trans (congrArg Host.Outcome.next (if_neg (Bool.eq_false_iff.mp hw)))⟩
  case instant =>
    refine ⟨s.takeSet p, execSwapTakeEffect_pending h, rfl, onlyP_takeSet s p, ?_⟩
    rw [takeSet_P]
    exact ⟨rfl, rfl, rfl, rfl, takeSet_swapCnt _, rfl, rfl⟩

end Sys2Proof.Machine
end

section
/-! PROOFS. The global set: GSWAP, its check and its instant (08 R204, R214, R220; 20 R473). -/

namespace Sys2Proof.Machine

section Global

variable {s : State}

/-! ## GSWAP -/

theorem gswapCmd_busy (h : s.gcr.st = .checking ∨ s.gcr.st = .pending) : s.gswapCmd = { s with gcr := { s.gcr with collapsed := true } } := by
  rw [State.gswapCmd, if_pos h]

theorem gswapCmd_idle (hc : s.gcr.st ≠ .checking) (hp : s.gcr.st ≠ .pending) :
    s.gswapCmd = { s with gcr := { s.gcr with st := .checking, badOff := 0 } } := by
  rw [State.gswapCmd, if_neg (not_or.mpr ⟨hc, hp⟩)]

theorem execGswap_ignored {fn : Fn} (h : s.fnAlive fn = false ∨ fn ≠ .pf 0) : execGswap fn s = .next s := by
  refine congrArg Host.Outcome.next (if_neg ?_)
  rw [Bool.and_eq_true, beq_iff_eq]
  rintro ⟨halive, rfl⟩
  exact h.elim (fun hdead => Bool.false_ne_true (hdead.symm.trans halive)) (· rfl)

theorem execGswap_owner (h : s.fnAlive (.pf 0) = true) : execGswap (.pf 0) s = .next s.gswapCmd :=
  congrArg Host.Outcome.next (if_pos (by rw [h]; rfl))

/-! ## The check -/

theorem execGswapCheckDone_idle (h : s.gcr.st ≠ .checking) : execGswapCheckDone s = .next s := congrArg Host.Outcome.next (if_pos h)

theorem execGswapCheckDone_passed (h : s.gcr.st = .checking) (hb : s.gBad s.gShadow = []) :
    execGswapCheckDone s = .next { s with gcr := { s.gcr with st := .pending } } := by
  simp only [execGswapCheckDone, h, hb, ne_eq, not_true_eq_false, if_false]

/-- A refusal names the least of the offending bytes. -/
theorem execGswapCheckDone_refused (h : s.gcr.st = .checking) {m : Nat} (hm : (s.gBad s.gShadow).min? = some m) :
    execGswapCheckDone s = .next { s with gcr := { s.gcr with st := .refused, badOff := BitVec.ofNat 8 m } } := by
  cases hb : s.gBad s.gShadow with
  | nil => rw [hb] at hm; exact absurd hm (by simp)
  | cons o l =>
    rw [hb, List.min?_cons', Option.some.injEq] at hm
    simp only [execGswapCheckDone, h, hb, hm, ne_eq, not_true_eq_false, if_false]

/-! ## The instant -/

/-- The shadow is active, STAGE 5 has ended, and since when the hottest die is hot or cold is by the new set. -/
def State.gTurned (s : State) : State :=
  { s with
    gcr := { s.gcr with st := .done, active := !s.gcr.active, valid := true }
    pwr := if s.pwr.stage = 5 then { s.pwr with stage := 6 } else s.pwr }.noteHeat

/-- Where the set before left global time undisciplined, the last exchange counts from this instant. -/
def State.gTaken (s : State) : State :=
  if gf s.gact 65 0 1 = 0 then { s.gTurned with clk := { s.gTurned.clk with exchAt := s.gTurned.clk.ns } } else s.gTurned

theorem gTaken_eq (s : State) : ∃ t, s.gTaken = { s.gTurned with clk := { s.clk with exchAt := t } } := by
  unfold State.gTaken
  split
  · exact ⟨_, rfl⟩
  · exact ⟨s.clk.exchAt, rfl⟩

theorem gTurned_gact (s : State) : s.gTurned.gact = s.gShadow := by
  show (if (!s.gcr.active) = true then s.gcr.gB else s.gcr.gA) = if s.gcr.active = true then s.gcr.gA else s.gcr.gB
  cases s.gcr.active <;> rfl

theorem gTurned_pwr (s : State) : s.gTurned.pwr = { s.pwr with stage := if s.pwr.stage = 5 then 6 else s.pwr.stage } := by
  show (if s.pwr.stage = 5 then { s.pwr with stage := 6 } else s.pwr) = _
  split <;> rfl

theorem execGswapTakeEffect_waits (h : s.gcr.st ≠ .pending ∨ s.gBusy = true) : execGswapTakeEffect s = .next s :=
  congrArg Host.Outcome.next (if_pos h)

theorem execGswapTakeEffect_pending (h : s.gcr.st = .pending) (hb : s.gBusy = false) :
    execGswapTakeEffect s = .next ((((s.gTaken.rotChange s.gact).retarget).roleChange).pumpAll) :=
  congrArg Host.Outcome.next (if_neg (not_or.mpr ⟨not_not_intro h, Bool.eq_false_iff.mp hb⟩))

end Global

/-- Settles O28: GSWAP by `gswapCmd`, its check by the least offending byte, its instant by `gTaken`. -/
theorem globalSet : Obligations.GlobalSet := by
  unfold Obligations.GlobalSet
  refine ⟨fun s fn => ⟨execGswap_ignored, fun ha => ⟨fun hb => ?busy, fun hc hp => ?starts⟩⟩,
    fun s => ⟨execGswapCheckDone_idle, fun hc => ⟨execGswapCheckDone_passed hc, fun m hm hleast => ?refused⟩, execGswapTakeEffect_waits,
      fun hp hb => ?effect⟩⟩
  case busy => rw [exec_gswap, execGswap_owner ha, gswapCmd_busy hb]
  case starts => rw [exec_gswap, execGswap_owner ha, gswapCmd_idle hc hp]
  case refused => exact execGswapCheckDone_refused hc (List.min?_eq_some_iff.mpr ⟨hm, hleast⟩)
  case effect =>
    refine ⟨s.gTaken, execGswapTakeEffect_pending hp hb, ?_⟩
    obtain ⟨t, ht⟩ := gTaken_eq s
    rw [ht]
    exact ⟨gTurned_gact s, rfl, rfl, rfl, rfl, rfl, gTurned_pwr s⟩

end Sys2Proof.Machine
end

section
/-! PROOFS. Sorting by insertion, and the order in which keys are selected and sorted (10 R253, R255). -/

namespace Sys2Proof.Machine

/-! ## Sorting by insertion -/

section Sorting

variable {α : Type} {lt : α → α → Bool} {R : α → α → Prop}

/-- Insertion in front of the first element that does not go before `a` is Mathlib's. -/
theorem insSorted_eq_orderedInsert (a : α) (l : List α) : insSorted lt a l = l.orderedInsert (fun x y => ¬lt y x) a := by
  induction l with
  | nil => rfl
  | cons b t ih => rw [insSorted, List.orderedInsert_cons, ih, ite_not]

theorem sortBy_eq_insertionSort (l : List α) : sortBy lt l = l.insertionSort fun x y => ¬lt y x := by
  induction l with
  | nil => rfl
  | cons a t ih => rw [sortBy, ih, insSorted_eq_orderedInsert, List.insertionSort_cons]

theorem insSorted_perm (a : α) (l : List α) : (insSorted lt a l).Perm (a :: l) :=
  insSorted_eq_orderedInsert (lt := lt) a l ▸ List.perm_orderedInsert ..

theorem sortBy_perm (l : List α) : (sortBy lt l).Perm l := sortBy_eq_insertionSort (lt := lt) l ▸ List.perm_insertionSort ..

/-- Insertion keeps an order under which the test puts the new element on the right side of each element that is there. -/
theorem pairwise_insSorted (htr : ∀ {x y z}, R x y → R y z → R x z) {a : α} {l : List α} (hl : l.Pairwise R)
    (h : ∀ b ∈ l, if lt b a then R b a else R a b) : (insSorted lt a l).Pairwise R := by
  induction l with
  | nil => exact List.pairwise_singleton ..
  | cons b t ih =>
    obtain ⟨hbt, ht⟩ := List.pairwise_cons.mp hl
    obtain ⟨hb, h⟩ := List.forall_mem_cons.mp h
    rw [insSorted]
    split at hb <;> rename_i hlt
    · rw [if_pos hlt, List.pairwise_cons]
      refine ⟨fun y hy => ?_, ih ht h⟩
      rcases List.mem_cons.mp ((insSorted_perm a t).mem_iff.mp hy) with rfl | hy
      · exact hb
      · exact hbt y hy
    · rw [if_neg hlt, List.pairwise_cons]
      exact ⟨List.forall_mem_cons.mpr ⟨hb, fun y hy => htr hb (hbt y hy)⟩, hl⟩

/-- A sort comes out in an order that settles each pair as the test does, an earlier element staying in front where the test does not move it. -/
theorem pairwise_sortBy (htr : ∀ {x y z}, R x y → R y z → R x z) {l : List α}
    (h : l.Pairwise fun a b => if lt b a then R b a else R a b) : (sortBy lt l).Pairwise R := by
  induction l with
  | nil => exact .nil
  | cons a t ih =>
    obtain ⟨ha, ht⟩ := List.pairwise_cons.mp h
    exact pairwise_insSorted (R := R) htr (ih ht) fun b hb => ha b ((sortBy_perm t).mem_iff.mp hb)

/-- The first `k` after an insertion depend on the first `k` before it alone. -/
theorem take_insSorted_take (x : α) (k : Nat) (l : List α) : (insSorted lt x (l.take k)).take k = (insSorted lt x l).take k := by
  induction l generalizing k with
  | nil => rw [List.take_nil]
  | cons b t ih =>
    cases k with
    | zero => rfl
    | succ k =>
      rw [List.take_succ_cons, insSorted, insSorted]
      split
      · rw [List.take_succ_cons, List.take_succ_cons, ih]
      · rw [← List.take_succ_cons, List.take_succ_cons, List.take_take, min_eq_left k.le_succ, List.take_succ_cons]

/-- What does not go before any of the first `k` leaves them. -/
theorem take_insSorted_of_lt {x : α} {k : Nat} {l : List α} (hk : k ≤ l.length) (h : ∀ b ∈ l.take k, lt b x) :
    (insSorted lt x l).take k = l.take k := by
  induction l generalizing k with
  | nil => rw [Nat.le_zero.mp hk]; rfl
  | cons b t ih =>
    cases k with
    | zero => rfl
    | succ k =>
      obtain ⟨hb, ht⟩ := List.forall_mem_cons.mp (List.take_succ_cons ▸ h)
      rw [insSorted, if_pos hb, List.take_succ_cons, List.take_succ_cons, ih (Nat.le_of_succ_le_succ hk) ht]

end Sorting

/-! ## The order of 10 R253 and R255 -/

/-- `a` comes before `b`: its key is larger, or the keys are equal and it has the lower index. -/
def Precedes {α : Type} (key : α → Int) (idx : α → Nat) (a b : α) : Prop := key b < key a ∨ key a = key b ∧ idx a < idx b

theorem Precedes.trans {α : Type} {key : α → Int} {idx : α → Nat} {a b c : α} (h : Precedes key idx a b) (h' : Precedes key idx b c) :
    Precedes key idx a c := by
  unfold Precedes at *
  omega

end Sys2Proof.Machine
end

section
/-! PROOFS. VBSORT: the sorted indices and the eight registers that take them (10 R255; 05 Table 5.6). -/

namespace Sys2Proof.Machine

/-! ## The order of the indices -/

theorem bsort_perm (k : Cluster) (ra : Fin 32) : (bsort k ra).Perm (List.range 512) := sortBy_perm _

theorem bsort_getD_lt (k : Cluster) (ra : Fin 32) {n : Nat} (hn : n < 512) : (bsort k ra).getD n 0 < 512 := by
  have hlen : n < (bsort k ra).length := by rwa [(bsort_perm k ra).length_eq, List.length_range]
  rw [List.getD_eq_getElem _ _ hlen]
  exact List.mem_range.mp ((bsort_perm k ra).mem_iff.mp (List.getElem_mem hlen))

theorem pairwise_bsort (k : Cluster) (ra : Fin 32) :
    (bsort k ra).Pairwise (Precedes (fun n => laneS true (k.v.toList.getD (ra.val + n / 64) 0) (n % 64)) id) := by
  refine pairwise_sortBy .trans (List.pairwise_lt_range.imp fun hab => ?_)
  simp only [Precedes, decide_eq_true_eq, id]
  split <;> omega

/-! ## The registers that take them -/

/-- The registers `d` to `d + n - 1` of a file take `f 0` to `f (n - 1)`. -/
def setRun (v : Vector (BitVec 2048) 32) (d n : Nat) (f : Nat → BitVec 2048) : Vector (BitVec 2048) 32 :=
  (List.range n).foldl (fun v r => v.setIfInBounds (d + r) (f r)) v

theorem setRun_get (v : Vector (BitVec 2048) 32) (d n : Nat) (f : Nat → BitVec 2048) (i : Nat) (hi : i < 32) :
    (setRun v d n f)[i] = if d ≤ i ∧ i < d + n then f (i - d) else v[i] := by
  induction n with
  | zero => exact (if_neg (by omega)).symm
  | succ n ih =>
    rw [setRun, List.range_succ, List.foldl_append, List.foldl_cons, List.foldl_nil, ← setRun, Vector.getElem_setIfInBounds, ih]
    by_cases hin : d + n = i
    · rw [if_pos hin, if_pos (by omega), ← hin, Nat.add_sub_cancel_left]
    · rw [if_neg hin]
      exact if_congr (by omega) rfl rfl

theorem toList_getD (v : Vector (BitVec 2048) 32) (i : Nat) (hi : i < 32) : v.toList.getD i 0 = v[i] := by
  rw [List.getD_eq_getElem _ _ (by simpa using hi), Vector.getElem_toList]

theorem foldl_setIfInBounds (k : Cluster) (d n : Nat) (f : Nat → BitVec 2048) :
    (List.range n).foldl (fun k r => { k with v := k.v.setIfInBounds (d + r) (f r) }) k = { k with v := setRun k.v d n f } :=
  List.foldl_hom (fun v => { k with v := v }) fun _ _ => rfl

/-- The vector registers once `d` to `d + 7` hold a list of 512 numbers in their lanes. -/
def Cluster.withList (k : Cluster) (d : Fin 32) (l : List Nat) : Vector (BitVec 2048) 32 :=
  setRun k.v d.val 8 fun r => ofLanes true fun n => l.getD (64 * r + n) 0

theorem withList_lane (k : Cluster) (d : Fin 32) (l : List Nat) (hd : d.val + 8 ≤ 32) {n : Nat} (hn : n < 512) :
    ((k.withList d l).toList.getD (d.val + n / 64) 0).extractLsb' (32 * (n % 64)) 32 = BitVec.ofNat 32 (l.getD n 0) := by
  rw [Cluster.withList, toList_getD _ _ (by omega), setRun_get, if_pos (by omega), Nat.add_sub_cancel_left]
  exact (ofLanes_lane true _ (n % 64) (Nat.mod_lt n (by decide))).trans (by rw [Nat.div_add_mod]; rfl)

theorem withList_other (k : Cluster) (d : Fin 32) (l : List Nat) (r : Fin 32) (hr : r.val < d.val ∨ d.val + 8 ≤ r.val) :
    (k.withList d l)[r] = k.v[r] :=
  (setRun_get k.v d.val 8 _ r.val r.isLt).trans (if_neg (by omega))

theorem foldl_withList (k : Cluster) (d : Fin 32) (l : List Nat) :
    (List.range 8).foldl (fun k r => { k with v := k.v.setIfInBounds (d.val + r) (ofLanes true fun n => l.getD (64 * r + n) 0) }) k =
      { k with v := k.withList d l } :=
  foldl_setIfInBounds k d.val 8 fun r => ofLanes true fun n => l.getD (64 * r + n) 0

/-! ## The instruction -/

section Ready

variable {c : Fin 32} {o : V3} {s : State} {j : Job} (h : Ready s c o.p 4 j)
include h

theorem execVbsort_illegal (hbad : o.rb ≠ 0 ∨ o.w = false ∨ o.rd.val % 8 ≠ 0 ∨ o.ra.val % 8 ≠ 0 ∨ o.rd = o.ra) :
    execVbsort c o s = .next (s.except j.id j.ptn c.val c s.cl[c].pc (encV3 19 o).1 (encV3 19 o).2 exIllegal) :=
  issue_exc h (if_pos hbad)

theorem execVbsort_legal (hok : ¬(o.rb ≠ 0 ∨ o.w = false ∨ o.rd.val % 8 ≠ 0 ∨ o.ra.val % 8 ≠ 0 ∨ o.rd = o.ra)) :
    ∃ t, execVbsort c o s = .next t ∧ OnlyC c s t ∧
      t.cl[c] = { s.cl[c] with v := s.cl[c].withList o.rd (bsort s.cl[c] o.ra), pc := s.cl[c].pc + 4 } := by
  have hwrite := congrArg (onC s c) (funext fun k => foldl_withList k o.rd (bsort k o.ra))
  exact ⟨_, (issue_done h ((if_neg hok).trans hwrite)).trans (congrArg Host.Outcome.next (modC_modC ..)), onlyC_modC .., modC_same ..⟩

end Ready

/-- Settles O8: `bsort` sorts as `Precedes` orders, and `execVbsort_legal` puts the sorted indices into their lanes. -/
theorem vectorSort : Obligations.VectorSort := by
  unfold Obligations.VectorSort
  intro s c o j h
  refine ⟨fun hbad => ⟨encV3 19 o, rfl, execVbsort_illegal h hbad⟩, ?_⟩
  intro hb hw hd ha hne key
  have hkey : (fun n => laneS true (s.cl[c].v.toList.getD (o.ra.val + n / 64) 0) (n % 64)) = key := funext fun n => laneS_eq ..
  obtain ⟨t, ht, honly, hcl⟩ := execVbsort_legal h (o := o) (by simp [hb, hw, hd, ha, hne])
  have hv : t.cl[c].v = s.cl[c].withList o.rd (bsort s.cl[c] o.ra) := by rw [hcl]
  refine ⟨t, bsort s.cl[c] o.ra, ht, bsort_perm .., hkey ▸ pairwise_bsort .., fun n hn => ?lanes, honly, by rw [hv]; exact hcl, fun r hr => ?others⟩
  all_goals rw [hv]
  case lanes =>
    have hmem : (bsort s.cl[c] o.ra).getD n 0 < 512 := bsort_getD_lt _ _ hn
    rw [withList_lane _ _ _ (by omega) hn, BitVec.toNat_ofNat, Nat.mod_eq_of_lt (by omega)]
  case others => exact withList_other _ _ _ r hr

end Sys2Proof.Machine
end

section
/-! PROOFS. TOPK's selection of a row: its tree holds the first K of the whole row in order (10 R253, R254). -/

namespace Sys2Proof.Machine

/-! ## The order of keys with their indices -/

/-- A key that displaces another: larger, or smaller where ASC is set. -/
def keyBeats (asc : Bool) (a b : Int × Nat) : Bool := if asc then a.1 < b.1 else b.1 < a.1

/-- `b` stays in front of a new key `a`. -/
def keyStays (asc : Bool) (b a : Int × Nat) : Bool := !keyBeats asc a b

/-- A key so signed that the larger is the better. -/
def weight (asc : Bool) (a : Int × Nat) : Int := if asc then -a.1 else a.1

/-- Selection order: the better key, and the lower index of equal keys. -/
abbrev Better (asc : Bool) : Int × Nat → Int × Nat → Prop := Precedes (weight asc) (·.2)

theorem keyStays_iff {asc : Bool} {a b : Int × Nat} : keyStays asc b a = true ↔ weight asc a ≤ weight asc b := by
  cases asc <;> simp [keyStays, keyBeats, weight]

theorem keyStays_trans {asc : Bool} {a b c : Int × Nat} (h : keyStays asc a b) (h' : keyStays asc b c) : keyStays asc a c :=
  keyStays_iff.mpr ((keyStays_iff.mp h').trans (keyStays_iff.mp h))

theorem better_iff {asc : Bool} {a b : Int × Nat} :
    Better asc a b ↔ (if asc then a.1 < b.1 else b.1 < a.1) ∨ a.1 = b.1 ∧ a.2 < b.2 := by
  cases asc <;> simp [Precedes, weight]

theorem Better.stays {asc : Bool} {a b : Int × Nat} (h : Better asc a b) : keyStays asc a b :=
  keyStays_iff.mpr (h.elim le_of_lt fun h => h.1.ge)

/-! ## The whole row in order -/

/-- A row's keys with their indices, later ones inserted behind equal ones: all of them in selection order. -/
def ranked (asc : Bool) (l : List (Int × Nat)) : List (Int × Nat) := sortBy (keyStays asc) l.reverse

theorem ranked_concat (asc : Bool) (l : List (Int × Nat)) (x : Int × Nat) :
    ranked asc (l ++ [x]) = insSorted (keyStays asc) x (ranked asc l) := by
  rw [ranked, List.reverse_append]
  rfl

theorem ranked_perm (asc : Bool) (l : List (Int × Nat)) : (ranked asc l).Perm l := (sortBy_perm _).trans l.reverse_perm

theorem pairwise_ranked (asc : Bool) {l : List (Int × Nat)} (h : l.Pairwise fun a b => a.2 < b.2) : (ranked asc l).Pairwise (Better asc) := by
  refine pairwise_sortBy .trans (List.pairwise_reverse.mpr (h.imp fun hab => ?_))
  simp only [Precedes, keyStays_iff]
  split <;> omega

/-! ## The tree -/

/-- What the arrival of a key makes of the tree and of the number of keys that entered it. -/
def treeStep (k : Nat) (asc : Bool) (acc : List (Int × Nat) × Nat) (x : Int × Nat) : List (Int × Nat) × Nat :=
  if acc.1.length < k then (insSorted (keyStays asc) x acc.1, acc.2 + 1)
  else match acc.1.getLast? with
    | some last => if keyBeats asc x last then ((insSorted (keyStays asc) x acc.1).take k, acc.2 + 1) else acc
    | none => acc

theorem selectRow_eq (k : Nat) (asc : Bool) (keys : List Int) :
    selectRow k asc keys = ((keys.zipIdx.foldl (treeStep k asc) ([], 0)).1.map (·.2), (keys.zipIdx.foldl (treeStep k asc) ([], 0)).2) := by
  rw [List.zipIdx_eq_zip_range', ← List.range_eq_range']
  rfl

section Tree

variable {k : Nat} {asc : Bool}

/-- A key enters, or the tree stays as it is because it is full of keys that stay in front. -/
theorem treeStep_cases (acc : List (Int × Nat) × Nat) (x : Int × Nat) (hk : acc.1.length ≤ k) (hs : acc.1.Pairwise fun a b => keyStays asc a b) :
    treeStep k asc acc x = ((insSorted (keyStays asc) x acc.1).take k, acc.2 + 1) ∨
      treeStep k asc acc x = acc ∧ acc.1.length = k ∧ ∀ b ∈ acc.1, keyStays asc b x := by
  unfold treeStep
  split
  · next hlt =>
    have hlen : (insSorted (keyStays asc) x acc.1).length ≤ k := (insSorted_perm x acc.1).length_eq.trans_le hlt
    exact .inl (by rw [List.take_of_length_le hlen])
  · next hge =>
    have hfull : acc.1.length = k := by omega
    split
    · next last hlast =>
      split
      · exact .inl rfl
      · next hbeat =>
        obtain ⟨ys, hys⟩ := List.getLast?_eq_some_iff.mp hlast
        have hstay : keyStays asc last x := by rw [keyStays, Bool.eq_false_iff.mpr hbeat, Bool.not_false]
        rw [hys, List.pairwise_append] at hs
        obtain ⟨-, -, hs⟩ := hs
        refine .inr ⟨rfl, hfull, fun b hb => ?_⟩
        rcases List.mem_append.mp (hys ▸ hb) with hb | hb
        · exact keyStays_trans (hs b hb last (List.mem_singleton_self _)) hstay
        · rwa [List.mem_singleton.mp hb]
    · next hnone =>
      rw [List.getLast?_eq_none_iff] at hnone
      exact .inr ⟨rfl, hfull, by simp [hnone]⟩

/-- The tree holds the first `k` of the keys `l` that have arrived, and the count of those that entered is within its bounds. -/
structure TreeOf (k : Nat) (asc : Bool) (l : List (Int × Nat)) (acc : List (Int × Nat) × Nat) : Prop where
  tree : acc.1 = (ranked asc l).take k
  least : min k l.length ≤ acc.2
  most : acc.2 ≤ l.length

theorem TreeOf.length {l : List (Int × Nat)} {acc : List (Int × Nat) × Nat} (h : TreeOf k asc l acc) : acc.1.length = min k l.length := by
  rw [h.tree, List.length_take, (ranked_perm asc l).length_eq]

theorem TreeOf.step {l : List (Int × Nat)} {acc : List (Int × Nat) × Nat} (h : TreeOf k asc l acc) (hl : (ranked asc l).Pairwise (Better asc))
    (x : Int × Nat) : TreeOf k asc (l ++ [x]) (treeStep k asc acc x) := by
  have hlen := h.length
  obtain ⟨htree, hleast, hmost⟩ := h
  have hs : acc.1.Pairwise fun a b => keyStays asc a b := htree ▸ (hl.imp Better.stays).sublist (List.take_sublist ..)
  have hgrow : (l ++ [x]).length = l.length + 1 := List.length_append
  rcases treeStep_cases acc x (hlen ▸ min_le_left ..) hs with he | ⟨he, hfull, hstay⟩
  all_goals rw [he]
  · exact ⟨by rw [htree, ranked_concat, take_insSorted_take], by dsimp only; omega, by dsimp only; omega⟩
  · have hk : k ≤ (ranked asc l).length := by rw [(ranked_perm asc l).length_eq]; omega
    exact ⟨by rw [ranked_concat, take_insSorted_of_lt hk (htree ▸ hstay), htree], by omega, by omega⟩

theorem foldl_treeOf {l : List (Int × Nat)} (h : l.Pairwise fun a b => a.2 < b.2) : TreeOf k asc l (l.foldl (treeStep k asc) ([], 0)) := by
  induction l using List.reverseRecOn with
  | nil => exact ⟨List.take_nil.symm, min_le_right .., le_rfl⟩
  | append_singleton l x ih =>
    obtain ⟨hl, -, -⟩ := List.pairwise_append.mp h
    rw [List.foldl_append]
    exact (ih hl).step (pairwise_ranked asc hl) x

end Tree

/-! ## The selection -/

theorem pairwise_zipIdx (keys : List Int) : keys.zipIdx.Pairwise fun a b => a.2 < b.2 :=
  List.pairwise_map.mp (List.zipIdx_map_snd 0 keys ▸ List.pairwise_lt_range')

theorem mem_zipIdx_iff {keys : List Int} {x : Int × Nat} : x ∈ keys.zipIdx ↔ x.2 < keys.length ∧ x.1 = keys.getD x.2 0 := by
  rw [List.mem_zipIdx_iff_getElem?, List.getElem?_eq_some_iff]
  refine ⟨fun ⟨hlt, hx⟩ => ⟨hlt, ?_⟩, fun ⟨hlt, hx⟩ => ⟨hlt, ?_⟩⟩
  · rw [List.getD_eq_getElem _ _ hlt, hx]
  · rw [hx, List.getD_eq_getElem _ _ hlt]

/-- The selection is the first `k` indices of the whole row in order. -/
theorem selectRow_fst (k : Nat) (asc : Bool) (keys : List Int) :
    (selectRow k asc keys).1 = ((ranked asc keys.zipIdx).take k).map (·.2) := by
  rw [selectRow_eq]
  exact congrArg (List.map (·.2)) (foldl_treeOf (pairwise_zipIdx keys)).tree

theorem selectRow_snd (k : Nat) (asc : Bool) (keys : List Int) :
    min k keys.length ≤ (selectRow k asc keys).2 ∧ (selectRow k asc keys).2 ≤ keys.length := by
  obtain ⟨-, hleast, hmost⟩ := foldl_treeOf (k := k) (asc := asc) (pairwise_zipIdx keys)
  rw [List.length_zipIdx] at hleast hmost
  rw [selectRow_eq]
  exact ⟨hleast, hmost⟩

/-- Settles O36: the selection is the front of `ranked`, by what each arriving key makes of the tree (`TreeOf.step`). -/
theorem topkSelection : Obligations.TopkSelection := by
  unfold Obligations.TopkSelection
  intro k asc keys key better r
  have hsel : r.1 = ((ranked asc keys.zipIdx).take k).map (·.2) := selectRow_fst k asc keys
  have hmem {x : Int × Nat} : x ∈ ranked asc keys.zipIdx ↔ x.2 < keys.length ∧ x.1 = key x.2 :=
    (ranked_perm ..).mem_iff.trans mem_zipIdx_iff
  have hbetter {x y : Int × Nat} (hx : x ∈ ranked asc keys.zipIdx) (hy : y ∈ ranked asc keys.zipIdx) (h : Better asc x y) :
      better x.2 y.2 := by
    rwa [better_iff, (hmem.mp hx).2, (hmem.mp hy).2] at h
  have hsort := pairwise_ranked asc (pairwise_zipIdx keys)
  refine ⟨?length, ?below, ?order, fun j hj hout i hi => ?left, selectRow_snd k asc keys⟩
  case length => rw [hsel, List.length_map, List.length_take, (ranked_perm ..).length_eq, List.length_zipIdx]
  case below =>
    rw [hsel, List.forall_mem_map]
    exact fun x hx => (hmem.mp (List.mem_of_mem_take hx)).1
  case order =>
    rw [hsel, List.pairwise_map]
    exact (hsort.sublist (List.take_sublist ..)).imp_of_mem fun hx hy => hbetter (List.mem_of_mem_take hx) (List.mem_of_mem_take hy)
  case left =>
    rw [hsel] at hout hi
    obtain ⟨x, hx, rfl⟩ := List.mem_map.mp hi
    have hjx : (key j, j) ∈ ranked asc keys.zipIdx := hmem.mpr ⟨hj, rfl⟩
    have hdrop : (key j, j) ∈ (ranked asc keys.zipIdx).drop k := by
      rw [← List.take_append_drop k (ranked asc keys.zipIdx), List.mem_append] at hjx
      exact hjx.resolve_left fun hin => hout (List.mem_map_of_mem hin)
    rw [← List.take_append_drop k (ranked asc keys.zipIdx), List.pairwise_append] at hsort
    obtain ⟨-, -, hsplit⟩ := hsort
    exact hbetter (List.mem_of_mem_take hx) hjx (hsplit x hx _ hdrop)

end Sys2Proof.Machine
end

section
/-! PROOFS. The KV pool registers (12 R282, Table 12.8) and the commands of constraint sets (13 R318-R320). -/

namespace Sys2Proof.Machine

/-- One bit of a word takes a value and the others stay. -/
theorem getLsbD_setBit {n : Nat} (x : BitVec n) (k : Nat) (b : Bool) {i : Nat} (hi : i < n) :
    (setBit x k b).getLsbD i = if i = k then b else x.getLsbD i := by
  rw [setBit, getLsbD_setFld x k 1 _ hi]
  by_cases hik : i = k
  · rw [if_pos hik, if_pos (by omega), hik, Nat.sub_self, Nat.testBit_zero]
    cases b <;> rfl
  · rw [if_neg hik, if_neg (by omega)]

theorem ofNat_fld_zero {n w : Nat} (x : BitVec n) (h : w ≤ n) : BitVec.ofNat w (fld x 0 w) = x.truncate w := by
  rw [ofNat_fld, BitVec.truncate_eq_setWidth, BitVec.setWidth_eq_extractLsb' h]

/-! ## The KV pool registers -/

/-- The pages that the pools of the other partitions have. -/
def State.kvOthers (s : State) (p : Fin 16) : Nat := (((List.finRange 16).filter (· != p)).map fun i => (s.P i).kvPages.toNat).sum

theorem kvPoolPut_eq (s : State) (p : Fin 16) (v : W32) : kvPoolPut s p v.toNat =
    if s.kvInUse p = true ∨ 262144 < v.toNat % 2 ^ 19 + s.kvOthers p then s.modP p fun q => { q with kvWrDrop := true }
    else s.modP p fun q => { q with kvPages := v.truncate 19 } := by
  rw [← fld_zero, ← ofNat_fld_zero v (by decide)]
  refine if_congr ?_ rfl rfl
  rw [Bool.or_eq_true, decide_eq_true_eq]
  rfl

theorem kvGeomPut_eq (s : State) (p : Fin 16) (v : W32) : kvGeomPut s p v.toNat =
    if s.kvInUse p = true ∨ v.toNat % 2 ^ 13 = 0 ∨ 4352 < v.toNat % 2 ^ 13 ∨ v.toNat / 2 ^ 16 % 2 ^ 12 = 0 ∨
      16777216 < kvStride (v.toNat % 2 ^ 13) (v.toNat / 2 ^ 16 % 2 ^ 12) then s.modP p fun q => { q with kvWrDrop := true }
    else s.modP p fun q => { q with kvRow := v.truncate 13, kvNreg := v.extractLsb' 16 12 } := by
  rw [← fld_zero, ← ofNat_fld_zero v (by decide), ← ofNat_fld]
  refine if_congr ?_ rfl rfl
  simp only [Bool.or_eq_true, decide_eq_true_eq, Nat.lt_one_iff, or_assoc]
  rfl

/-! ## A command written to CS_CMD -/

section Command

variable {s : State} {p : Fin 16} {set : Byte}

theorem csCmd_busy (h : (s.P p).csBusy = true) (op : Nat) : csCmd s p op set = s.modP p fun q => { q with csDropped := true } := if_pos h

variable (h : (s.P p).csBusy = false)
include h

theorem csCmd_load : csCmd s p 1 set = s.modP p fun q => { q with csBusy := true, csOp := 1, csSet := set } := if_neg (Bool.eq_false_iff.mp h)

theorem csCmd_unload_absent (hl : (s.P p).csLoaded.getLsbD set.toNat = false) :
    csCmd s p 2 set = s.modP p fun q => { q with csBusy := true, csOp := 2, csSet := set, csResult := 3 } := by
  simp only [csCmd, h, bit_eq_getLsbD, hl, Bool.false_eq_true, if_false, if_true, modP_modP]
  rfl

theorem csCmd_unload_loaded (hl : (s.P p).csLoaded.getLsbD set.toNat = true) : csCmd s p 2 set = s.modP p fun q =>
    { q with csBusy := true, csOp := 2, csSet := set, csResult := 0, csLoaded := setBit q.csLoaded set.toNat false } := by
  simp only [csCmd, h, bit_eq_getLsbD, hl, Bool.false_eq_true, if_false, if_true, modP_modP]
  rfl

end Command

/-! ## The end of a command -/

section Done

variable {s : State} {p : Fin 16}

theorem execCsUnloadDone_named (hn : s.csNamed p (s.P p).csSet.toNat = true) : execCsUnloadDone p s = .next s := by
  simp [execCsUnloadDone, hn]

variable (hb : (s.P p).csBusy = true) (hr : s.running = true)
include hb hr

theorem execCsUnloadDone_free (hop : (s.P p).csOp = 2) (hn : s.csNamed p (s.P p).csSet.toNat = false) :
    execCsUnloadDone p s = .next (s.modP p fun q => { q with csBusy := false, csA := 0, csB := 0 }) := by
  simp [execCsUnloadDone, hb, hr, hop, hn]

variable (hop : (s.P p).csOp = 1)
include hop

/-- The errors that a check's accesses meet come before it; where they stop the device or the command, there is no check. -/
theorem execCsLoadDone_meet (m : List MemEv) : execCsLoadDone p s m = execCsLoadDone p (s.meet m) := by
  simp only [execCsLoadDone, meet_nil, hb, hr, hop, beq_self_eq_true, Bool.and_self, Bool.not_true, Bool.false_eq_true, if_false]
  split <;> rfl

theorem execCsLoadDone_checked {r a b : Nat} (hc : csCheck s p (s.P p).csSet.toNat = (r, a, b)) :
    execCsLoadDone p s = .next (s.modP p fun q => { q with
      csBusy := false, csResult := BitVec.ofNat 3 r, csA := BitVec.ofNat 13 a, csB := BitVec.ofNat 13 b
      csLoaded := if r = 0 then setBit q.csLoaded q.csSet.toNat true else q.csLoaded }) := by
  simp only [execCsLoadDone, meet_nil, hb, hr, hop, hc, beq_self_eq_true, Bool.and_self, Bool.not_true, Bool.false_eq_true, if_false]

end Done

/-- Settles O42: the registers by `kvPoolPut` and `kvGeomPut`, the commands by `csCmd`, and the sets that are loaded by `getLsbD_setBit`. -/
theorem kvPoolAndConstraints : Obligations.KvPoolAndConstraints := by
  unfold Obligations.KvPoolAndConstraints
  refine ⟨fun s fn p v h => ?registers, fun s fn p set h => ?commands, fun s p hb hr => ?done⟩
  case registers =>
    simp only [exec_kvPoolWrite, exec_kvGeomWrite, execKvPoolWrite, execKvGeomWrite, next_reached h]
    refine ⟨fun hd => ?_, fun hu hn => ?_, fun hd => ?_, fun hu hrow hmax hnreg hst => ?_⟩
    · rw [kvPoolPut_eq]
      exact congrArg _ (if_pos hd)
    · rw [kvPoolPut_eq]
      exact congrArg _ (if_neg (not_or.mpr ⟨Bool.eq_false_iff.mp hu, Nat.not_lt.mpr hn⟩))
    · rw [kvGeomPut_eq, if_pos hd]
    · rw [kvGeomPut_eq, if_neg]
      simp only [hu, Bool.false_eq_true, false_or]
      omega
  case commands =>
    simp only [exec_load, exec_unload, execLoad, execUnload, next_reached h]
    refine ⟨fun hb => ⟨?_, ?_⟩, fun hb => ⟨?_, fun hl => ?_, fun hl => ⟨_, congrArg _ (csCmd_unload_loaded hb hl), onlyP_modP .., ?_⟩⟩⟩
    · rw [csCmd_busy hb]
    · rw [csCmd_busy hb]
    · rw [csCmd_load hb]
    · rw [csCmd_unload_absent hb hl]
    · rw [modP_same]
      refine ⟨rfl, fun i hi => ?_⟩
      rw [getLsbD_setBit _ _ _ hi]
      by_cases hset : i = set.toNat <;> simp [hset]
  case done =>
    simp only [exec_csLoadDone, exec_csUnloadDone]
    refine ⟨fun hop r a b hc => ⟨_, execCsLoadDone_checked hb hr hop hc, onlyP_modP .., ?_⟩, execCsLoadDone_meet hb hr,
      execCsUnloadDone_free hb hr, fun _ => execCsUnloadDone_named⟩
    rw [modP_same]
    refine ⟨rfl, fun i hi => ?_⟩
    by_cases hok : r = 0
    · simp only [hok, if_true, true_and, getLsbD_setBit _ _ _ hi]
      by_cases hset : i = (s.P p).csSet.toNat <;> simp [hset]
    · simp [hok]

end Sys2Proof.Machine
end

section
/-! PROOFS. A step with nothing queued: what waits is decided, and one nanosecond passes (15 R356, R357; 04 R90). -/

namespace Sys2Proof.Machine

/-- Where no descriptor is undecided, there is nothing to decide. -/
theorem decideWaiting_of_none {s : State} (h : ∀ p, (s.P p).undec = []) : s.decideWaiting = s :=
  if_pos (List.all_eq_true.mpr fun p _ => by rw [h p, List.isEmpty_nil])

section Tick

variable (c : Clk)

/-! ## A cycle of the global time counter -/

theorem gtCycle_eq : c.gtCycle = { c with gt := c.gtCycle.gt, slew := c.gtCycle.slew, slewCnt := c.gtCycle.slewCnt } := by
  rw [Clk.gtCycle]
  split
  · split <;> rfl
  · rfl

/-- What a cycle does to the counter does not depend on the nanoseconds that have passed. -/
theorem gtCycle_ns (n : Nat) : { c with ns := n }.gtCycle = { c.gtCycle with ns := n } := by
  simp only [Clk.gtCycle]
  split
  · split <;> rfl
  · rfl

/-- A cycle adds one increment, or slews, where an offset is left and the last slew is 2,000 cycles back: then it adds none or two (15 R357). -/
theorem gtCycle_increment : c.gtCycle.gt = c.gt + 1 ∨
    (c.slew ≠ 0 ∧ 1999 ≤ c.slewCnt ∧ c.gtCycle.slewCnt = 0 ∧ (c.gtCycle.gt = c.gt ∨ c.gtCycle.gt = c.gt + 2)) := by
  by_cases hslew : c.slew ≠ 0 ∧ 1999 ≤ c.slewCnt
  · rw [Clk.gtCycle, if_pos hslew]
    by_cases hahead : 0 < c.slew
    · rw [if_pos hahead]
      exact .inr ⟨hslew.1, hslew.2, rfl, .inr rfl⟩
    · rw [if_neg hahead]
      exact .inr ⟨hslew.1, hslew.2, rfl, .inl rfl⟩
  · rw [Clk.gtCycle, if_neg hslew]
    exact .inl rfl

/-! ## A tick -/

/-- The clocks after the cycle of GCLK that a nanosecond holds while its PLL is locked. -/
def Clk.gclkPassed (c : Clk) : Clk := if c.lock.getLsbD 4 then c.gtCycle else c

theorem gclkPassed_eq : c.gclkPassed = { c with gt := c.gclkPassed.gt, slew := c.gclkPassed.slew, slewCnt := c.gclkPassed.slewCnt } := by
  rw [Clk.gclkPassed]
  split
  · exact gtCycle_eq c
  · rfl

theorem gclkPassed_ns (n : Nat) : { c with ns := n }.gclkPassed = { c.gclkPassed with ns := n } := by
  rw [Clk.gclkPassed, gtCycle_ns, Clk.gclkPassed]
  split <;> rfl

/-- The clocks after the cycles of CCLK that a nanosecond holds while its PLL is locked, in tenths. -/
def Clk.cclkPassed (c : Clk) : Clk := if c.lock.getLsbD 0 then { c with cyc10 := c.cyc10 + c.cur.toNat } else c

theorem cclkPassed_eq : c.cclkPassed = { c with cyc10 := if c.lock.getLsbD 0 then c.cyc10 + c.cur.toNat else c.cyc10 } := by
  rw [Clk.cclkPassed]
  split <;> rfl

/-- A tick is a nanosecond, the cycle of GCLK in it, and the cycles of CCLK. -/
theorem clkTick_eq_passed : c.tick = { c with ns := c.ns + 1 }.gclkPassed.cclkPassed := rfl

theorem clkTick_eq : c.tick = { c with
    gt := c.gclkPassed.gt, slew := c.gclkPassed.slew, slewCnt := c.gclkPassed.slewCnt, ns := c.ns + 1
    cyc10 := if c.lock.getLsbD 0 then c.cyc10 + c.cur.toNat else c.cyc10 } := by
  rw [clkTick_eq_passed, cclkPassed_eq, gclkPassed_ns, gclkPassed_eq]

theorem clkTick_frame :
    { c.tick with gt := c.gt, slew := c.slew, slewCnt := c.slewCnt, cyc10 := c.cyc10, ns := c.ns } = c := by
  rw [clkTick_eq]

theorem clkTick_ns : c.tick.ns = c.ns + 1 := by rw [clkTick_eq]

theorem clkTick_cyc10 : c.tick.cyc10 = if c.lock.getLsbD 0 then c.cyc10 + c.cur.toNat else c.cyc10 := by rw [clkTick_eq]

theorem clkTick_gt_unlocked (h : c.lock.getLsbD 4 = false) : c.tick.gt = c.gt := by
  rw [clkTick_eq, Clk.gclkPassed, h]
  rfl

/-- While GCLK is locked, a tick does to global time what a cycle of its counter does. -/
theorem clkTick_increment (h : c.lock.getLsbD 4 = true) : c.tick.gt = c.gt + 1 ∨
    (c.slew ≠ 0 ∧ 1999 ≤ c.slewCnt ∧ c.tick.slewCnt = 0 ∧ (c.tick.gt = c.gt ∨ c.tick.gt = c.gt + 2)) := by
  rw [clkTick_eq, Clk.gclkPassed, if_pos h]
  exact gtCycle_increment c

end Tick

theorem step_of_empty {s : State} (h : s.pending = []) : step s = .next (tick s.decideWaiting) := by
  rw [step, h]

/-- Settles O2: the step by `step_of_empty`, the clocks after it by the lemmas of `Clk.tick`, whose increment is that of `gtCycle_increment`. -/
theorem emptyQueueTicks : Obligations.EmptyQueueTicks := by
  unfold Obligations.EmptyQueueTicks
  intro s hempty
  refine ⟨step_of_empty hempty, fun hnone => ⟨tick s, ?_, rfl, clkTick_frame s.clk, clkTick_ns s.clk, clkTick_gt_unlocked s.clk, fun hl => ?moves,
    fun hl hne => ?slews, clkTick_cyc10 s.clk⟩⟩
  · rw [step_of_empty hempty, decideWaiting_of_none hnone]
  case moves =>
    obtain hone | ⟨-, -, -, hnone | htwo⟩ := clkTick_increment s.clk hl
    · exact .inr (.inl hone)
    · exact .inl hnone
    · exact .inr (.inr htwo)
  case slews =>
    obtain hone | ⟨hslew, hcnt, hcnt', -⟩ := clkTick_increment s.clk hl
    · exact absurd hone hne
    · exact ⟨hslew, hcnt, hcnt'⟩

end Sys2Proof.Machine
end

section
/-! PROOFS. GT_SET, the walk of CCLK, and the failures of clocks and fabric links (15 R356, R358, R360, R363; 18 Table 18.5). -/

namespace Sys2Proof.Machine

section Clocks

variable {s : State}

/-! ## GT_SET -/

theorem anyActive_iff : s.anyActive = true ↔ ∃ p, (s.P p).activeValid = true := by
  rw [State.anyActive, Vector.any_eq_true]
  exact ⟨fun ⟨i, hi, h⟩ => ⟨⟨i, hi⟩, h⟩, fun ⟨p, h⟩ => ⟨p.val, p.isLt, h⟩⟩

theorem anyActive_eq_false_iff : s.anyActive = false ↔ ∀ p, (s.P p).activeValid = false := by
  simp only [← Bool.not_eq_true, anyActive_iff, not_exists]

section GtSet

variable {fn : Fn} {v : W64}

theorem execGtSet_denied (h : s.owner fn = false) : execGtSet fn v s = .next s :=
  congrArg Host.Outcome.next (if_pos (by rw [h]; rfl))

theorem execGtSet_owner (h : s.owner fn = true) : execGtSet fn v s =
    .next (if s.clk.st = .free ∧ !s.anyActive then { s with clk := { s.clk with gt := v } } else { s with clk := { s.clk with setDrop := true } }) :=
  congrArg Host.Outcome.next (if_neg (by rw [h]; decide))

theorem execGtSet_taken (h : s.owner fn = true) (hfree : s.clk.st = .free) (hnone : s.anyActive = false) :
    execGtSet fn v s = .next { s with clk := { s.clk with gt := v } } := by
  rw [execGtSet_owner h, if_pos ⟨hfree, by rw [hnone]; rfl⟩]

theorem execGtSet_dropped (h : s.owner fn = true) (hbusy : s.clk.st ≠ .free ∨ s.anyActive = true) :
    execGtSet fn v s = .next { s with clk := { s.clk with setDrop := true } } := by
  rw [execGtSet_owner h, if_neg]
  rintro ⟨hfree, hnone⟩
  obtain hst | hany := hbusy
  · exact hst hfree
  · rw [hany] at hnone
    exact Bool.false_ne_true hnone

end GtSet

/-! ## The walk of CCLK -/

theorem past_iff {c : Clk} {since : Option Nat} {n : Nat} : c.past since n = true ↔ ∀ t, since = some t → t + n ≤ c.ns := by
  cases since with
  | none => simp [Clk.past]
  | some t => simp [Clk.past]

/-- CCLK one step nearer to its target. -/
def Clk.nearer (c : Clk) : BitVec 5 := if c.cur.toNat < c.target.toNat then c.cur + 1 else c.cur - 1

theorem nearer_up {c : Clk} (h : c.cur.toNat < c.target.toNat) : c.nearer.toNat = c.cur.toNat + 1 := by
  rw [Clk.nearer, if_pos h]
  bv_omega

theorem nearer_down {c : Clk} (h : c.target.toNat < c.cur.toNat) : c.nearer.toNat + 1 = c.cur.toNat := by
  rw [Clk.nearer, if_neg (Nat.lt_asymm h)]
  bv_omega

theorem execCclkStep_stays
    (h : s.pwr.rails = false ∨ s.clk.cur = s.clk.target ∨ ∃ t, s.clk.stepAt = some t ∧ s.clk.ns < t + 50000) : execCclkStep s = .next s := by
  refine congrArg Host.Outcome.next (if_pos ?_)
  obtain hoff | hthere | ⟨t, hlast, hsoon⟩ := h
  · exact .inl (by rw [hoff]; rfl)
  · exact .inr (.inl hthere)
  · refine .inr (.inr ?_)
    rw [Bool.not_eq_true', Bool.eq_false_iff, Ne, past_iff]
    exact fun hpast => Nat.not_le.mpr hsoon (hpast t hlast)

theorem execCclkStep_moves (hon : s.pwr.rails = true) (haway : s.clk.cur ≠ s.clk.target)
    (hlast : ∀ t, s.clk.stepAt = some t → t + 50000 ≤ s.clk.ns) :
    execCclkStep s = .next { s with clk := { s.clk with
      cur := s.clk.nearer, walking := s.clk.nearer != s.clk.target, stepAt := some s.clk.ns } } := by
  refine congrArg Host.Outcome.next (if_neg ?_)
  rw [hon, past_iff.mpr hlast]
  simpa using haway

/-! ## The target -/

theorem ladderCeil_le (n : Nat) : ladderCeil n ≤ 16 := by
  unfold ladderCeil
  split <;> decide

theorem ceiling_le (s : State) : s.ceiling ≤ 16 :=
  (Nat.min_le_right ..).trans ((Nat.min_le_left ..).trans (ladderCeil_le _))

/-- The lower of the planned step and the ceiling fits the five bits of CLK_CCLK.TARGET. -/
theorem retarget_target (s : State) : s.retarget.clk.target.toNat = min s.planned s.ceiling := by
  have hfits : min s.planned s.ceiling < 2 ^ 5 := Nat.lt_of_le_of_lt ((Nat.min_le_right ..).trans (ceiling_le s)) (by decide)
  exact (BitVec.toNat_ofNat ..).trans (Nat.mod_eq_of_lt hfits)

/-! ## Failures -/

theorem execOscillatorStop_on (h : s.pwr.rails = true) : execOscillatorStop s = .next (s.report (recOf 4 0x0A 2 unitClk) none 0) :=
  congrArg Host.Outcome.next (if_pos h)

theorem execFabricError_on (h : s.pwr.rails = true) (l : Fin 14) (corrected : Bool) : execFabricError l corrected s =
    .next (s.report { recOf (if corrected then 1 else 4) 0x0A (if corrected then 6 else 3) unitFabric with detail := l.val } none 0) :=
  congrArg Host.Outcome.next (if_pos h)

/-! ## A PLL's lock -/

/-- The state with a domain's bit of CLK_STATUS. -/
def State.withLock (s : State) (d : Fin 9) (b : Bool) : State := { s with clk := { s.clk with lock := setBit s.clk.lock d.val b } }

theorem domFitted_iff {d : Fin 9} : s.domFitted d = true ↔ s.fuses.i2 = true ∨ d ≠ 6 ∧ d ≠ 8 := by
  simp [State.domFitted]

/-- A domain has no PLL that runs: the main rails are off, or its I/O die is not fitted. -/
theorem pll_absent {d : Fin 9} (h : s.pwr.rails = false ∨ s.fuses.i2 = false ∧ (d = 6 ∨ d = 8)) : (!s.pwr.rails || !s.domFitted d) = true := by
  obtain hoff | ⟨hi2, hd⟩ := h
  · rw [hoff]
    rfl
  · obtain rfl | rfl := hd <;> simp [State.domFitted, hi2]

theorem pll_present {d : Fin 9} (hon : s.pwr.rails = true) (h : s.fuses.i2 = true ∨ d ≠ 6 ∧ d ≠ 8) : ¬(!s.pwr.rails || !s.domFitted d) = true := by
  rw [hon, domFitted_iff.mpr h]
  decide

theorem execPllLockLoss_absent {d : Fin 9} (h : s.pwr.rails = false ∨ s.fuses.i2 = false ∧ (d = 6 ∨ d = 8)) : execPllLockLoss d s = .next s :=
  congrArg Host.Outcome.next (if_pos (pll_absent h))

theorem execPllLockRegained_absent {d : Fin 9} (h : s.pwr.rails = false ∨ s.fuses.i2 = false ∧ (d = 6 ∨ d = 8)) :
    execPllLockRegained d s = .next s :=
  congrArg Host.Outcome.next (if_pos (pll_absent h))

/-- What follows from the loss of a domain's lock, once its bit has fallen (15 R363). -/
def State.lockLost (s : State) : Fin 9 → State
  | 4 => s
  | 5 => s.linkDown 0
  | 6 => s.linkDown 1
  | 7 => ((s.dropDrive 0 7).idlePort 0 .down).idlePort 1 .down
  | 8 => ((s.dropDrive 1 7).idlePort 2 .down).idlePort 3 .down
  | d => s.report { recOf 4 0x0A 1 unitClk with detail := domOrder d } none 0

theorem execPllLockLoss_present {d : Fin 9} (hon : s.pwr.rails = true) (h : s.fuses.i2 = true ∨ d ≠ 6 ∧ d ≠ 8) :
    execPllLockLoss d s = .next ((s.withLock d false).lockLost d) := by
  refine congrArg Host.Outcome.next ((if_neg (pll_present hon h)).trans ?_)
  fin_cases d <;> rfl

/-! ## LCLK regained -/

/-- A port that was down goes back to LOOPBACK. -/
def Port.reopened (p : Port) : Port := if p.st = .down then { p with st := .loopback } else p

/-- The ports of a pair go back to LOOPBACK. -/
def State.reopenPair (s : State) (k : Fin 2) : State := (s.modPort (eastOf k) Port.reopened).modPort (westOf k) Port.reopened

theorem pairOf_eq_iff (p : Fin 4) (k : Fin 2) : pairOf p = k ↔ p = eastOf k ∨ p = westOf k := by decide +revert

theorem westOf_ne_eastOf (k : Fin 2) : westOf k ≠ eastOf k := by decide +revert

theorem reopenPair_port (s : State) (k : Fin 2) (p : Fin 4) : (s.reopenPair k).dlk.port[p] =
    if pairOf p = k ∧ s.dlk.port[p].st = .down then { s.dlk.port[p] with st := .loopback } else s.dlk.port[p] := by
  have hport : (s.reopenPair k).dlk.port[p] = if pairOf p = k then s.dlk.port[p].reopened else s.dlk.port[p] := by
    rw [State.reopenPair]
    by_cases hw : p = westOf k
    · subst hw
      rw [modPort_same, modPort_other _ _ _ _ (westOf_ne_eastOf k), if_pos ((pairOf_eq_iff _ k).mpr (.inr rfl))]
    · rw [modPort_other _ _ _ _ hw]
      by_cases he : p = eastOf k
      · subst he
        rw [modPort_same, if_pos ((pairOf_eq_iff _ k).mpr (.inl rfl))]
      · rw [modPort_other _ _ _ _ he, if_neg fun h => ((pairOf_eq_iff p k).mp h).elim he hw]
  rw [hport, Port.reopened, ite_and]

/-- A port after its pair's LCLK is regained: from start-up stage 3 on, and without drive, it leaves DOWN. -/
def State.lclkPort (s : State) (k : Fin 2) (p : Fin 4) : State :=
  if s.dlk.port[p].st = .down ∧ !s.dlk.sw[k].drive ∧ 3 ≤ s.pwr.stage.toNat then s.modPort p fun p => { p with st := .loopback } else s

section Undriven

variable {k : Fin 2} (hdrive : s.dlk.sw[k].drive = false) (hstage : 3 ≤ s.pwr.stage.toNat)
include hdrive hstage

theorem lclkPort_undriven (p : Fin 4) : s.lclkPort k p = s.modPort p Port.reopened := by
  have hrest : (!s.dlk.sw[k].drive) = true ∧ 3 ≤ s.pwr.stage.toNat := ⟨by rw [hdrive]; rfl, hstage⟩
  rw [State.lclkPort, State.modPort, State.modPort, Port.reopened]
  by_cases hdown : s.dlk.port[p].st = .down
  · rw [if_pos ⟨hdown, hrest⟩, if_pos hdown]
  · rw [if_neg fun h => hdown h.1, if_neg hdown, vec_set_get]

theorem lclkPort_pair : (s.lclkPort k (eastOf k)).lclkPort k (westOf k) = s.reopenPair k := by
  rw [lclkPort_undriven hdrive hstage]
  exact lclkPort_undriven (s := s.modPort (eastOf k) Port.reopened) hdrive hstage (westOf k)

end Undriven

theorem execPllLockRegained_other {d : Fin 9} (hon : s.pwr.rails = true) (h : s.fuses.i2 = true ∨ d ≠ 6 ∧ d ≠ 8) (h7 : d ≠ 7) (h8 : d ≠ 8) :
    execPllLockRegained d s = .next (s.withLock d true) := by
  refine congrArg Host.Outcome.next ((if_neg (pll_present hon h)).trans ?_)
  match d, h7, h8 with
  | 7, h7, _ => exact absurd rfl h7
  | 8, _, h8 => exact absurd rfl h8
  | 0, _, _ | 1, _, _ | 2, _, _ | 3, _, _ | 4, _, _ | 5, _, _ | 6, _, _ => rfl

theorem execPllLockRegained_lclk {d : Fin 9} {k : Fin 2} (hon : s.pwr.rails = true) (h : s.fuses.i2 = true ∨ d ≠ 6 ∧ d ≠ 8)
    (hd : d.val = 7 + k.val) :
    execPllLockRegained d s = .next (((s.withLock d true).lclkPort k (eastOf k)).lclkPort k (westOf k)) := by
  refine congrArg Host.Outcome.next ((if_neg (pll_present hon h)).trans ?_)
  match k with
  | 0 =>
    obtain rfl : d = 7 := Fin.ext hd
    rfl
  | 1 =>
    obtain rfl : d = 8 := Fin.ext hd
    rfl

end Clocks

/-- Settles O29: each command by its rules above; what a lost lock brings is `lockLost`, and the ports of an LCLK regained are `reopenPair_port`. -/
theorem clockPlan : Obligations.ClockPlan := by
  unfold Obligations.ClockPlan
  refine ⟨⟨fun s fn v => ⟨execGtSet_denied, fun ho => ⟨fun hfree hnone => execGtSet_taken ho hfree (anyActive_eq_false_iff.mpr hnone),
      fun hbusy => execGtSet_dropped ho (hbusy.imp_right anyActive_iff.mpr)⟩⟩,
    fun s => ⟨execCclkStep_stays, fun hon haway hlast => ⟨_, execCclkStep_moves hon haway hlast, rfl, ?walking, nearer_up, nearer_down⟩,
      retarget_target s, ceiling_le s, rfl, rfl⟩⟩,
    fun s => ⟨fun d habsent => ⟨execPllLockLoss_absent habsent, execPllLockRegained_absent habsent⟩,
      fun hon => ⟨execOscillatorStop_on hon, fun l => ⟨execFabricError_on hon l true, execFabricError_on hon l false⟩, fun d hd => ?pll⟩⟩⟩
  case walking => rw [decide_not]; rfl
  case pll =>
    have hloss := execPllLockLoss_present hon hd
    refine ⟨fun e he => ?device, ?_, ?_, ?_, ?_, ?_, execPllLockRegained_other hon hd, fun k hk hdrive hstage => ?lclk⟩
    case device =>
      simp only [List.mem_cons, Prod.mk.injEq, List.not_mem_nil, or_false] at he
      obtain ⟨rfl, rfl⟩ | ⟨rfl, rfl⟩ | ⟨rfl, rfl⟩ | ⟨rfl, rfl⟩ := he
      all_goals exact hloss
    case lclk =>
      refine ⟨_, (execPllLockRegained_lclk hon hd hk).trans (congrArg _ (lclkPort_pair hdrive hstage)), rfl, rfl,
        reopenPair_port (s.withLock d true) k⟩
    all_goals
      rintro rfl
      exact hloss

end Sys2Proof.Machine
end

section
/-! PROOFS. The bypass switch and the ends of a join and a leave (16 R375, R376, R380, Tables 16.3 and 16.6; 17 R405). -/

namespace Sys2Proof.Machine

theorem modSw_modSw (s : State) (k : Fin 2) (f g : Switch → Switch) : (s.modSw k f).modSw k g = s.modSw k fun w => g (f w) := by
  simp [State.modSw]

section Bypass

variable {s : State} {k : Fin 2}

/-! ## The removal of the drive -/

theorem each_sw {α : Type} {f : State → α → State} (h : ∀ s a, (f s a).dlk.sw = s.dlk.sw) (l : List α) (s : State) :
    (s.each l f).dlk.sw = s.dlk.sw := by
  induction l generalizing s with
  | nil => rfl
  | cons a rest ih => exact (ih (f s a)).trans (h s a)

theorem freeInp_sw (s : State) (f : TxFlit) : (s.freeInp f).dlk.sw = s.dlk.sw := by
  unfold State.freeInp
  split <;> rfl

theorem idlePort_sw (s : State) (p : Fin 4) (st : PortSt) : (s.idlePort p st).dlk.sw = s.dlk.sw := each_sw freeInp_sw _ _

theorem dropDrive_undriven (h : s.dlk.sw[k].drive = false) (c : BitVec 3) : s.dropDrive k c = s := if_neg (by rw [h]; decide)

theorem dropDrive_switch (h : s.dlk.sw[k].drive = true) (c : BitVec 3) : (s.dropDrive k c).dlk.sw[k] =
    { s.dlk.sw[k] with
      drive := false, closed := true, cause := c, joining := false, joined := false, leaving := false, returned := false, ackE := false
      ackW := false, barred := s.dlk.sw[k].barred || decide (c = 6) } := by
  rw [State.dropDrive, if_pos h]
  exact (congrArg (·[k]) ((idlePort_sw ..).trans (idlePort_sw ..))).trans (modSw_same ..)

/-! ## The start of a leave -/

theorem startLeave_idle (h : s.dlk.sw[k].joined = false ∨ s.dlk.sw[k].leaving = true) : s.startLeave k = s := by
  refine if_neg ?_
  obtain h | h := h
  · rw [h]
    simp
  · rw [h]
    simp

section Starting

variable (hjoined : s.dlk.sw[k].joined = true) (hleaving : s.dlk.sw[k].leaving = false)
include hjoined hleaving

theorem startLeave_pair1 (hk : k = 1) : s.startLeave k =
    (s.modSw k fun w => { w with leaving := true, returned := false, ackE := false, ackW := false }).sendTopo 1 4 2 3 := by
  subst hk
  exact if_pos (by rw [hjoined, hleaving]; rfl)

/-- With no transfer of its own under way, a device that leaves its segment fails none. -/
theorem startLeave_pair0 (hk : k = 0) (htx : s.ringl.tx = []) (hrx : ∀ r ∈ s.ringl.rx, r.done = true) :
    let v := s.modSw k fun w => { w with leaving := true, returned := false, ackE := false, ackW := false }
    s.startLeave k = ({ v with ringl := { v.ringl with st := .leaving } } : State).sendTopo 0 4 0 1 := by
  subst hk
  have hopen : s.ringl.rx.filter (fun r => !r.done) = [] := List.filter_eq_nil_iff.mpr fun r hr => by simp [hrx r hr]
  refine (if_pos (by rw [hjoined, hleaving]; rfl)).trans (congrArg (State.sendTopo · 0 4 0 1) ?_)
  show ((State.each _ s.ringl.tx _).each ((State.each _ s.ringl.tx _).ringl.rx.filter fun r => !r.done) _) = _
  rw [htx]
  show State.each _ (s.ringl.rx.filter fun r => !r.done) _ = _
  rw [hopen]
  rfl

end Starting

/-! ## BYPASS -/

theorem execBypass_denied {fn : Fn} (h : s.owner fn = false ∨ (k = 1 ∧ s.fuses.i2 = false)) : execBypass fn k s = .next s := by
  refine congrArg Host.Outcome.next (if_neg ?_)
  obtain h | ⟨rfl, h⟩ := h
  · simp [h]
  · simp [h]

theorem execBypass_owner {fn : Fn} (ho : s.owner fn = true) (hk : k = 0 ∨ s.fuses.i2 = true) : execBypass fn k s = .next (s.bypassOn k) := by
  refine congrArg Host.Outcome.next (if_pos ?_)
  rw [ho]
  obtain rfl | h := hk
  · simp
  · simp [h]

theorem bypassOn_eq (s : State) (k : Fin 2) :
    let u := s.modSw k fun w => { w with bypass := true }
    s.bypassOn k = if s.dlk.sw[k].joined then u.startLeave k else if s.dlk.sw[k].drive then u.dropDrive k 5
      else s.modSw k fun w => { w with bypass := true, cause := 5 } := by
  intro u
  show (if u.dlk.sw[k].joined then u.startLeave k else if u.dlk.sw[k].drive then u.dropDrive k 5
    else u.modSw k fun w => { w with cause := 5 }) = _
  rw [modSw_same, modSw_modSw]

/-! ## The timers -/

theorem execJoinWindowExpiry_joining (h : s.dlk.sw[k].joining = true) :
    execJoinWindowExpiry k s = .next ((s.noteLink (eastOf k) 1 6).dropDrive k 6) :=
  congrArg Host.Outcome.next (if_pos h)

theorem execJoinWindowExpiry_idle (h : s.dlk.sw[k].joining = false) : execJoinWindowExpiry k s = .next s :=
  congrArg Host.Outcome.next (if_neg (by rw [h]; decide))

theorem execSwitchSenseTimeout_driven (h : s.dlk.sw[k].drive = true) : execSwitchSenseTimeout k s =
    .next (((s.modSw k fun w => { w with fault := true, closed := true }).noteLink (eastOf k) 1 7).dropDrive k 6) :=
  congrArg Host.Outcome.next (if_pos h)

theorem execSwitchSenseTimeout_undriven (h : s.dlk.sw[k].drive = false) : execSwitchSenseTimeout k s =
    .next ((s.modSw k fun w => { w with fault := true, closed := false }).noteLink (eastOf k) 1 8) :=
  congrArg Host.Outcome.next (if_neg (by rw [h]; decide))

theorem execPairDownTimeout_eq (s : State) (k : Fin 2) : execPairDownTimeout k s =
    .next (if s.dlk.sw[k].drive = true ∧ s.dlk.port[eastOf k].st = .down ∧ s.dlk.port[westOf k].st = .down then s.dropDrive k 7 else s) := by
  simp only [execPairDownTimeout, Bool.and_eq_true, decide_eq_true_eq, and_assoc]

theorem execPairDownTimeout_down (hd : s.dlk.sw[k].drive = true) (he : s.dlk.port[eastOf k].st = .down) (hw : s.dlk.port[westOf k].st = .down) :
    execPairDownTimeout k s = .next (s.dropDrive k 7) := by
  rw [execPairDownTimeout_eq, if_pos ⟨hd, he, hw⟩]

theorem execPairDownTimeout_stays (h : s.dlk.sw[k].drive = false ∨ s.dlk.port[eastOf k].st ≠ .down ∨ s.dlk.port[westOf k].st ≠ .down) :
    execPairDownTimeout k s = .next s := by
  rw [execPairDownTimeout_eq, if_neg]
  rintro ⟨hd, he, hw⟩
  obtain h | h | h := h
  · exact Bool.false_ne_true (h.symm.trans hd)
  · exact h he
  · exact h hw

theorem execLeaveTimeout_idle (h : s.dlk.sw[k].leaving = false) : execLeaveTimeout k s = .next s :=
  congrArg Host.Outcome.next (if_neg (by rw [h]; decide))

theorem execLeaveTimeout_shutdown (h : s.dlk.sw[k].leaving = true) (hp : s.pwr.st = .shuttingDown) : execLeaveTimeout k s =
    .next { s.dropDrive k 3 with pwr := { (s.dropDrive k 3).pwr with leaveTimeout := true } } :=
  congrArg Host.Outcome.next ((if_pos h).trans (if_pos hp))

theorem execLeaveTimeout_leaving (h : s.dlk.sw[k].leaving = true) (hp : s.pwr.st ≠ .shuttingDown) : execLeaveTimeout k s = .next (s.dropDrive k 5) :=
  congrArg Host.Outcome.next ((if_pos h).trans (if_neg hp))

end Bypass

/-- Settles O44: what BYPASS does is `bypassOn_eq`, and each timer acts, or not, by the switch it finds. -/
theorem bypassSwitch : Obligations.BypassSwitch := by
  unfold Obligations.BypassSwitch
  intro s k
  refine ⟨fun fn ho hk => ?bypass, fun fn => execBypass_denied,
    ⟨startLeave_idle, fun hj hl => ⟨startLeave_pair1 hj hl, startLeave_pair0 hj hl⟩⟩,
    execJoinWindowExpiry_joining, execJoinWindowExpiry_idle, execSwitchSenseTimeout_driven, execSwitchSenseTimeout_undriven,
    execPairDownTimeout_down, execPairDownTimeout_stays, execLeaveTimeout_leaving, execLeaveTimeout_shutdown, execLeaveTimeout_idle,
    fun c hd => dropDrive_undriven hd c, fun c hd => dropDrive_switch hd c⟩
  case bypass =>
    have hdo := (execBypass_owner ho hk).trans (congrArg Host.Outcome.next (bypassOn_eq s k))
    refine ⟨fun hj => hdo.trans ?_, fun hj hd => hdo.trans ?_, fun hj hd => hdo.trans ?_⟩
    · rw [if_pos hj]
    · rw [if_neg (Bool.eq_false_iff.mp hj), if_pos hd]
    · rw [if_neg (Bool.eq_false_iff.mp hj), if_neg (Bool.eq_false_iff.mp hd)]

end Sys2Proof.Machine
end

section
/-! PROOFS. Drawlink ports: their error thresholds, retrains and trainings (16 R370, R372, R373, R376, R379, R381, R382). -/

namespace Sys2Proof.Machine

section Ports

variable {s : State} {k : Fin 4}

/-! ## Out of UP, or with the device stopped, no event moves a port -/

section Idle

variable (h : s.dlk.port[k].st ≠ .up ∨ s.running = false)
include h

theorem port_not_live : ¬(s.dlk.port[k].st = .up ∧ s.running = true) := by
  rintro ⟨hup, hrun⟩
  obtain h | h := h
  · exact h hup
  · exact Bool.false_ne_true (h.symm.trans hrun)

theorem execDlkErrThreshold_idle (th : ErrTh) : execDlkErrThreshold k th s = .next s :=
  congrArg Host.Outcome.next (if_pos (h.imp_right fun hrun => by rw [hrun]; rfl))

theorem execSignalLoss_idle : execSignalLoss k s = .next s := congrArg Host.Outcome.next (if_neg (port_not_live h))

theorem execReplayTimeout_idle : execReplayTimeout k s = .next s := congrArg Host.Outcome.next (if_neg (port_not_live h))

theorem execRetrain_idle (fn : Fn) : execRetrain fn k s = .next s := by
  refine congrArg Host.Outcome.next (if_neg fun hgo => port_not_live h ?_)
  simp only [Bool.and_eq_true, decide_eq_true_eq] at hgo
  exact ⟨hgo.1.2, hgo.2⟩

end Idle

theorem execRetrain_denied {fn : Fn} (h : s.owner fn = false ∨ 2 ≤ k.val ∧ s.fuses.i2 = false) : execRetrain fn k s = .next s := by
  refine congrArg Host.Outcome.next (if_neg ?_)
  obtain h | ⟨hk, hi2⟩ := h
  · simp [h]
  · simp [State.portFitted, hi2, Nat.not_lt.mpr hk]

/-! ## UP -/

section Live

variable (hup : s.dlk.port[k].st = .up) (hrun : s.running = true)
include hup hrun

theorem port_live : ¬(s.dlk.port[k].st ≠ .up ∨ (!s.running) = true) := by
  rw [hup, hrun]
  decide

theorem execSignalLoss_up : execSignalLoss k s = .next (s.enterRetrain k) := congrArg Host.Outcome.next (if_pos ⟨hup, hrun⟩)

theorem execTrainingPatternDetected_up : execTrainingPatternDetected k s = .next (s.enterRetrain k) :=
  congrArg Host.Outcome.next ((if_neg (by rw [hrun]; decide)).trans (if_pos hup))

theorem execRetrain_up {fn : Fn} (ho : s.owner fn = true) (hk : k.val < 2 ∨ s.fuses.i2 = true) : execRetrain fn k s = .next (s.enterRetrain k) := by
  refine congrArg Host.Outcome.next (if_pos ?_)
  have hfit : s.portFitted k = true := by simpa [State.portFitted] using hk
  rw [ho, hfit, hup, hrun]
  rfl

theorem execReplayTimeout_none (h : s.dlk.port[k].retry = []) : execReplayTimeout k s = .next s :=
  congrArg Host.Outcome.next ((if_pos ⟨hup, hrun⟩).trans (if_pos h))

theorem execReplayTimeout_again (h : s.dlk.port[k].retry ≠ []) : execReplayTimeout k s =
    .next ((s.modPort k fun p => { p with retryCnt := satAdd p.retryCnt 1, winRetry := p.winRetry + 1 }).each s.dlk.port[k].retry
      fun s f => s.emit k (if f.ctrl then 2 else 1) f) := by
  refine congrArg Host.Outcome.next ((if_pos ⟨hup, hrun⟩).trans ((if_neg h).trans ?_))
  rw [State.replayAll, modPort_same]

end Live

/-! ## The thresholds -/

/-- A threshold is not reached: it is 0, or its count in the window is below it (16 R379). -/
def Port.below (p : Port) : ErrTh → Prop
  | .corr => p.corrThr = 0 ∨ p.winCorr < p.corrThr.toNat
  | .uncorr => p.uncorrThr = 0 ∨ p.winUncorr < p.uncorrThr.toNat
  | .retry => p.retryThr = 0 ∨ p.winRetry < p.retryThr.toNat

/-- The record and the flag of a threshold that is reached. -/
def State.thresholdNoted (s : State) (k : Fin 4) : ErrTh → State
  | .corr => (s.noteLink k 0 1).modPort k fun p => { p with corrTh := true }
  | .uncorr => (s.noteLink k 1 2).modPort k fun p => { p with uncorrTh := true }
  | .retry => (s.noteLink k 1 2).modPort k fun p => { p with retryTh := true }

/-- A threshold retrains its port: one of corrections with CORR_RETRAIN alone, and none within 1 s of FLAP (16 R382). -/
def State.thresholdRetrain (u : State) (k : Fin 4) : ErrTh → State
  | .corr => if u.dlk.corrRetrain && !u.flapping k then u.enterRetrain k else u
  | .uncorr | .retry => if u.flapping k then u else u.enterRetrain k

theorem not_below {n m : Nat} {thr : BitVec n} (h0 : thr ≠ 0) (h : thr.toNat ≤ m) : ¬(thr = 0 ∨ m < thr.toNat) :=
  not_or.mpr ⟨h0, Nat.not_lt.mpr h⟩

section Threshold

variable (hup : s.dlk.port[k].st = .up) (hrun : s.running = true) {th : ErrTh}
include hup hrun

theorem execDlkErrThreshold_below (h : s.dlk.port[k].below th) : execDlkErrThreshold k th s = .next s := by
  refine congrArg Host.Outcome.next ((if_neg (port_live hup hrun)).trans ?_)
  cases th <;> exact if_pos h

theorem execDlkErrThreshold_reached (h : ¬s.dlk.port[k].below th) : execDlkErrThreshold k th s =
    .next ((s.thresholdNoted k th).thresholdRetrain k th) := by
  refine congrArg Host.Outcome.next ((if_neg (port_live hup hrun)).trans ?_)
  cases th <;> exact if_neg h

end Threshold

/-! ## A DOWN port -/

theorem execAutoTrainingTimer_down (hrun : s.running = true) (hst : s.dlk.port[k].st = .down) (ha : s.dlk.port[k].auto = true)
    (hd : s.dlk.sw[pairOf k].drive = true) :
    execAutoTrainingTimer k s = .next (s.modPort k fun p => { p with st := .train, eqStored := false }) :=
  congrArg Host.Outcome.next (if_pos ⟨hrun, hst, ha, hd⟩)

theorem execTrainingPatternDetected_down (hrun : s.running = true) (hst : s.dlk.port[k].st = .down) (ha : s.dlk.port[k].auto = true)
    (hd : s.dlk.sw[pairOf k].drive = true) :
    execTrainingPatternDetected k s = .next (s.modPort k fun p => { p with st := .train, eqStored := false }) :=
  congrArg Host.Outcome.next ((if_neg (by rw [hrun]; decide)).trans ((if_neg (by rw [hst]; decide)).trans (if_pos ⟨hst, ha, hd⟩)))

section Untrained

variable (h : s.running = false ∨ s.dlk.port[k].st ≠ .down ∨ s.dlk.port[k].auto = false ∨ s.dlk.sw[pairOf k].drive = false)
include h

theorem port_not_trainable :
    ¬(s.running = true ∧ s.dlk.port[k].st = .down ∧ s.dlk.port[k].auto = true ∧ s.dlk.sw[pairOf k].drive = true) := by
  rintro ⟨hrun, hst, ha, hd⟩
  obtain h | h | h | h := h
  · exact Bool.false_ne_true (h.symm.trans hrun)
  · exact h hst
  · exact Bool.false_ne_true (h.symm.trans ha)
  · exact Bool.false_ne_true (h.symm.trans hd)

theorem execAutoTrainingTimer_stays : execAutoTrainingTimer k s = .next s := congrArg Host.Outcome.next (if_neg (port_not_trainable h))

theorem execTrainingPatternDetected_stays (hup : s.running = false ∨ s.dlk.port[k].st ≠ .up) : execTrainingPatternDetected k s = .next s := by
  refine congrArg Host.Outcome.next ?_
  cases hrun : s.running with
  | false => exact if_pos (by decide)
  | true =>
    have hst : s.dlk.port[k].st ≠ .up := hup.resolve_left (by rw [hrun]; decide)
    exact (if_neg (by decide)).trans ((if_neg hst).trans (if_neg fun hgo => port_not_trainable h ⟨hrun, hgo⟩))

end Untrained

/-! ## The ends of a retrain attempt and of a training -/

theorem execRetrainAttemptDone_idle (h : s.dlk.port[k].st ≠ .retrain ∨ s.running = false) (r : TrainRes) : execRetrainAttemptDone k r s = .next s :=
  congrArg Host.Outcome.next (if_pos (h.imp_right fun hrun => by rw [hrun]; rfl))

section Attempt

variable (hst : s.dlk.port[k].st = .retrain) (hrun : s.running = true)
include hst hrun

theorem port_retraining : ¬(s.dlk.port[k].st ≠ .retrain ∨ (!s.running) = true) := by
  rw [hst, hrun]
  decide

theorem execRetrainAttemptDone_exchange (peer : BitVec 17) (pos size : Nat) (loss : Byte) :
    execRetrainAttemptDone k (.exchange peer pos size loss) s = .next (s.exchange k peer pos size loss true) :=
  congrArg Host.Outcome.next (if_neg (port_retraining hst hrun))

theorem execRetrainAttemptDone_next (h : s.dlk.port[k].attempt.toNat < 3) :
    execRetrainAttemptDone k .fail s = .next (s.modPort k fun p => { p with attempt := p.attempt + 1, eqStored := false }) :=
  congrArg Host.Outcome.next ((if_neg (port_retraining hst hrun)).trans (if_pos h))

theorem execRetrainAttemptDone_last (h : 3 ≤ s.dlk.port[k].attempt.toNat) : execRetrainAttemptDone k .fail s = .next (s.declareDown k 3) :=
  congrArg Host.Outcome.next ((if_neg (port_retraining hst hrun)).trans (if_neg (Nat.not_lt.mpr h)))

end Attempt

theorem execFullTrainingDone_off (h : s.pwr.rails = false ∨ s.err.firstS4 ≠ none) (r : TrainRes) : execFullTrainingDone k r s = .next s := by
  refine congrArg Host.Outcome.next (if_pos ?_)
  obtain h | h := h
  · rw [h]
    rfl
  · rw [Option.isSome_iff_ne_none.mpr h, Bool.or_true]

section Training

variable (hon : s.pwr.rails = true) (h4 : s.err.firstS4 = none)
include hon h4

theorem training_possible : ¬(!s.pwr.rails || s.err.firstS4.isSome) = true := by
  rw [hon, h4]
  decide

theorem execFullTrainingDone_loopback (hst : s.dlk.port[k].st = .loopback) :
    execFullTrainingDone k .fail s = .next (s.modPort k fun p => { p with loopOk := false }) ∧
    ∀ peer pos size loss, execFullTrainingDone k (.exchange peer pos size loss) s =
      .next (((s.nameSelf k).modPort k fun p => { p with loopOk := true, loss := loss }).tryJoin (pairOf k)) := by
  simp only [execFullTrainingDone, if_neg (training_possible hon h4), hst, implies_true, and_self]

theorem execFullTrainingDone_train (hst : s.dlk.port[k].st = .train) :
    execFullTrainingDone k .fail s = .next (s.modPort k fun p => { p with st := .down }) ∧
    ∀ peer pos size loss, execFullTrainingDone k (.exchange peer pos size loss) s =
      .next (s.exchange k peer pos size loss s.dlk.sw[pairOf k].joining) := by
  simp only [execFullTrainingDone, if_neg (training_possible hon h4), hst, implies_true, and_self]

theorem execFullTrainingDone_other (hl : s.dlk.port[k].st ≠ .loopback) (ht : s.dlk.port[k].st ≠ .train) (r : TrainRes) :
    execFullTrainingDone k r s = .next s := by
  refine congrArg Host.Outcome.next ((if_neg (training_possible hon h4)).trans ?_)
  cases hst : s.dlk.port[k].st with
  | loopback => exact absurd hst hl
  | train => exact absurd hst ht
  | down | up | retrain => cases r <;> rfl

end Training

/-! ## The span check -/

section Span

variable {peer : BitVec 17} {pos size : Nat} {loss : Byte} {count : Bool}

theorem exchange_near (h : s.spanOf k peer pos ≤ 2) : s.exchange k peer pos size loss count =
    (s.nameSelf k).comeUp k peer pos size (s.spanOf k peer pos) loss :=
  if_neg (Nat.not_lt.mpr h)

theorem exchange_far (h : 2 < s.spanOf k peer pos) :
    let far := (s.nameSelf k).modPort k fun p =>
      { p with peer := peer, peerValid := true, peerPos := pos, peerSize := size, span := BitVec.ofNat 8 (s.spanOf k peer pos), loss := loss
               spanFail := true }
    s.exchange k peer pos size loss count = if count then far.declareDown k 5 else far.modPort k fun p => { p with st := .down } :=
  if_pos h

end Span

end Ports

end Sys2Proof.Machine
end

section
/-! PROOFS. Received flits (16 R367-R370; 17 R390, R391, R413). -/

namespace Sys2Proof.Machine

/-! ## A field as a number and as a bit vector -/

theorem fld_eq_toNat {n : Nat} (x : BitVec n) (lo w : Nat) : fld x lo w = (x.extractLsb' lo w).toNat := by
  rw [← ofNat_fld, BitVec.toNat_ofNat, fld, bits, Nat.mod_mod]

theorem fld_eq_toNat_iff {n w : Nat} (x : BitVec n) (lo : Nat) (v : BitVec w) : fld x lo w = v.toNat ↔ x.extractLsb' lo w = v := by
  rw [fld_eq_toNat, BitVec.toNat_inj]

section Flit

variable {s : State} {k : Fin 4} {w : BitVec 2048} {shared first : Option (Fin 545)}

/-! ## Damage and order -/

/-- A codeword with more than 15 symbol errors (16 R367). -/
def cwBad (c : Option (Fin 545)) : Prop := ∃ n, c = some n ∧ 15 < n.val

theorem cwOk_eq_false_iff (c : Option (Fin 545)) : cwOk c = false ↔ cwBad c := by
  cases c with
  | none => simp [cwOk, cwBad]
  | some n => simp [cwOk, cwBad]

/-- A flit that its codewords or its CRC show damaged. -/
def flitDamaged (w : BitVec 2048) (shared first : Option (Fin 545)) : Prop :=
  cwBad shared ∨ cwBad first ∨ crc32 (leBytes 252 w.toNat) ≠ (w.extractLsb' 2016 32).toNat

/-- The model's test for damage. -/
def damageSeen (w : BitVec 2048) (shared first : Option (Fin 545)) : Bool :=
  !cwOk shared || !cwOk first || crc32 (leBytes 252 w.toNat) != fld w 2016 32

theorem damageSeen_iff : damageSeen w shared first = true ↔ flitDamaged w shared first := by
  simp only [damageSeen, flitDamaged, Bool.or_eq_true, Bool.not_eq_true', cwOk_eq_false_iff, bne_iff_ne, fld_eq_toNat, or_assoc]

/-- A flit that a port takes: undamaged, with no reserved field, an IDLE flit or the next in order (16 R368, R369). -/
def flitGood (p : Port) (w : BitVec 2048) (shared first : Option (Fin 545)) : Prop :=
  ¬flitDamaged w shared first ∧ w.extractLsb' 17 2 ≠ 3 ∧ w.extractLsb' 29 3 = 0 ∧
    (w.extractLsb' 17 2 = 0 ∨ w.extractLsb' 0 8 = p.rxSeq + 1)

/-- The model's test for a flit that is not taken. -/
theorem refused_iff (p : Port) : (damageSeen w shared first = true ∨ fld w 17 2 = 3 ∨ fld w 29 3 ≠ 0 ∨
    (!(fld w 17 2 == 0 || BitVec.ofNat 8 (fld w 0 8) == p.rxSeq + 1)) = true) ↔ ¬flitGood p w shared first := by
  have hkind : fld w 17 2 = 3 ↔ w.extractLsb' 17 2 = 3 := fld_eq_toNat_iff w 17 3
  rw [damageSeen_iff, hkind, Bool.not_eq_true', ← Bool.not_eq_true, Bool.or_eq_true, beq_iff_eq, beq_iff_eq, ne_eq, fld_eq_zero_iff,
    fld_eq_zero_iff, ofNat_fld]
  simp only [flitGood, not_and_or, not_not]

/-! ## What every received flit does -/

/-- The corrections of the codeword that a flit begins are counted (16 R367; log 83). -/
def State.corrected (s : State) (k : Fin 4) (first : Option (Fin 545)) : State :=
  s.modPort k fun p => { p with corrCnt := satAdd p.corrCnt (cwFixed first), winCorr := p.winCorr + cwFixed first }

/-- What follows a received flit: the ports send, a leave that is complete ends, and the ledger is checked. -/
def State.flitEnd (s : State) : State := ((s.pumpPorts.tryLeaves).audit0).pumpAll

theorem corrected_rxSeq (s : State) (k : Fin 4) (first : Option (Fin 545)) : (s.corrected k first).dlk.port[k].rxSeq = s.dlk.port[k].rxSeq := by
  rw [State.corrected, modPort_same]

theorem flitGood_corrected : flitGood (s.corrected k first).dlk.port[k] w shared first ↔ flitGood s.dlk.port[k] w shared first := by
  rw [flitGood, flitGood, corrected_rxSeq]

/-- The ACK, the credits and the sequence of a flit that is taken, on its port (16 R369, R370; 17 R391). -/
def Port.flitTaken (p : Port) (w : BitVec 2048) (v : Fin 4) : Port :=
  let left := ackRetry (w.extractLsb' 8 8) p.retry
  { p with
    retry := left
    granted := vplus p.granted (Vector.zipWith (· - ·) p.inFlits { p with retry := left }.inFlits)
    credit := giveCredit p.credit v (w.extractLsb' 23 6).toNat
    unacked := p.unacked + 1
    nakSent := if w.extractLsb' 17 2 = 0 then p.nakSent else false
    nakDue := if w.extractLsb' 17 2 = 0 then p.nakDue else false
    rxSeq := if w.extractLsb' 17 2 = 0 then p.rxSeq else w.extractLsb' 0 8 }

theorem accept_acked (p : Port) (w : BitVec 2048) (v : Fin 4) :
    (p.acked (w.extractLsb' 8 8) v (fld w 23 6)).accept (fld w 17 2) (w.extractLsb' 0 8) = p.flitTaken w v := by
  rw [fld_eq_toNat w 23 6, Port.accept, Port.flitTaken]
  by_cases h : w.extractLsb' 17 2 = 0
  · rw [if_pos ((fld_eq_zero_iff w 17 2).mpr h), if_pos h, if_pos h, if_pos h]
    rfl
  · rw [if_neg (mt (fld_eq_zero_iff w 17 2).mp h), if_neg h, if_neg h, if_neg h]
    rfl

/-- A port takes a flit: a NAK replays, and a DATA flit goes on with its header and its payload. -/
def State.flitTaken (s : State) (k : Fin 4) (w : BitVec 2048) (v vc : Fin 4) : State :=
  let x := s.modPort k fun p => p.flitTaken w v
  let y := if w.getLsbD 16 then x.replay k else x
  if w.extractLsb' 17 2 = 1 then y.takeData k vc (w.extractLsb' 32 96) (w.extractLsb' 128 1888) else y

/-! ## FLIT_RECEIVED -/

theorem execFlitReceived_idle (h : s.dlk.port[k].st ≠ .up ∨ s.running = false) (e : Bool) : execFlitReceived k w shared first s e = .next s :=
  congrArg Host.Outcome.next (if_pos (h.imp_right fun hrun => by rw [hrun]; rfl))

section Received

variable (hup : s.dlk.port[k].st = .up) (hrun : s.running = true)
include hup hrun

theorem execFlitReceived_bufErr : execFlitReceived k w shared first s true = .next (s.report (recOf 4 0x0A 5 (unitPort k)) none 0) :=
  congrArg Host.Outcome.next ((if_neg (port_live hup hrun)).trans (if_pos rfl))

theorem execFlitReceived_discarded (h : ¬flitGood s.dlk.port[k] w shared first) : execFlitReceived k w shared first s false =
    .next ((s.corrected k first).modPort k fun p => p.discard (damageSeen w shared first)).flitEnd :=
  congrArg Host.Outcome.next ((if_neg (port_live hup hrun)).trans ((if_neg Bool.false_ne_true).trans
    (congrArg State.flitEnd (if_pos ((refused_iff _).mpr (mt flitGood_corrected.mp h))))))

theorem execFlitReceived_damaged (h : flitDamaged w shared first) : execFlitReceived k w shared first s false =
    .next ((s.corrected k first).modPort k fun p => p.discard true).flitEnd := by
  rw [execFlitReceived_discarded hup hrun fun hgood => hgood.1 h, damageSeen_iff.mpr h]

theorem execFlitReceived_refused (hd : ¬flitDamaged w shared first) (h : ¬flitGood s.dlk.port[k] w shared first) :
    execFlitReceived k w shared first s false = .next ((s.corrected k first).modPort k fun p => p.discard false).flitEnd := by
  rw [execFlitReceived_discarded hup hrun h, Bool.eq_false_iff.mpr (mt damageSeen_iff.mp hd)]

theorem execFlitReceived_good (h : flitGood s.dlk.port[k] w shared first) {v vc : Fin 4} (hv : v.val = (w.extractLsb' 21 2).toNat)
    (hvc : vc.val = (w.extractLsb' 19 2).toNat) :
    execFlitReceived k w shared first s false = .next ((s.corrected k first).flitTaken k w v vc).flitEnd := by
  have hdata : fld w 17 2 = 1 ↔ w.extractLsb' 17 2 = 1 := fld_eq_toNat_iff w 17 1
  have hvf : (⟨fld w 21 2, Nat.mod_lt _ (by decide)⟩ : Fin 4) = v := Fin.ext ((fld_eq_toNat ..).trans hv.symm)
  have hvcf : (⟨fld w 19 2, Nat.mod_lt _ (by decide)⟩ : Fin 4) = vc := Fin.ext ((fld_eq_toNat ..).trans hvc.symm)
  refine congrArg Host.Outcome.next ((if_neg (port_live hup hrun)).trans ((if_neg Bool.false_ne_true).trans (congrArg State.flitEnd
    ((if_neg fun hbad => (refused_iff _).mp hbad (flitGood_corrected.mpr h)).trans ?_))))
  simp only [hdata, hvf, hvcf, ofNat_fld, accept_acked, State.flitTaken]
  rfl

end Received

end Flit

/-- Settles O43: each event of a port by its rule above, and a received flit by its damage, its order and its kind. -/
theorem drawlinkPorts : Obligations.DrawlinkPorts := by
  unfold Obligations.DrawlinkPorts
  refine ⟨fun s k => ⟨fun h => ⟨execDlkErrThreshold_idle h, execSignalLoss_idle h, execReplayTimeout_idle h, execRetrain_idle h⟩, fun hup hrun => ?up,
      fun fn => execRetrain_denied, rfl,
      fun hrun hst ha hd => ⟨execAutoTrainingTimer_down hrun hst ha hd, execTrainingPatternDetected_down hrun hst ha hd⟩,
      fun h => ⟨execAutoTrainingTimer_stays h, execTrainingPatternDetected_stays h⟩,
      fun hst hrun => ⟨execRetrainAttemptDone_exchange hst hrun, execRetrainAttemptDone_next hst hrun, execRetrainAttemptDone_last hst hrun⟩,
      execRetrainAttemptDone_idle, execFullTrainingDone_off,
      fun hon h4 => ⟨execFullTrainingDone_loopback hon h4, execFullTrainingDone_train hon h4, execFullTrainingDone_other hon h4⟩,
      rfl, fun peer pos size loss count => ⟨exchange_near, exchange_far⟩⟩,
    fun s k w shared first e => ⟨fun h => execFlitReceived_idle h e, fun hup hrun => ⟨execFlitReceived_bufErr hup hrun,
      execFlitReceived_damaged hup hrun, execFlitReceived_refused hup hrun,
      fun hgood v vc hv hvc => execFlitReceived_good hup hrun hgood hv hvc⟩⟩⟩
  case up =>
    have hbelow (th : ErrTh) := execDlkErrThreshold_below hup hrun (th := th)
    have hreached (th : ErrTh) := execDlkErrThreshold_reached hup hrun (th := th)
    exact ⟨hbelow .corr, fun h0 h => hreached .corr (not_below h0 h), hbelow .uncorr, fun h0 h => hreached .uncorr (not_below h0 h),
      hbelow .retry, fun h0 h => hreached .retry (not_below h0 h), execReplayTimeout_none hup hrun, execReplayTimeout_again hup hrun,
      execSignalLoss_up hup hrun, execTrainingPatternDetected_up hup hrun, fun fn => execRetrain_up hup hrun⟩

end Sys2Proof.Machine
end

section
/-! PROOFS. A sender's transfer: GRANT, XACK, REFUSE, the repeated REQ and the timeouts (17 R399, R402, R404, R412). -/

namespace Sys2Proof.Machine

/-! ## Finding a transfer -/

/-- What a search finds, a search that asks for more as well finds where the element has it. -/
theorem find?_and {α : Type} {p q : α → Bool} {l : List α} {a : α} (h : l.find? p = some a) (hq : q a = true) :
    l.find? (fun x => p x && q x) = some a := by
  obtain ⟨hp, before, after, rfl, hnot⟩ := List.find?_eq_some_iff_append.mp h
  refine List.find?_eq_some_iff_append.mpr ⟨by rw [hp, hq]; rfl, before, after, rfl, fun x hx => ?_⟩
  rw [Bool.not_and, hnot x hx, Bool.true_or]

theorem xid_of_tx? {s : State} {xid : W16} {t : TxX} (h : s.tx? xid = some t) : t.xid = xid := by simpa using List.find?_some h

/-- A change that keeps a transfer's number is seen by looking that transfer up. -/
theorem tx?_modTx {f : TxX → TxX} (hf : ∀ t, (f t).xid = t.xid) (s : State) (xid : W16) : (s.modTx xid f).tx? xid = (s.tx? xid).map f := by
  have hxid : ∀ t : TxX, (if t.xid = xid then f t else t).xid = t.xid := fun t => by
    split
    · exact hf t
    · rfl
  show (List.map _ s.ringl.tx).find? _ = _
  simp only [List.find?_map, Function.comp_def, hxid]
  cases h : s.tx? xid with
  | none => exact congrArg (Option.map _) h
  | some t => exact (congrArg (Option.map _) h).trans (congrArg some (if_pos (xid_of_tx? h)))

theorem next_offRing {s : State} (h : s.onRing = false) {t : State} : (Host.Outcome.next (if s.onRing then t else s) : Out) = .next s :=
  congrArg Host.Outcome.next (if_neg (Bool.eq_false_iff.mp h))

section Sender

variable {s : State} {h : MsgHdr} {t : TxX}

/-! ## Off the ring -/

theorem execReqRetry_off (hoff : s.onRing = false) (xid : W16) : execReqRetry xid s = .next s := by
  unfold execReqRetry
  split
  · rw [hoff]
    rfl
  · rfl

theorem execGrantIssue_off (hoff : s.onRing = false) (src : BitVec 17) (xid : W16) : execGrantIssue src xid s = .next s := by
  unfold execGrantIssue
  rw [hoff]
  split
  · rfl
  · split
    · rfl
    · exact congrArg Host.Outcome.next (if_pos (Bool.or_true _))

/-! ## With no such transfer -/

section Unknown

variable (hon : s.onRing = true) (hnone : s.tx? h.xid = none)
include hon hnone

theorem execGrant_unknown (first : W32) (n : W16) : execGrant h first n s = .next s := by
  rw [execGrant, if_pos hon, State.grantMsg, hnone]

theorem execXack_unknown (first : W32) (n : W16) : execXack h first n s = .next s.pumpAll := by
  rw [execXack, if_pos hon, State.xackMsg, hnone]

end Unknown

theorem execReqRetry_unknown {xid : W16} (hnone : s.tx? xid = none) : execReqRetry xid s = .next s := by
  rw [execReqRetry, hnone]

section Known

variable (hon : s.onRing = true) (ht : s.tx? h.xid = some t)
include hon ht

theorem execGrant_stray (hd : t.dst ≠ h.src) (first : W32) (n : W16) : execGrant h first n s = .next s := by
  simp only [execGrant, if_pos hon, State.grantMsg, ht, if_neg hd]

theorem execXack_stray (hd : t.dst ≠ h.src) (first : W32) (n : W16) : execXack h first n s = .next s.pumpAll := by
  simp only [execXack, if_pos hon, State.xackMsg, ht, if_pos hd]

/-! ## GRANT and XACK -/

theorem execGrant_own (hd : t.dst = h.src) (first : W32) (n : W16) : execGrant h first n s = .next ((s.modTx h.xid fun t =>
    { t with grants := t.grants ++ [(first.toNat, n.toNat)], answered := true, busy := false, progress := s.clk.gt }).pumpTx h.xid) := by
  simp only [execGrant, if_pos hon, State.grantMsg, ht, if_pos hd]

end Known

/-- The entries of a transfer that an XACK of a range retires for the first time (17 R399). -/
def TxX.newAcks (t : TxX) (first n : Nat) : List Nat :=
  ((List.range n).map (first + ·)).filter fun k => k < xEntries t.len && !t.acked.contains k

/-- A transfer has further entries retired. -/
def State.retired (s : State) (xid : W16) (new : List Nat) : State :=
  s.modTx xid fun t => { t with acked := t.acked ++ new, answered := true, progress := s.clk.gt }

/-- The running result of an inner rank goes with the entries that are retired (17 R403). -/
def State.drainRetired (s : State) (t : TxX) (new : List Nat) : State :=
  match s.op? t.op with
  | some o =>
    if o.mn = .rreduce ∧ !t.pass2 ∧ peerRank o.sp ≠ 0 then
      (match s.passRx o.id false with
       | some r => (s.each (new.filter r.comb.contains) fun s k => s.drain r k).tryRxDone r.src r.xid
       | none => s)
    else s
  | none => s

/-- A transfer whose every entry is retired is complete (17 R399). -/
def State.tryTxDone (s : State) (xid : W16) : State :=
  match s.tx? xid with
  | some t => if t.acked.length = xEntries t.len then ((s.dropTx xid).bump t.ptn .ringXfer 1).tryRingDone t.op else s
  | none => s

theorem xackMsg_eq {src : BitVec 17} {xid : W16} (ht : s.tx? xid = some t) (hd : t.dst = src) (first n : Nat) :
    s.xackMsg src xid first n = ((s.retired xid (t.newAcks first n)).drainRetired t (t.newAcks first n)).tryTxDone xid := by
  rw [State.xackMsg, ht]
  exact if_neg (not_not.mpr hd)

theorem drainRetired_plain (hop : ∀ o, s.op? t.op = some o → o.mn ≠ .rreduce ∨ t.pass2 = true ∨ peerRank o.sp = 0) (new : List Nat) :
    s.drainRetired t new = s := by
  unfold State.drainRetired
  split
  next o ho =>
    refine if_neg ?_
    rintro ⟨hred, hpass, hrank⟩
    obtain h | h | h := hop o ho
    · exact h hred
    · simp [h] at hpass
    · exact hrank h
  · rfl

theorem retired_tx? {xid : W16} (ht : s.tx? xid = some t) (new : List Nat) :
    (s.retired xid new).tx? xid = some { t with acked := t.acked ++ new, answered := true, progress := s.clk.gt } :=
  (tx?_modTx (by exact fun _ => rfl) s xid).trans (congrArg (Option.map _) ht)

theorem tryTxDone_retired {xid : W16} (ht : s.tx? xid = some t) (new : List Nat) :
    (s.retired xid new).tryTxDone xid = if (t.acked ++ new).length = xEntries t.len then
      (((s.retired xid new).dropTx xid).bump t.ptn .ringXfer 1).tryRingDone t.op else s.retired xid new := by
  rw [State.tryTxDone, retired_tx? ht]

theorem execXack_own (hon : s.onRing = true) (ht : s.tx? h.xid = some t) (hd : t.dst = h.src)
    (hop : ∀ o, s.op? t.op = some o → o.mn ≠ .rreduce ∨ t.pass2 = true ∨ peerRank o.sp = 0) (first : W32) (n : W16) :
    let u := s.retired h.xid (t.newAcks first.toNat n.toNat)
    execXack h first n s = .next (if (t.acked ++ t.newAcks first.toNat n.toNat).length = xEntries t.len then
      ((u.dropTx h.xid).bump t.ptn .ringXfer 1).tryRingDone t.op else u).pumpAll := by
  rw [execXack, if_pos hon, xackMsg_eq ht hd, drainRetired_plain (by exact hop), tryTxDone_retired ht]

/-! ## REFUSE (17 R402, R404) -/

theorem xferRefused_own {src : BitVec 17} {dptn : Fin 16} {xid : W16} (ht : s.tx? xid = some t) (hd : t.dst = src) (hp : t.ptn = dptn)
    (reason : Nat) : s.xferRefused src dptn xid reason =
      if reason = 9 then s.modTx xid fun t => { t with busy := true, answered := true } else s.failTx t reason false := by
  have hfound : (s.ringl.tx.find? fun t => t.xid == xid && t.dst == src && t.ptn == dptn) = some t :=
    find?_and (find?_and ht (beq_iff_eq.mpr hd)) (beq_iff_eq.mpr hp)
  rw [State.xferRefused, hfound]

theorem tallyRefused_none {src : BitVec 17} {xid : W16} (h : ∀ y ∈ s.ringl.tallyOut, ¬(y.xid = xid ∧ y.dst = src)) :
    s.tallyRefused src xid = none := by
  rw [State.tallyRefused, List.find?_eq_none.mpr fun y hy => by simpa using h y hy]
  rfl

theorem execRefuse_xfer (hon : s.onRing = true) {r : Byte} (h8 : r = 8 → ∀ y ∈ s.ringl.tallyOut, ¬(y.xid = h.xid ∧ y.dst = h.src)) :
    execRefuse h r s = .next (s.xferRefused h.src h.dptn h.xid r.toNat) := by
  have hnone : (if r.toNat = 8 then s.tallyRefused h.src h.xid else none) = none := by
    split
    next hr => exact tallyRefused_none (h8 (BitVec.eq_of_toNat_eq hr))
    · rfl
  rw [execRefuse, if_pos hon, State.refuseMsg, hnone]

theorem execRefuse_busy (hon : s.onRing = true) (ht : s.tx? h.xid = some t) (hd : t.dst = h.src) (hp : t.ptn = h.dptn) :
    execRefuse h 9 s = .next (s.modTx h.xid fun t => { t with busy := true, answered := true }) := by
  rw [execRefuse_xfer hon fun h8 => absurd h8 (by decide), xferRefused_own ht hd hp]
  rfl

theorem execRefuse_failed (hon : s.onRing = true) (ht : s.tx? h.xid = some t) (hd : t.dst = h.src) (hp : t.ptn = h.dptn) {r : Byte} (hr : r ≠ 9)
    (h8 : r = 8 → ∀ y ∈ s.ringl.tallyOut, ¬(y.xid = h.xid ∧ y.dst = h.src)) : execRefuse h r s = .next (s.failTx t r.toNat false) := by
  have hn : r.toNat ≠ 9 := fun hn => hr (BitVec.eq_of_toNat_eq hn)
  rw [execRefuse_xfer hon h8, xferRefused_own ht hd hp, if_neg hn]

/-- A remote TALLY is no longer out. -/
def State.tallyIn (s : State) (xid : W16) : State :=
  { s with ringl := { s.ringl with tallyOut := s.ringl.tallyOut.filter fun x => x.xid != xid } }

/-- The issuer of a remote TALLY that was refused stops, if its job still runs. -/
def State.stopIssuer (s : State) (y : TallyOut) : State :=
  match s.liveJob y.job with
  | some j => s.except j.id j.ptn y.c.val y.c y.pc y.w1 0 exTally
  | none => s

section Tally

variable {y : TallyOut} (hon : s.onRing = true) (hy : (s.ringl.tallyOut.find? fun t => t.xid == h.xid && t.dst == h.src) = some y)
include hon hy

theorem execRefuse_tally : execRefuse h 8 s = .next ((s.tallyIn h.xid).stopIssuer y) := by
  have hrefused : s.tallyRefused h.src h.xid = some ((s.tallyIn h.xid).stopIssuer y) := congrArg (Option.map _) hy
  have hout : (if (8 : Byte).toNat = 8 then s.tallyRefused h.src h.xid else none) = _ := (if_pos rfl).trans hrefused
  rw [execRefuse, if_pos hon, State.refuseMsg, hout]

theorem execRefuse_tally_ended (hj : s.liveJob y.job = none) : execRefuse h 8 s = .next (s.tallyIn h.xid) := by
  have hj' : (s.tallyIn h.xid).liveJob y.job = none := hj
  rw [execRefuse_tally hon hy, State.stopIssuer, hj']

theorem execRefuse_tally_live {j : Job} (hj : s.liveJob y.job = some j) :
    execRefuse h 8 s = .next ((s.tallyIn h.xid).except j.id j.ptn y.c.val y.c y.pc y.w1 0 exTally) := by
  have hj' : (s.tallyIn h.xid).liveJob y.job = some j := hj
  rw [execRefuse_tally hon hy, State.stopIssuer, hj']

end Tally

/-! ## The repeated REQ -/

theorem execReqRetry_known (hon : s.onRing = true) {xid : W16} (ht : s.tx? xid = some t) : execReqRetry xid s =
    .next (if t.busy then (s.modTx xid fun t => { t with busy := false, answered := false }).sendReq t else s) := by
  rw [execReqRetry, ht]
  simp only [hon, Bool.true_and]

/-! ## The failure of a transfer and its timeout (17 R402) -/

theorem failTx_op {o : Op} (ho : s.op? t.op = some o) (reason : Nat) :
    s.failTx t reason false = ((s.dropTx t.xid).bump t.ptn .ringLost 1).opFail o (.xfer reason t.xid.toNat t.dst.toNat true) := by
  have ho' : ((s.dropTx t.xid).bump t.ptn .ringLost 1).op? t.op = some o := ho
  simp only [State.failTx, Bool.false_eq_true, if_false, ho']

section Timeout

variable {xid : W16} {dev : BitVec 17}

theorem execXferTimeout_stopped (hrun : s.running = false) (b : Bool) : execXferTimeout xid b dev s = .next s :=
  congrArg Host.Outcome.next (if_pos (by rw [hrun]; rfl))

variable (hrun : s.running = true)
include hrun

theorem execXferTimeout_tx (ht : s.tx? xid = some t) (hd : t.dst = dev) : execXferTimeout xid true dev s =
    .next (if t.progress.toNat + s.xferTo * 1000000 ≤ s.clk.gt.toNat then s.failTx t (if s.reachable dev.toNat then 5 else 6) true else s) := by
  simp only [execXferTimeout, hrun, Bool.not_true, Bool.false_eq_true, if_false, if_true, ht, hd, true_and, decide_eq_true_eq]

theorem execXferTimeout_rx {r : RxX} (hr : s.rx? dev xid = some r) : execXferTimeout xid false dev s =
    .next (if r.done = false ∧ r.progress.toNat + s.xferTo * 1000000 ≤ s.clk.gt.toNat then
      s.failRx r (if s.reachable dev.toNat then 5 else 6) true else s) := by
  simp only [execXferTimeout, hrun, Bool.not_true, Bool.false_eq_true, if_false, hr, Bool.not_eq_true', decide_eq_true_eq]

end Timeout

end Sender

/-- Settles O45: each message of the sender's side by the transfer it finds, and a timeout by the progress of its transfer. -/
theorem ringSender : Obligations.RingSender := by
  unfold Obligations.RingSender
  refine ⟨fun s h a v n r len tag vc rop fmt rank off pay t b hoff => ?off, fun s h first n hon => ⟨fun hnone => ?unknown, fun t ht => ?known,
      fun y hy => ⟨execRefuse_tally_ended hon hy, fun j hj => execRefuse_tally_live hon hy hj⟩⟩,
    fun s xid dev => ⟨execXferTimeout_stopped, fun hrun => ⟨fun t ht hd => ?sending, fun r hr => ?receiving⟩⟩,
    fun s t reason o ho => failTx_op ho reason⟩
  case off =>
    simp only [List.mem_cons, List.not_mem_nil, or_false, forall_eq_or_imp, forall_eq]
    have hmsg (t : State) := next_offRing hoff (t := t)
    exact ⟨hmsg _, hmsg _, hmsg _, hmsg _, hmsg _, hmsg _, execReqRetry_off hoff _, execGrantIssue_off hoff _ _⟩
  case unknown => exact ⟨execGrant_unknown hon hnone .., execXack_unknown hon hnone .., execReqRetry_unknown hnone⟩
  case known =>
    refine ⟨fun hd => ⟨execGrant_stray hon ht hd .., execXack_stray hon ht hd ..⟩,
      fun hd => ⟨execGrant_own hon ht hd .., fun hop => execXack_own hon ht hd hop ..⟩,
      fun hd hp => ⟨execRefuse_busy hon ht hd hp, fun r hr h8 => execRefuse_failed hon ht hd hp hr h8⟩,
      fun hb => (execReqRetry_known hon ht).trans ?_, fun hb => (execReqRetry_known hon ht).trans ?_⟩
    · rw [if_pos hb]
    · rw [if_neg (Bool.eq_false_iff.mp hb)]
  case sending =>
    refine ⟨fun hlate => (execXferTimeout_tx hrun ht hd).trans ?_, fun hearly => (execXferTimeout_tx hrun ht hd).trans ?_⟩
    · rw [if_pos hlate]
    · rw [if_neg (Nat.not_le.mpr hearly)]
  case receiving =>
    refine ⟨fun hopen hlate => (execXferTimeout_rx hrun hr).trans ?_, fun h => (execXferTimeout_rx hrun hr).trans ?_⟩
    · rw [if_pos ⟨hopen, hlate⟩]
    · rw [if_neg]
      rintro ⟨hopen, hlate⟩
      obtain hdone | hearly := h
      · exact Bool.false_ne_true (hopen.symm.trans hdone)
      · exact Nat.not_le.mpr hearly hlate

end Sys2Proof.Machine
end

section
/-! PROOFS. A receiver's side: REQ, the grants, DATA and remote tallies (17 R399, R401, R404, R405, R410). -/

namespace Sys2Proof.Machine

section Receiver

variable {s : State}

/-! ## REQ (17 R399, R405, R410) -/

/-- The REQ of a transfer that is under way, or that waits already. -/
def State.reqSeen (s : State) (src : BitVec 17) (xid : W16) : Prop :=
  (∃ r, s.rx? src xid = some r ∧ r.done = false) ∨ ∃ r ∈ s.ringl.reqs, r.src = src ∧ r.xid = xid

theorem reqSeen_iff (src : BitVec 17) (xid : W16) :
    ((s.rx? src xid).any (fun r => !r.done) || s.ringl.reqs.any fun r => r.src == src && r.xid == xid) = true ↔ s.reqSeen src xid := by
  simp only [State.reqSeen, Bool.or_eq_true, Option.any_eq_true, List.any_eq_true, Bool.not_eq_true', Bool.and_eq_true, beq_iff_eq]

/-- The answer that refuses a REQ. -/
def State.refuseReq (s : State) (q : ReqM) (reason : Nat) : State := s.sendRefuse q.src.toNat q.dptn.val q.sptn.val q.xid.toNat reason

section Req

variable {q : ReqM}

theorem reqMsg_seen (h : s.reqSeen q.src q.xid) : s.reqMsg q = s := if_pos ((reqSeen_iff ..).mpr h)

section New

variable (hnew : ¬s.reqSeen q.src q.xid)
include hnew

theorem reqMsg_leaving (hl : s.ringl.st = .leaving) : s.reqMsg q = s.refuseReq q 7 :=
  (if_neg (mt (reqSeen_iff ..).mp hnew)).trans (if_pos hl)

variable (hl : s.ringl.st ≠ .leaving)
include hl

theorem reqMsg_fenced (hp : s.ptnLive q.dptn = false) : s.reqMsg q = s.refuseReq q 3 :=
  (if_neg (mt (reqSeen_iff ..).mp hnew)).trans ((if_neg hl).trans (if_pos (by rw [hp]; rfl)))

variable (hp : s.ptnLive q.dptn = true)
include hp

theorem reqMsg_eq : s.reqMsg q = match s.ops.find? fun o => s.matches_ o q with
    | some o => s.joinReq o q
    | none => if (s.ringl.reqs.filter fun r => r.dptn == q.dptn).length < 256 then { s with ringl := { s.ringl with reqs := s.ringl.reqs ++ [q] } }
      else s.refuseReq q 9 :=
  (if_neg (mt (reqSeen_iff ..).mp hnew)).trans ((if_neg hl).trans (if_neg (by rw [hp]; decide)))

theorem reqMsg_matched {o : Op} (ho : (s.ops.find? fun o => s.matches_ o q) = some o) : s.reqMsg q = s.joinReq o q := by
  rw [reqMsg_eq hnew hl hp, ho]

theorem reqMsg_waits (ho : (s.ops.find? fun o => s.matches_ o q) = none) (hroom : (s.ringl.reqs.filter fun r => r.dptn == q.dptn).length < 256) :
    s.reqMsg q = { s with ringl := { s.ringl with reqs := s.ringl.reqs ++ [q] } } := by
  rw [reqMsg_eq hnew hl hp, ho]
  exact if_pos hroom

theorem reqMsg_busy (ho : (s.ops.find? fun o => s.matches_ o q) = none) (hfull : 256 ≤ (s.ringl.reqs.filter fun r => r.dptn == q.dptn).length) :
    s.reqMsg q = s.refuseReq q 9 := by
  rw [reqMsg_eq hnew hl hp, ho]
  exact if_neg (Nat.not_lt.mpr hfull)

end New

theorem joinReq_refused {o : Op} {reason : Nat} (h : reqBad o q = some reason) : s.joinReq o q =
    ((s.sendRefuse q.src.toNat o.ptn.val q.sptn.val q.xid.toNat reason).bump o.ptn .ringLost 1).opFail o
      (.xfer reason q.xid.toNat q.src.toNat false) := by
  rw [State.joinReq, h]

/-- The transfer that a REQ opens for an operation. -/
def State.newRx (s : State) (o : Op) (q : ReqM) : RxX :=
  { src := q.src, sptn := q.sptn, xid := q.xid, op := o.id, ptn := o.ptn, len := q.len, next := 0, units := [], comb := [], drained := [], buf := []
    pass2 := (s.wants o).headD false, done := false, progress := s.clk.gt }

theorem joinReq_joined {o : Op} (h : reqBad o q = none) : s.joinReq o q =
    ({ s with ringl := { s.ringl with rx := s.newRx o q :: s.ringl.rx.filter fun x => !isRx q.src q.xid x } } : State).tryRxDone q.src q.xid := by
  rw [State.joinReq, h]
  rfl

end Req

/-! ## Grants (17 R399) -/

section Grant

variable {src : BitVec 17} {xid : W16} {r : RxX} {o : Op}

/-- The entries that a transfer may be granted now. -/
def State.grantNow (s : State) (r : RxX) (o : Op) : Nat :=
  min (xEntries r.len - r.next) (min (s.freeEntries o.job) (1024 - (r.next - r.drained.length)))

theorem execGrantIssue_unknown (hr : s.rx? src xid = none) : execGrantIssue src xid s = .next s := by
  rw [execGrantIssue, hr]

section Known

variable (hr : s.rx? src xid = some r) (ho : s.op? r.op = some o) (hon : s.onRing = true) {n : Nat} (hn : s.grantNow r o = n)
include hr ho hon hn

theorem execGrantIssue_eq : execGrantIssue src xid s =
    .next (if r.done = true ∨ n = 0 then s else (s.modRx src xid fun r => { r with next := r.next + n }).sendRange 1 r r.next n) := by
  rw [State.grantNow] at hn
  simp only [execGrantIssue, hr, ho, hn]
  refine congrArg Host.Outcome.next (if_congr ?_ rfl rfl)
  simp only [hon, Bool.not_true, Bool.or_false, Bool.or_eq_true, beq_iff_eq]

theorem execGrantIssue_none (h : r.done = true ∨ n = 0) : execGrantIssue src xid s = .next s := by
  rw [execGrantIssue_eq hr ho hon hn, if_pos h]

theorem execGrantIssue_some (hopen : r.done = false) (h0 : n ≠ 0) : execGrantIssue src xid s =
    .next ((s.modRx src xid fun r => { r with next := r.next + n }).sendRange 1 r r.next n) := by
  rw [execGrantIssue_eq hr ho hon hn, if_neg (not_or.mpr ⟨Bool.eq_false_iff.mp hopen, h0⟩)]

end Known

end Grant

/-! ## DATA (17 R399, R401) -/

section Data

variable {src : BitVec 17} {xid : W16} {r : RxX} {o : Op} {u : Nat} {pay : BitVec 1888}

/-- A unit of a transfer that has arrived already, or whose every entry has drained. -/
def RxX.hasUnit (r : RxX) (u : Nat) : Prop :=
  r.done = true ∨ u ∈ r.units ∨ (entriesOfUnit r.len u ≠ [] ∧ ∀ k ∈ entriesOfUnit r.len u, k ∈ r.drained)

theorem hasUnit_iff (r : RxX) (u : Nat) : (r.done = true ∨ u ∈ r.units ∨
    (entriesOfUnit r.len u != [] && (entriesOfUnit r.len u).all r.drained.contains) = true) ↔ r.hasUnit u := by
  simp only [RxX.hasUnit, Bool.and_eq_true, bne_iff_ne, List.all_eq_true, List.contains_iff_mem]

/-- A unit with no entry of its transfer, or with one that is not granted. -/
theorem ungranted_iff (l : List Nat) (next : Nat) :
    (l = [] ∨ (!(l.all fun k => decide (k < next))) = true) ↔ l = [] ∨ ∃ k ∈ l, next ≤ k := by
  simp only [Bool.not_eq_true', List.all_eq_false, decide_eq_true_eq, Nat.not_lt]

theorem execData_unknown {h : MsgHdr} (hr : s.rx? h.src h.xid = none) (off : BitVec 28) (pay : BitVec 1888) : execData h off pay s = .next s := by
  simp only [execData, State.dataMsg, hr, ite_self]

/-- A unit has arrived. -/
def State.unitIn (s : State) (src : BitVec 17) (xid : W16) (len u : Nat) (pay : BitVec 1888) : State :=
  let n := min 236 (len - 236 * u)
  s.modRx src xid fun r =>
    { r with units := u :: r.units, progress := s.clk.gt, buf := wrBytes r.buf (236 * u) (leBytes n (pay.toNat % 256 ^ n)) }

variable (hr : s.rx? src xid = some r)
include hr

theorem dataMsg_duplicate (h : r.hasUnit u) : s.dataMsg src xid u pay =
    (s.bump r.ptn .ringDup 1).each ((entriesOfUnit r.len u).filter r.drained.contains) fun s k => s.sendRange 3 r k 1 := by
  rw [State.dataMsg, hr]
  exact if_pos ((hasUnit_iff ..).mpr h)

variable (hnew : ¬r.hasUnit u)
include hnew

theorem dataMsg_ungranted (h : entriesOfUnit r.len u = [] ∨ ∃ k ∈ entriesOfUnit r.len u, r.next ≤ k) : s.dataMsg src xid u pay = s := by
  rw [State.dataMsg, hr]
  exact (if_neg (mt (hasUnit_iff ..).mp hnew)).trans (if_pos ((ungranted_iff ..).mpr h))

variable (ho : s.op? r.op = some o) (hne : entriesOfUnit r.len u ≠ []) (hgr : ∀ k ∈ entriesOfUnit r.len u, k < r.next)
include ho hne hgr

theorem dataMsg_granted : s.dataMsg src xid u pay =
    match (s.unitIn src xid r.len u pay).takeEntries o src xid (entriesOfUnit r.len u) with
    | (t, some e) => t.opFail o e
    | (t, none) => ((t.tryRxDone src xid).pumpOpTx o.id).pumpAll := by
  have hin : ¬(entriesOfUnit r.len u = [] ∨ (!((entriesOfUnit r.len u).all fun k => decide (k < r.next))) = true) := by
    rw [ungranted_iff]
    rintro (h | ⟨k, hk, h⟩)
    · exact hne h
    · exact Nat.not_lt.mpr h (hgr k hk)
  rw [State.dataMsg, hr]
  refine (if_neg (mt (hasUnit_iff ..).mp hnew)).trans ((if_neg hin).trans ?_)
  rw [ho]
  rfl

theorem dataMsg_fails {t : State} {e : EngErr} (h : (s.unitIn src xid r.len u pay).takeEntries o src xid (entriesOfUnit r.len u) = (t, some e)) :
    s.dataMsg src xid u pay = t.opFail o e := by
  rw [dataMsg_granted hr hnew ho hne hgr, h]

theorem dataMsg_taken {t : State} (h : (s.unitIn src xid r.len u pay).takeEntries o src xid (entriesOfUnit r.len u) = (t, none)) :
    s.dataMsg src xid u pay = ((t.tryRxDone src xid).pumpOpTx o.id).pumpAll := by
  rw [dataMsg_granted hr hnew ho hne hgr, h]

end Data

/-! ## Remote tallies (17 R404) -/

section Tally

variable {src : BitVec 17} {sptn dptn : Fin 16} {xid : W16} {t : Nat} {b : Bool} {v : W32}

/-- A remote TALLY is remembered, with the last 32,767 others of its sender. -/
def State.tallyNoted (s : State) (src : BitVec 17) (xid : W16) : State :=
  { s with ringl := { s.ringl with
      tallySeen := (src, xid) :: (s.ringl.tallySeen.filter fun e => e.1 == src).take 32767 ++ s.ringl.tallySeen.filter fun e => e.1 != src } }

theorem tallyMsg_seen (h : (src, xid) ∈ s.ringl.tallySeen) : s.tallyMsg src sptn dptn xid t b v = s.bump dptn .ringDup 1 :=
  if_pos (List.contains_iff_mem.mpr h)

variable (hnew : (src, xid) ∉ s.ringl.tallySeen)
include hnew

theorem tallyMsg_owned (h : (s.owns dptn csTallies).testBit (t / 1024) = true) : s.tallyMsg src sptn dptn xid t b v =
    ((s.tallyNoted src xid).tallyPut t (if b then v else s.tallyGet t + v)).settle := by
  refine (if_neg (mt List.contains_iff_mem.mp hnew)).trans ((if_pos h).trans ?_)
  cases b <;> rfl

theorem tallyMsg_refused (h : (s.owns dptn csTallies).testBit (t / 1024) = false) : s.tallyMsg src sptn dptn xid t b v =
    (s.tallyNoted src xid).sendRefuse src.toNat dptn.val sptn.val xid.toNat 8 :=
  (if_neg (mt List.contains_iff_mem.mp hnew)).trans (if_neg (Bool.eq_false_iff.mp h))

end Tally

end Receiver

/-- On the ring, a message does what it says. -/
theorem next_onRing {s : State} (hon : s.onRing = true) {t u : State} (h : t = u) : (Host.Outcome.next (if s.onRing then t else s) : Out) = .next u :=
  congrArg Host.Outcome.next ((if_pos hon).trans h)

/-- Settles O46: a REQ by what the receiver already has, a grant by its three bounds, DATA by its unit, and a TALLY by the list of those seen. -/
theorem ringReceiver : Obligations.RingReceiver := by
  unfold Obligations.RingReceiver
  refine ⟨?req,
    fun s src xid r o hr ho hon => ⟨execGrantIssue_none hr ho hon rfl, execGrantIssue_some hr ho hon rfl, ?data⟩,
    fun s h hr => ⟨execGrantIssue_unknown hr, fun u pay => execData_unknown hr u pay⟩,
    fun s h t b v hon => ⟨fun hseen => next_onRing hon (tallyMsg_seen hseen), fun hnew =>
      ⟨s.tallyNoted h.src h.xid, rfl, List.mem_cons_self, rfl, fun hown => next_onRing hon (tallyMsg_owned hnew hown),
        fun hown => next_onRing hon (tallyMsg_refused hnew hown)⟩⟩⟩
  case req =>
    intro s h len tag vc rop fmt rank hon q
    refine ⟨fun hdup => next_onRing hon (reqMsg_seen (q := q) hdup), fun hnew => ⟨fun hl => next_onRing hon (reqMsg_leaving (q := q) hnew hl),
      fun hl => ⟨fun hp => next_onRing hon (reqMsg_fenced (q := q) hnew hl hp), fun hp => ⟨fun o ho => ?_, fun ho =>
        ⟨fun hroom => next_onRing hon (reqMsg_waits (q := q) hnew hl hp ho hroom),
          fun hfull => next_onRing hon (reqMsg_busy (q := q) hnew hl hp ho hfull)⟩⟩⟩⟩⟩
    have hjoin := reqMsg_matched (q := q) hnew hl hp ho
    exact ⟨fun reason hbad => next_onRing hon (hjoin.trans (joinReq_refused hbad)), fun hok => next_onRing hon (hjoin.trans (joinReq_joined hok))⟩
  case data =>
    rintro h u pay rfl rfl
    exact ⟨fun hold => next_onRing hon (dataMsg_duplicate hr hold), fun hnew hout => next_onRing hon (dataMsg_ungranted hr hnew hout),
      fun hnew hne hin => ⟨fun t e htake => next_onRing hon (dataMsg_fails hr hnew ho hne hin htake),
        fun t htake => next_onRing hon (dataMsg_taken hr hnew ho hne hin htake)⟩⟩

end Sys2Proof.Machine
end

section
/-! PROOFS. Route maps (17 R394, R401, R405, R411, R413; log 81). -/

namespace Sys2Proof.Machine

/-! ## The marks of a map and its directions (17 R394) -/

theorem mem_insPos {x p : Nat} {l : List Nat} : x ∈ insPos p l ↔ x = p ∨ x ∈ l := by
  unfold insPos
  split
  next h =>
    have hp : p ∈ l := List.contains_iff_mem.mp h
    exact ⟨Or.inr, fun h => h.elim (fun e => e ▸ hp) id⟩
  · rw [(insSorted_perm p l).mem_iff, List.mem_cons]

theorem mem_delPos {x p : Nat} {l : List Nat} : x ∈ delPos p l ↔ x ∈ l ∧ x ≠ p := by
  rw [delPos, List.mem_filter, bne_iff_ne]

theorem mem_mark_down {m : RMap} {n a b : Nat} {up : Bool} {x : Nat} :
    x ∈ (m.mark n a b up).down ↔ (x ∈ m.down ∧ x ≠ a ∧ between n a b x = false) ∨ (up = false ∧ x = a) := by
  have hd : x ∈ (delPos a m.down).filter (fun p => !between n a b p) ↔ x ∈ m.down ∧ x ≠ a ∧ between n a b x = false := by
    rw [List.mem_filter, mem_delPos, Bool.not_eq_true', and_assoc]
  cases up with
  | true => simpa [RMap.mark] using hd
  | false =>
    show x ∈ insPos a _ ↔ _
    rw [mem_insPos, hd, or_comm, eq_self_iff_true, true_and]

section Direction

variable (m : RMap) (n a d : Nat)

/-- The positions to go East, and those to go West. -/
def eastWay (n a d : Nat) : Nat := (d + n - a % n) % n
def westWay (n a d : Nat) : Nat := (n - eastWay n a d) % n

/-- East is taken: its links are UP, and the way is the shorter one, or a link of the other is DOWN. -/
def RMap.goesEast : Prop := m.clear n a (eastWay n a d) = true ∧
  (m.hops n a (eastWay n a d) ≤ m.hops n d (westWay n a d) ∨ m.clear n d (westWay n a d) = false)

theorem direction_of_east (h : m.goesEast n a d) : m.direction n a d = some true :=
  if_pos (h.imp_right (Or.imp_right (Bool.not_eq_true' _).mpr))

theorem direction_of_not_east (h : ¬m.goesEast n a d) : m.direction n a d = if m.clear n d (westWay n a d) then some false else none :=
  if_neg fun heast => h (heast.imp_right (Or.imp_right (Bool.not_eq_true' _).mp))

theorem direction_east_iff : m.direction n a d = some true ↔ m.goesEast n a d := by
  refine ⟨fun hdir => ?_, direction_of_east m n a d⟩
  by_contra h
  rw [direction_of_not_east m n a d h] at hdir
  split at hdir <;> cases hdir

theorem direction_none_iff : m.direction n a d = none ↔ m.clear n a (eastWay n a d) = false ∧ m.clear n d (westWay n a d) = false := by
  by_cases h : m.goesEast n a d
  · rw [direction_of_east m n a d h, h.1]
    simp
  · rw [direction_of_not_east m n a d h]
    cases hw : m.clear n d (westWay n a d) with
    | true => simp
    | false =>
      have he : m.clear n a (eastWay n a d) = false := Bool.eq_false_iff.mpr fun he => h ⟨he, .inr hw⟩
      simp [he]

end Direction

/-! ## TOPO and STATE -/

section Messages

/-- A message has done its work here: it is passed on, and what a changed route may have lost is sent again (17 R394, R401). -/
def State.topoEnd (s t : State) (port : Fin 4) (kind dev lport : Nat) : State := (t.passOn port 6 0 (topoPay kind dev lport) dev).resend s

/-- What a message says of a map is taken up where this device keeps that map. -/
def State.topoApplied (s : State) (port : Fin 4) (kind dev pos lport : Nat) : State :=
  match s.mapFor (pairOf port) (decide (2 ≤ lport)) with
  | some k => s.topoOn k kind dev pos lport
  | none => s

variable {s : State} {port : Fin 4}

theorem topoMsg_ignored {kind dev lport : Nat} (h : dev = s.devId ∨ s.dlk.sw[pairOf port].joined = false) : s.topoMsg port kind dev lport = s :=
  if_pos (h.imp_right fun hj => by rw [State.pairUp, hj]; rfl)

theorem stateMsg_ignored {dev ports : Nat} (h : dev = s.devId ∨ s.dlk.sw[pairOf port].joined = false) : s.stateMsg port dev ports = s :=
  if_pos (h.imp_right fun hj => by rw [State.pairUp, hj]; rfl)

section Taken

variable {dev : Nat} (hdev : dev ≠ s.devId) (hj : s.dlk.sw[pairOf port].joined = true)
include hdev hj

theorem message_taken : ¬(dev = s.devId ∨ (!s.pairUp (pairOf port)) = true) := by
  rw [State.pairUp, hj]
  simpa using hdev

theorem topoMsg_outside (hpos : s.ringPosOf (pairOf port) dev = none) (kind lport : Nat) : s.topoMsg port kind dev lport = s.ringBad := by
  refine (if_neg (message_taken hdev hj)).trans ?_
  rw [hpos]

theorem stateMsg_outside (hpos : s.ringPosOf (pairOf port) dev = none) (ports : Nat) : s.stateMsg port dev ports = s.ringBad := by
  refine (if_neg (message_taken hdev hj)).trans ?_
  rw [hpos]

variable {pos : Nat} (hpos : s.ringPosOf (pairOf port) dev = some pos) {kind lport : Nat}
include hpos

theorem topoMsg_eq : s.topoMsg port kind dev lport =
    if kind = 5 then s.leaveDone (pairOf port) lport
    else if kind = 0 ∨ 5 < kind then s.ringBad
    else s.topoEnd (s.topoApplied port kind dev pos lport) port kind dev lport := by
  refine (if_neg (message_taken hdev hj)).trans ?_
  rw [hpos]
  rfl

theorem topoMsg_reserved (h : kind = 0 ∨ 5 < kind) : s.topoMsg port kind dev lport = s.ringBad := by
  have h5 : kind ≠ 5 := by omega
  rw [topoMsg_eq hdev hj hpos, if_neg h5, if_pos h]

theorem topoMsg_answer (h : kind = 5) : s.topoMsg port kind dev lport = s.leaveDone (pairOf port) lport := by
  rw [topoMsg_eq hdev hj hpos, if_pos h]

variable (h1 : 1 ≤ kind) (h4 : kind ≤ 4)
include h1 h4

theorem topoMsg_change : s.topoMsg port kind dev lport = s.topoEnd (s.topoApplied port kind dev pos lport) port kind dev lport := by
  have h5 : kind ≠ 5 := by omega
  have hk : ¬(kind = 0 ∨ 5 < kind) := by omega
  rw [topoMsg_eq hdev hj hpos, if_neg h5, if_neg hk]

theorem topoMsg_noMap (hm : s.mapFor (pairOf port) (decide (2 ≤ lport)) = none) :
    s.topoMsg port kind dev lport = s.topoEnd s port kind dev lport := by
  rw [topoMsg_change hdev hj hpos h1 h4, State.topoApplied, hm]

theorem topoMsg_map {k : Fin 2} (hm : s.mapFor (pairOf port) (decide (2 ≤ lport)) = some k) :
    s.topoMsg port kind dev lport = s.topoEnd (s.topoOn k kind dev pos lport) port kind dev lport := by
  rw [topoMsg_change hdev hj hpos h1 h4, State.topoApplied, hm]

end Taken

/-! ## The answer to a leave (17 R405) -/

section Leave

variable {r k : Fin 2} {lport : Nat} (hk : k = if s.upperPair r = true ∨ 2 ≤ lport then 1 else 0)
include hk

theorem leaveDone_leaving (hl : s.dlk.sw[k].leaving = true) : s.leaveDone r lport =
    (s.modSw k fun w => { w with ackE := w.ackE || !(lport % 2 == 0), ackW := w.ackW || (lport % 2 == 0) }).tryLeave k := by
  subst hk
  refine (if_pos hl).trans (congrArg (fun f => State.tryLeave (s.modSw _ f) _) (funext fun w => ?_))
  obtain h | h := Nat.mod_two_eq_zero_or_one lport <;> simp [h]

theorem leaveDone_staying (hl : s.dlk.sw[k].leaving = false) : s.leaveDone r lport = s := by
  subst hk
  exact if_neg (Bool.eq_false_iff.mp hl)

end Leave

/-! ## STATE (17 R411) -/

/-- What STATE says of the links of ports 0 and 1, or 2 and 3, of a device, on the map that they concern. -/
def State.stateView (s : State) (r : Fin 2) (pos ports : Nat) (hi : Bool) : State :=
  let e := linkBit ports (2 * hi.toNat)
  let w := linkBit ports (2 * hi.toNat + 1)
  match s.mapFor r hi with
  | none => s
  | some k =>
    if !e && !w then s.setMap k fun m => { m with heard := delPos pos m.heard } else (s.markLink k pos true e).markLink k pos false w

theorem stateView_mapFor (s : State) (r : Fin 2) (pos ports : Nat) (hi : Bool) (r' : Fin 2) (hi' : Bool) :
    (s.stateView r pos ports hi).mapFor r' hi' = s.mapFor r' hi' := by
  simp only [State.stateView]
  split
  · rfl
  · split <;> rfl

section Segment

variable {r : Fin 2} (hup : s.upperPair r = false)
include hup

theorem mapFor_low : s.mapFor r false = some 0 := if_neg (Bool.eq_false_iff.mp hup)

theorem mapFor_high (hplane : s.planePair = false) : s.mapFor r true = none :=
  (if_neg (Bool.eq_false_iff.mp hup)).trans (if_neg (Bool.eq_false_iff.mp hplane))

theorem stateView_low (pos ports : Nat) : s.stateView r pos ports false =
    if !linkBit ports 0 && !linkBit ports 1 then s.setMap 0 fun m => { m with heard := delPos pos m.heard }
    else (s.markLink 0 pos true (linkBit ports 0)).markLink 0 pos false (linkBit ports 1) := by
  rw [State.stateView, mapFor_low hup]
  rfl

theorem stateView_high (hplane : s.planePair = false) (pos ports : Nat) : s.stateView r pos ports true = s := by
  rw [State.stateView, mapFor_high hup hplane]

end Segment

/-- On a segment with one plane, STATE of a device that is not the gateway says what it says of ports 0 and 1. -/
theorem stateMsg_segment {dev pos : Nat} (hdev : dev ≠ s.devId) (hj : s.dlk.sw[pairOf port].joined = true)
    (hpos : s.ringPosOf (pairOf port) dev = some pos) (hup : s.upperPair (pairOf port) = false) (hplane : s.planePair = false)
    (hgw : dev ≠ s.gatewayId) (ports : Nat) : s.stateMsg port dev ports =
      ((s.stateView (pairOf port) pos ports false).passOn port 8 3 (BitVec.ofNat 1888 ports) dev).resend s := by
  have hseg : (!s.upperPair (pairOf port) && dev == s.gatewayId) = false := by simpa using fun _ => hgw
  have hhigh : (s.stateView (pairOf port) pos ports false).stateView (pairOf port) pos ports true = s.stateView (pairOf port) pos ports false := by
    rw [State.stateView, stateView_mapFor, mapFor_high hup hplane]
  refine (if_neg (message_taken hdev hj)).trans ?_
  rw [hpos]
  refine congrArg (fun t => (State.passOn t port 8 3 (BitVec.ofNat 1888 ports) dev).resend s) ?_
  exact (if_neg (by rw [hseg]; decide)).trans hhigh

end Messages

end Sys2Proof.Machine
end

section
/-! PROOFS. STATE_BROADCAST, and what sending leaves unchanged (17 R411). -/

namespace Sys2Proof.Machine

/-! ## What sending leaves unchanged -/

/-- The global set, the switches, and the peers of the ports: what tells a device its place and its neighbours. -/
def State.wiring (s : State) : Gcr × Vector Switch 2 × Vector (BitVec 17) 4 := (s.gcr, s.dlk.sw, s.dlk.port.map (·.peer))

theorem wiring_modPort {f : Port → Port} (hf : ∀ p, (f p).peer = p.peer) (s : State) (k : Fin 4) : (s.modPort k f).wiring = s.wiring := by
  have hpeer : (s.modPort k f).dlk.port.map (·.peer) = (s.dlk.port.map (·.peer)).set k (s.dlk.port.map (·.peer))[k] := by
    simp [State.modPort, hf]
  exact congrArg (fun v => (s.gcr, s.dlk.sw, v)) (hpeer.trans (vec_set_get ..))

theorem wiring_emit (s : State) (k : Fin 4) (kind : Nat) (f : TxFlit) : (s.emit k kind f).wiring = s.wiring :=
  wiring_modPort (f := fun p => { p with nakDue := false, unacked := 0 }) (fun _ => rfl) s k

theorem wiring_noteUse (s : State) (r : Nat) (p : Fin 16) (n : Nat) : (s.noteUse r p n).wiring = s.wiring := rfl

theorem wiring_freeSlot (s : State) (k v : Fin 4) : (s.freeSlot k v).wiring = s.wiring :=
  wiring_modPort (fun p => by dsimp only; split <;> rfl) s k

theorem wiring_freeInp (s : State) (f : TxFlit) : (s.freeInp f).wiring = s.wiring := by
  unfold State.freeInp
  split
  · exact wiring_freeSlot ..
  · rfl

theorem wiring_sendFlit (s : State) (k : Fin 4) (f : TxFlit) : (s.sendFlit k f).wiring = s.wiring :=
  (wiring_freeInp ..).trans ((wiring_modPort (by exact fun _ => rfl) ..).trans (wiring_emit ..))

theorem wiring_sendData (s : State) (k : Fin 4) (f : TxFlit) : (s.sendData k f).wiring = s.wiring := by
  refine (wiring_sendFlit ..).trans ?_
  split
  · exact (wiring_noteUse ..).trans (wiring_modPort (by exact fun _ => rfl) ..)
  · exact wiring_modPort (by exact fun _ => rfl) ..

theorem wiring_ite {c : Prop} [Decidable c] {s t u : State} (hs : s.wiring = u.wiring) (ht : t.wiring = u.wiring) :
    (if c then s else t).wiring = u.wiring := by
  split <;> assumption

theorem wiring_sendLoop (k : Fin 4) (fuel : Nat) (s : State) : (sendLoop k fuel s).wiring = s.wiring := by
  induction fuel generalizing s with
  | zero => rfl
  | succ fuel ih =>
    have hctrl : ∀ f : TxFlit, (sendLoop k fuel ({ s with free := s.free + 2 }.sendFlit k f)).wiring = s.wiring := fun f =>
      (ih _).trans (wiring_sendFlit ..)
    have hdue : ∀ f : TxFlit, (sendLoop k fuel (({ s with free := s.free + 2 }.modPort k fun p =>
        { p with ctrlDue := p.ctrlDue - 1 }).sendFlit k f)).wiring = s.wiring := fun f =>
      (ih _).trans ((wiring_sendFlit ..).trans (wiring_modPort (by exact fun _ => rfl) ..))
    simp only [sendLoop]
    refine wiring_ite rfl ?_
    split
    · refine wiring_ite ?_ (wiring_ite ?_ (wiring_ite (hdue _) (wiring_ite (hctrl _) rfl)))
      · exact (ih _).trans ((wiring_sendFlit ..).trans (wiring_modPort (by exact fun _ => rfl) ..))
      · exact (ih _).trans ((wiring_sendData ..).trans (wiring_modPort (by exact fun _ => rfl) ..))
    · exact (ih _).trans ((wiring_sendData ..).trans (wiring_modPort (by exact fun _ => rfl) ..))
    · exact wiring_ite (hdue _) (wiring_ite (hctrl _) rfl)

theorem wiring_pumpPort (s : State) (k : Fin 4) : (s.pumpPort k).wiring = s.wiring :=
  wiring_ite (u := s) ((wiring_emit ..).trans (wiring_sendLoop ..)) (wiring_sendLoop ..)

theorem wiring_putFlit (s : State) (k : Fin 4) (f : TxFlit) : (s.putFlit k f).wiring = s.wiring :=
  (wiring_pumpPort ..).trans (wiring_modPort (by exact fun _ => rfl) ..)

/-! ## STATE_BROADCAST -/

section Broadcast

variable {s : State}

/-- A message of one hop, as it leaves by a port. -/
def State.hopFlit (s : State) (k : Fin 4) (op vc src : Nat) (pay : BitVec 1888) : TxFlit :=
  mkFlit vc (s.dateline k) (ringHdr s.dlk.port[k].peer.toNat src 0 0 op 0 0 (s.dateline k) false) pay none

theorem dateline_of_wiring {t : State} (h : t.wiring = s.wiring) (k : Fin 4) : t.dateline k = s.dateline k := by
  have hgcr : t.gcr = s.gcr := congrArg Prod.fst h
  have hgact : t.gact = s.gact := by rw [State.gact, State.gact, hgcr]
  unfold State.dateline State.ringPos State.ringLen State.upperPair State.roleGateway State.devId State.upperSize State.segSize
  rw [hgact]

theorem peer_of_wiring {t : State} (h : t.wiring = s.wiring) (k : Fin 4) : t.dlk.port[k].peer = s.dlk.port[k].peer := by
  have hpeer := congrArg (fun w => w.2.2[k]) h
  simpa [State.wiring] using hpeer

theorem joined_of_wiring {t : State} (h : t.wiring = s.wiring) (k : Fin 2) : t.dlk.sw[k].joined = s.dlk.sw[k].joined :=
  congrArg (fun w => w.2.1[k].joined) h

theorem hopFlit_of_wiring {t : State} (h : t.wiring = s.wiring) (k : Fin 4) (op vc src : Nat) (pay : BitVec 1888) :
    t.hopFlit k op vc src pay = s.hopFlit k op vc src pay := by
  rw [State.hopFlit, dateline_of_wiring h, peer_of_wiring h, State.hopFlit]

/-- The port of a pair by which TOPO and STATE go on East or West, where it has a link. -/
def State.ctlAt (s : State) (east : Bool) (k : Fin 2) : Option (Fin 4) :=
  let p := if east then eastOf k else westOf k
  if s.pairUp k && s.dlk.port[p].linked then some p else none

theorem ctlPort_eq (s : State) (r : Fin 2) (east : Bool) : s.ctlPort r east =
    if s.upperPair r then s.ctlAt east 1 else (s.ctlAt east 0).or (if s.planePair then s.ctlAt east 1 else none) := rfl

theorem ctlAt_unjoined {k : Fin 2} (h : s.dlk.sw[k].joined = false) (east : Bool) : s.ctlAt east k = none :=
  if_neg (by rw [State.pairUp, h, Bool.false_and]; exact Bool.false_ne_true)

theorem ctlAt_linked {k : Fin 2} {east : Bool} (h : s.dlk.sw[k].joined = true) (hl : s.dlk.port[if east then eastOf k else westOf k].linked = true) :
    s.ctlAt east k = some (if east then eastOf k else westOf k) :=
  if_pos (by rw [State.pairUp, h, hl]; rfl)

theorem upperPair_zero (s : State) : s.upperPair 0 = false := rfl

/-- The port states go both ways round the ring of a pair. -/
def State.broadcast (s : State) (r : Fin 2) (pay : BitVec 1888) : State :=
  (s.sendHop (s.ctlPort r true) 8 3 s.devId pay).sendHop (s.ctlPort r false) 8 3 s.devId pay

theorem execStateBroadcast_stopped (h : s.running = false) : execStateBroadcast s = .next s :=
  congrArg Host.Outcome.next (if_neg (Bool.eq_false_iff.mp h))

theorem broadcast_none {r : Fin 2} (h : ∀ east, s.ctlPort r east = none) (pay : BitVec 1888) : s.broadcast r pay = s := by
  rw [State.broadcast, h, h]
  rfl

/-- With pair 1 not joined, the port states go round the ring of pair 0 alone. -/
theorem execStateBroadcast_segment (hrun : s.running = true) (h1 : s.dlk.sw[1].joined = false)
    (h : (s.broadcast 0 (BitVec.ofNat 1888 s.portStates)).wiring = s.wiring) :
    execStateBroadcast s = .next (s.broadcast 0 (BitVec.ofNat 1888 s.portStates)) := by
  have h1' := (joined_of_wiring h 1).trans h1
  refine congrArg Host.Outcome.next ((if_pos hrun).trans ?_)
  show (if (s.broadcast 0 _).upperPair 1 then (s.broadcast 0 _).broadcast 1 _ else s.broadcast 0 _) = _
  split
  next hup => exact broadcast_none (fun east => by rw [ctlPort_eq, if_pos hup, ctlAt_unjoined h1']) _
  · rfl

theorem execStateBroadcast_unjoined (hrun : s.running = true) (h : ∀ k : Fin 2, s.dlk.sw[k].joined = false) : execStateBroadcast s = .next s := by
  have hnone : s.broadcast 0 (BitVec.ofNat 1888 s.portStates) = s := broadcast_none (fun east => by
    rw [ctlPort_eq, upperPair_zero, if_neg Bool.false_ne_true, ctlAt_unjoined (h 0), ctlAt_unjoined (h 1), ite_self]
    rfl) _
  rw [execStateBroadcast_segment hrun (h 1) (by rw [hnone]), hnone]

theorem ctlPort_segment {east : Bool} (h : s.dlk.sw[0].joined = true) (hl : s.dlk.port[if east then eastOf 0 else westOf 0].linked = true) :
    s.ctlPort 0 east = some (if east then eastOf 0 else westOf 0) := by
  rw [ctlPort_eq, upperPair_zero, if_neg Bool.false_ne_true, ctlAt_linked (k := 0) h hl]
  rfl

theorem execStateBroadcast_joined (hrun : s.running = true) (h0 : s.dlk.sw[0].joined = true) (h1 : s.dlk.sw[1].joined = false)
    (hE : s.dlk.port[0].linked = true) (hW : s.dlk.port[1].linked = true) :
    let f := fun k => s.hopFlit k 8 3 s.devId (BitVec.ofNat 1888 s.portStates)
    execStateBroadcast s = .next ((s.putFlit 0 (f 0)).putFlit 1 (f 1)) := by
  intro f
  have hboth : s.broadcast 0 (BitVec.ofNat 1888 s.portStates) = (s.putFlit 0 (f 0)).putFlit 1 (f 1) := by
    have hflit := hopFlit_of_wiring (wiring_putFlit s 0 (f 0)) 1 8 3 s.devId (BitVec.ofNat 1888 s.portStates)
    rw [State.broadcast, ctlPort_segment (east := true) h0 hE, ctlPort_segment (east := false) h0 hW]
    exact congrArg ((s.putFlit 0 (f 0)).putFlit 1) hflit
  rw [execStateBroadcast_segment hrun h1 (by rw [hboth, wiring_putFlit, wiring_putFlit]), hboth]

end Broadcast

end Sys2Proof.Machine
end

section
/-! PROOFS. The audit of a hop and reclaimed credits (17 R406, R407), and the obligation they close with the route maps. -/

namespace Sys2Proof.Machine


section Credits

variable {s : State} {k : Fin 4} {a b : Nat}

theorem execHopAudit_idle (h : s.dlk.port[k].st ≠ .up ∨ s.running = false) : execHopAudit k a b s = .next s :=
  congrArg Host.Outcome.next (if_pos (h.imp_right fun hrun => by rw [hrun]; rfl))

/-- The grant count goes to the peer before the counts are held against each other. -/
def State.auditSent (s : State) (k : Fin 4) : State := (s.modPort k fun p => { p with ctrlDue := p.ctrlDue + 1 }).pumpPort k

/-- The credits that a port has outstanding. -/
def Port.outstanding (p : Port) : Nat := vsum p.granted + vsum p.inFlits

section Live

variable (hup : s.dlk.port[k].st = .up) (hrun : s.running = true)
include hup hrun

theorem execHopAudit_balanced (h : a + b = (s.auditSent k).dlk.port[k].outstanding) :
    execHopAudit k a b s = .next ((s.auditSent k).modPort k fun p => { p with auditFail := 0 }) :=
  congrArg Host.Outcome.next ((if_neg (port_live hup hrun)).trans (if_pos h))

variable (h : a + b ≠ (s.auditSent k).dlk.port[k].outstanding)
include h

theorem execHopAudit_first (h0 : (s.auditSent k).dlk.port[k].auditFail = 0) :
    execHopAudit k a b s = .next ((s.auditSent k).modPort k fun p => { p with auditFail := 1 }) :=
  congrArg Host.Outcome.next ((if_neg (port_live hup hrun)).trans ((if_neg h).trans (if_pos h0)))

theorem execHopAudit_second (h0 : (s.auditSent k).dlk.port[k].auditFail ≠ 0) :
    execHopAudit k a b s = .next ((s.auditSent k).mismatch 0) :=
  congrArg Host.Outcome.next ((if_neg (port_live hup hrun)).trans ((if_neg h).trans (if_neg h0)))

end Live

theorem modPort_congr {f g : Port → Port} (h : f s.dlk.port[k] = g s.dlk.port[k]) : s.modPort k f = s.modPort k g := by
  simp only [State.modPort, h]

/-- The reclaimed credits of a port are counted. -/
def State.reclaimCounted (s : State) (k : Fin 4) : State :=
  { s with ldg := { s.ldg with reclaimCnt := satAdd s.ldg.reclaimCnt (vsum s.dlk.port[k].reclaim) } }

theorem execCreditReclaim_peer (hl : s.dlk.port[k].linked = true) (hj : s.dlk.sw[pairOf k].joined = true) : execCreditReclaim k s =
    .next (((s.reclaimCounted k).modPort k fun p => { p with owed := vplus p.owed p.reclaim, reclaim := vzero }).pumpPort k) :=
  congrArg (fun t => Host.Outcome.next (State.pumpPort t k)) (modPort_congr (if_pos (by rw [Bool.and_eq_true]; exact ⟨hl, hj⟩)))

theorem execCreditReclaim_free (h : s.dlk.port[k].linked = false ∨ s.dlk.sw[pairOf k].joined = false) : execCreditReclaim k s =
    .next (((s.reclaimCounted k).modPort k fun p => { p with issued := p.issued - vsum s.dlk.port[k].reclaim, reclaim := vzero }).pumpPort k) := by
  refine congrArg (fun t => Host.Outcome.next (State.pumpPort t k)) (modPort_congr (if_neg ?_))
  rw [Bool.and_eq_true]
  rintro ⟨hl, hj⟩
  obtain h | h := h
  · exact Bool.false_ne_true (h.symm.trans hl)
  · exact Bool.false_ne_true (h.symm.trans hj)

end Credits

section Running

variable {s t : State}

theorem next_running (hrun : s.running = true) {u : State} (h : t = u) : (Host.Outcome.next (if s.running then t else s) : Out) = .next u :=
  congrArg Host.Outcome.next ((if_pos hrun).trans h)

/-- A message that a device which runs ignores changes nothing of any. -/
theorem next_ignored {p : Prop} (h : s.running = false ∨ p) (ht : p → t = s) :
    (Host.Outcome.next (if s.running then t else s) : Out) = .next s := by
  refine congrArg Host.Outcome.next ?_
  obtain h | h := h
  · exact if_neg (Bool.eq_false_iff.mp h)
  · rw [ht h, ite_self]

end Running

/-- Settles O47: a message by the map that it concerns, a broadcast by the pairs that have joined, an audit by its balance. -/
theorem ringMaps : Obligations.RingMaps := by
  unfold Obligations.RingMaps
  refine ⟨fun s port kind dev lport ports => ⟨fun h => ⟨next_ignored h topoMsg_ignored, next_ignored h stateMsg_ignored⟩, fun hrun hdev hj =>
      ⟨fun hpos => ⟨next_running hrun (topoMsg_outside hdev hj hpos ..), next_running hrun (stateMsg_outside hdev hj hpos _)⟩,
        fun pos hpos => ?taken⟩⟩,
    fun m n a b up x => mem_mark_down, fun m n a d => ⟨direction_east_iff m n a d, direction_none_iff m n a d⟩,
    fun s => ⟨execStateBroadcast_stopped, execStateBroadcast_unjoined, execStateBroadcast_joined⟩,
    fun s k a b => ⟨execHopAudit_idle,
      fun hup hrun => ⟨execHopAudit_balanced hup hrun, execHopAudit_first hup hrun, execHopAudit_second hup hrun⟩,
      execCreditReclaim_peer, execCreditReclaim_free⟩⟩
  case taken =>
    refine ⟨fun h => next_running hrun (topoMsg_reserved hdev hj hpos (h.imp_left fun h0 => congrArg BitVec.toNat h0)),
      fun hm h1 h4 => next_running hrun (topoMsg_noMap hdev hj hpos h1 h4 hm), fun k hm => ?_, fun k h5 hk => ?_, fun hup hplane hgw => ?_⟩
    · have htopo := fun h1 h4 => topoMsg_map hdev hj hpos (kind := kind.toNat) h1 h4 hm
      refine ⟨?_, ?_, ?_, ?_⟩
      all_goals
        rintro rfl
        exact next_running hrun (htopo (by decide) (by decide))
    · have hanswer := topoMsg_answer hdev hj hpos (congrArg BitVec.toNat h5) (lport := lport.toNat)
      exact ⟨fun hl => next_running hrun (hanswer.trans (leaveDone_leaving hk hl)),
        fun hl => next_running hrun (hanswer.trans (leaveDone_staying hk hl))⟩
    · refine next_running hrun ((stateMsg_segment hdev hj hpos hup hplane hgw ports.toNat).trans ?_)
      rw [stateView_low hup]
      rfl

end Sys2Proof.Machine
end

/-! # What no command changes: the fused configuration and the queue (22 R509, R514; 20 R470)

A state's operation is said once to keep `State.fixed`; a command keeps it because it is made of such operations, and a step because it is a command or
a tick. -/

namespace Sys2Proof.Machine

section FixedPart

/-- The part of the state that belongs to no command: the fuses, and the commands that wait. -/
def State.fixed (s : State) : Fuses × List Instr := (s.fuses, s.pending)

@[simp] theorem fixed_mk (pending free fuses pwr io ptn cl jobs nextJob ops nextOp tallies owners uses xfers nextXfer chans ctxs dtks luts merges gcr dbg
    tap clk thm mbs tbs err dlk ringl ldg posted lanes readData mbOut tdo) :
    State.fixed ⟨pending, free, fuses, pwr, io, ptn, cl, jobs, nextJob, ops, nextOp, tallies, owners, uses, xfers, nextXfer, chans, ctxs, dtks, luts,
      merges, gcr, dbg, tap, clk, thm, mbs, tbs, err, dlk, ringl, ldg, posted, lanes, readData, mbOut, tdo⟩ = (fuses, pending) := rfl

@[simp] theorem fixed_eta (s : State) : (s.fuses, s.pending) = s.fixed := rfl

@[simp] theorem fixed_ite (c : Prop) [Decidable c] (a b : State) : (if c then a else b).fixed = if c then a.fixed else b.fixed := apply_ite ..

/-- A command that goes on leaves that part of the state as it was. -/
def Keeps (s : State) : Out → Prop
  | .next t => t.fixed = s.fixed
  | _ => True

@[simp] theorem keeps_next (s t : State) : Keeps s (.next t) ↔ t.fixed = s.fixed := Iff.rfl
@[simp] theorem keeps_refused (s : State) (r) : Keeps s (.refused r) := trivial
@[simp] theorem keeps_ite (s : State) (c : Prop) [Decidable c] (a b : Out) : Keeps s (if c then a else b) ↔ if c then Keeps s a else Keeps s b :=
  iff_of_eq (apply_ite ..)

theorem Keeps.of_fixed {s t : State} {o : Out} (h : Keeps t o) (ht : t.fixed = s.fixed) : Keeps s o := by
  cases o with
  | next u => exact h.trans ht
  | _ => trivial

/-- So does what an instruction does to its conductor. -/
def ResKeeps (s : State) : Res → Prop
  | .done t | .jump t _ | .stall t _ => t.fixed = s.fixed
  | _ => True

@[simp] theorem resKeeps_done (s t : State) : ResKeeps s (.done t) ↔ t.fixed = s.fixed := Iff.rfl
@[simp] theorem resKeeps_jump (s t : State) (pc) : ResKeeps s (.jump t pc) ↔ t.fixed = s.fixed := Iff.rfl
@[simp] theorem resKeeps_stall (s t : State) (w) : ResKeeps s (.stall t w) ↔ t.fixed = s.fixed := Iff.rfl
@[simp] theorem resKeeps_exc (s : State) (e) : ResKeeps s (.exc e) := trivial
@[simp] theorem resKeeps_kill (s : State) (r) : ResKeeps s (.kill r) := trivial
@[simp] theorem resKeeps_ite (s : State) (c : Prop) [Decidable c] (a b : Res) :
    ResKeeps s (if c then a else b) ↔ if c then ResKeeps s a else ResKeeps s b := iff_of_eq (apply_ite ..)

/-- What every round of a fold keeps, the fold keeps. -/
theorem foldl_keeps {σ α γ : Type} (g : σ → γ) {f : σ → α → σ} (h : ∀ x a, g (f x a) = g x) (l : List α) (x : σ) : g (l.foldl f x) = g x :=
  List.foldlRecOn (motive := fun b => g b = g x) l f rfl fun b hb a _ => (h b a).trans hb

@[simp] theorem fixed_each {α : Type} (s : State) (l : List α) (f : State → α → State) (h : ∀ s x, (f s x).fixed = s.fixed) :
    (s.each l f).fixed = s.fixed := foldl_keeps State.fixed h l s

theorem fixed_of_pair {β : Type} {x : State × β} {t : State} {b : β} {f : Fuses × List Instr} (h : x = (t, b)) (hx : x.1.fixed = f) : t.fixed = f := by
  subst h; exact hx

theorem fixed_ite_of {c : Prop} [Decidable c] {a b s : State} (ha : a.fixed = s.fixed) (hb : b.fixed = s.fixed) :
    (if c then a else b).fixed = s.fixed := by split <;> assumption

/-! ### The operations the commands share: records, jobs, tallies, operations, transfers, the cache of tensors -/

@[simp] theorem fixed_tick (s : State) : (tick s).fixed = s.fixed := by simp [tick]
@[simp] theorem fixed_modP (s : State) (p f) : (s.modP p f).fixed = s.fixed := by simp [State.modP]
@[simp] theorem fixed_modEr (s : State) (e f) : (s.modEr e f).fixed = s.fixed := by unfold State.modEr; split <;> simp
@[simp] theorem fixed_pumpGer (n : Nat) (s : State) : (pumpGer n s).fixed = s.fixed := by
  induction n generalizing s with
  | zero => rfl
  | succ n ih => unfold pumpGer; dsimp only; (repeat' split) <;> simp [ih]
@[simp] theorem fixed_delX (s : State) (id) : (s.delX id).fixed = s.fixed := by simp [State.delX]
@[simp] theorem fixed_finishJob (s : State) (id) : (s.finishJob id).fixed = s.fixed := by unfold State.finishJob; split <;> simp
@[simp] theorem fixed_crDone (s : State) (o) : (s.crDone o).fixed = s.fixed := by unfold State.crDone; split <;> simp
@[simp] theorem fixed_bump (s : State) (p k n) : (s.bump p k n).fixed = s.fixed := by simp [State.bump]
@[simp] theorem fixed_crCount (s : State) (p d) : (s.crCount p d).fixed = s.fixed := by simp [State.crCount]
@[simp] theorem fixed_modC (s : State) (c f) : (s.modC c f).fixed = s.fixed := by simp [State.modC]
@[simp] theorem fixed_enqueue (s : State) (o) : (s.enqueue o).fixed = s.fixed := by simp [State.enqueue]
@[simp] theorem fixed_bumpK (s : State) (p k n) : (s.bumpK p k n).fixed = s.fixed := by simp [State.bumpK]
@[simp] theorem fixed_noteStall (s : State) (c) : (s.noteStall c).fixed = s.fixed := by unfold State.noteStall; (repeat' split) <;> simp
@[simp] theorem fixed_settleC (s : State) (c) : (s.settleC c).fixed = s.fixed := by unfold State.settleC; dsimp only; (repeat' split) <;> simp
@[simp] theorem fixed_settle (s : State) : (s.settle).fixed = s.fixed := by simp [State.settle]
@[simp] theorem fixed_modJob (s : State) (id f) : (s.modJob id f).fixed = s.fixed := by simp [State.modJob]
@[simp] theorem fixed_modTensor (s : State) (p base f) : (s.modTensor p base f).fixed = s.fixed := by simp [State.modTensor]
@[simp] theorem fixed_unpinOne (s : State) (p base) : (s.unpinOne p base).fixed = s.fixed := by simp [State.unpinOne]
@[simp] theorem fixed_tallyPut (s : State) (t v) : (s.tallyPut t v).fixed = s.fixed := by simp [State.tallyPut]
@[simp] theorem fixed_tallyAdd (s : State) (t v) : (s.tallyAdd t v).fixed = s.fixed := by simp [State.tallyAdd]
@[simp] theorem fixed_settleWaits (s : State) (p) : (s.settleWaits p).fixed = s.fixed :=
  fixed_each _ _ _ fun s w => by dsimp only; (repeat' split) <;> simp
@[simp] theorem fixed_opGone (s : State) (id) : (s.opGone id).fixed = s.fixed := by unfold State.opGone; split <;> simp
@[simp] theorem fixed_opTally (s : State) (o) : (s.opTally o).fixed = s.fixed := by simp [State.opTally]
@[simp] theorem fixed_opDone (s : State) (o) : (s.opDone o).fixed = s.fixed := by simp [State.opDone]
@[simp] theorem fixed_ringWrote (s : State) (x) : (s.ringWrote x).fixed = s.fixed := by unfold State.ringWrote; dsimp only; (repeat' split) <;> simp
@[simp] theorem fixed_modX (s : State) (id f) : (s.modX id f).fixed = s.fixed := by simp [State.modX]
@[simp] theorem fixed_markDropped (s : State) (e b) : (s.markDropped e b).fixed = s.fixed := by simp [State.markDropped]
@[simp] theorem fixed_logRec (s : State) (e dropped b) : (s.logRec e dropped b).fixed = s.fixed := by simp [State.logRec]
@[simp] theorem fixed_logAll (s : State) (e dropped l) : (s.logAll e dropped l).fixed = s.fixed :=
  fixed_each _ _ _ fun s b => fixed_logRec s e dropped b
@[simp] theorem fixed_dropLate (s : State) (e sev l disabled) : (s.dropLate e sev l disabled).fixed = s.fixed := by simp [State.dropLate]
@[simp] theorem fixed_dropQueue (s : State) (e disabled) : (s.dropQueue e disabled).fixed = s.fixed := by simp [State.dropQueue]
@[simp] theorem fixed_gerHalt (s : State) : (s.gerHalt).fixed = s.fixed := by simp [State.gerHalt]
@[simp] theorem fixed_dropRecs (s : State) (e sev l disabled) : (s.dropRecs e sev l disabled).fixed = s.fixed := by simp [State.dropRecs]
@[simp] theorem fixed_issueTo (s : State) (e r sev esc) : (s.issueTo e r sev esc).fixed = s.fixed := by simp [State.issueTo]
@[simp] theorem fixed_issue (s : State) (r) : (s.issue r).st.fixed = s.fixed := by
  unfold State.issue; simp; (repeat' split) <;> simp
@[simp] theorem fixed_giveFid (s : State) (x reason) : (s.giveFid x reason).fixed = s.fixed := by simp [State.giveFid]
@[simp] theorem fixed_raiseFault (s : State) (x reason) : (s.raiseFault x reason).fixed = s.fixed := by simp [State.raiseFault]
@[simp] theorem fixed_modIo (s : State) (i f) : (s.modIo i f).fixed = s.fixed := by simp [State.modIo]
@[simp] theorem fixed_noteUse (s : State) (r p amount) : (s.noteUse r p amount).fixed = s.fixed := by simp [State.noteUse]
@[simp] theorem fixed_wbRead (s : State) (p v n) : (s.wbRead p v n).fixed = s.fixed := by simp [State.wbRead]
@[simp] theorem fixed_advance (n : Nat) (s : State) (id) : (advance n s id).fixed = s.fixed := by
  induction n generalizing s with
  | zero => rfl
  | succ n ih =>
    unfold advance
    split
    · rfl
    · split
      · rfl
      · split
        · (repeat' split) <;> simp
        · dsimp only
          split
          · rfl
          · split
            · simp
            · split
              · rfl
              · simp only [fixed_ite, ih, fixed_modX, fixed_wbRead, fixed_noteUse, fixed_mk, fixed_eta, fixed_modIo, ite_self]
@[simp] theorem fixed_runX (s : State) (id) : (s.runX id).fixed = s.fixed := by unfold State.runX; split <;> simp
@[simp] theorem fixed_newX (s : State) (x) : (s.newX x).fixed = s.fixed := by simp [State.newX]
@[simp] theorem fixed_startX (s : State) (x) : (s.startX x).fixed = s.fixed := by simp [State.startX]
@[simp] theorem fixed_pumpRing (p r chan mk) (n : Nat) (s : State) : (pumpRing p r chan mk n s).fixed = s.fixed := by
  induction n generalizing s with
  | zero => rfl
  | succ n ih => unfold pumpRing; (repeat' split) <;> simp [ih]
@[simp] theorem fixed_pump (s : State) (p) : (s.pump p).fixed = s.fixed := by simp [State.pump]
@[simp] theorem fixed_pumpAll (s : State) : (s.pumpAll).fixed = s.fixed := by simp [State.pumpAll]
@[simp] theorem fixed_startWb (s : State) (p t why job) : (s.startWb p t why job).fixed = s.fixed := by simp [State.startWb]
@[simp] theorem fixed_dropCopy (s : State) (p t) : (s.dropCopy p t).fixed = s.fixed := by simp [State.dropCopy]
@[simp] theorem fixed_evictLoop (p b die isT1 job) (l : List Tensor) (n) (g : Got) : (evictLoop p b die isT1 job l n g).st.fixed = g.st.fixed := by
  induction l generalizing n g with
  | nil => rfl
  | cons t l ih => unfold evictLoop; dsimp only; (repeat' split) <;> simp [ih]
@[simp] theorem fixed_claim (s : State) (p die isT1 job keep need) : (s.claim p die isT1 job keep need).st.fixed = s.fixed := by
  unfold State.claim; (repeat' split) <;> simp
@[simp] theorem fixed_runFrom (s : State) (first) : (s.runFrom first).fixed = s.fixed := by simp [State.runFrom]
@[simp] theorem fixed_reserve (s : State) (j e) : (s.reserve j e).fixed = s.fixed := by simp [State.reserve]
@[simp] theorem fixed_fetchArg (s : State) (j) : (s.fetchArg j).fixed = s.fixed := by simp [State.fetchArg]
@[simp] theorem fixed_admitJob (s : State) (j) : (s.admitJob j).fixed = s.fixed := by simp [State.admitJob]
@[simp] theorem fixed_putCr (s : State) (p r o) : (s.putCr p r o).fixed = s.fixed := by simp [State.putCr]
@[simp] theorem fixed_decideJob (s : State) (p r slot fseq d) : (s.decideJob p r slot fseq d).fixed = s.fixed := by simp [State.decideJob]
@[simp] theorem fixed_charge (s : State) (o) : (s.charge o).fixed = s.fixed := by unfold State.charge; (repeat' split) <;> simp
@[simp] theorem fixed_unit (x : Run) (f) (h : ∀ s, (f s).1.fixed = s.fixed) : (x.unit f).st.fixed = x.st.fixed := by
  unfold Run.unit; split <;> simp [h]
@[simp] theorem fixed_runEach {α : Type} (x : Run) (l : List α) (f) (h : ∀ a s, (f a s).1.fixed = s.fixed) : (x.each l f).st.fixed = x.st.fixed :=
  foldl_keeps (fun y : Run => y.st.fixed) (fun y a => fixed_unit y (f a) (h a)) l x

/-! ### What an engine operation's work does -/

@[simp] theorem fixed_blur (s : State) (u all l bs) : (s.blur u all l bs).1.fixed = s.fixed := by unfold State.blur; split <;> simp
@[simp] theorem fixed_blurHwr (s : State) (p uta n self) : (s.blurHwr p uta n self).fixed = s.fixed := by simp [State.blurHwr]
@[simp] theorem fixed_putMem (s : State) (p uta base bs self) : (s.putMem p uta base bs self).fixed = s.fixed := by simp [State.putMem]
@[simp] theorem fixed_putOut (s : State) (o w l bs deps) : (s.putOut o w l bs deps).fixed = s.fixed := by unfold State.putOut; split <;> simp
@[simp] theorem fixed_putAt (s : State) (o w r b off bs deps) : (s.putAt o w r b off bs deps).fixed = s.fixed := by unfold State.putAt; split <;> simp
@[simp] theorem fixed_storeRow (s0 o w kb t r) (s : State) : (storeRow s0 o w kb t r s).1.fixed = s.fixed := by
  unfold storeRow
  dsimp only
  split
  · rfl
  · refine foldl_keeps (fun x : State × Option EngErr => x.1.fixed) (fun x b => ?_) ..
    (repeat' split) <;> simp
@[simp] theorem fixed_result (x : Run) : x.result.1.fixed = x.st.fixed := rfl
@[simp] theorem fixed_matWork (s : State) (o cut) : (matWork o s cut).1.fixed = s.fixed := by
  refine (foldl_keeps (fun x : Run => x.st.fixed) (fun x t => ?_) ..).trans rfl
  dsimp only
  (repeat' split) <;> simp
@[simp] theorem fixed_modOp (s : State) (id f) : (s.modOp id f).fixed = s.fixed := by simp [State.modOp]
@[simp] theorem fixed_hideNext (s : State) (o) : (s.hideNext o).fixed = s.fixed := by unfold State.hideNext; split <;> simp
@[simp] theorem fixed_xmulWork (s : State) (o cut) : (xmulWork o s cut).1.fixed = s.fixed := by unfold xmulWork; dsimp only; (repeat' split) <;> simp
@[simp] theorem fixed_mvmulWork (s : State) (o cut) : (mvmulWork o s cut).1.fixed = s.fixed := by simp [mvmulWork]
@[simp] theorem fixed_store (s : State) (o w r b off bs deps) : (s.store o w r b off bs deps).1.fixed = s.fixed := by
  unfold State.store; split <;> simp
@[simp] theorem fixed_topkWork (s : State) (o cut) : (topkWork o s cut).1.fixed = s.fixed := by
  unfold topkWork
  dsimp only
  split
  · rfl
  · refine fixed_runEach _ _ _ fun r s => ?_
    (repeat' split) <;> simp
@[simp] theorem fixed_either (s : State) (o w vr rows) : (s.either o w vr rows).1.fixed = s.fixed := by simp [State.either]
@[simp] theorem fixed_chooser (s : State) (o unit vr) : (s.chooser o unit vr).1.fixed = s.fixed := by simp [State.chooser]
@[simp] theorem fixed_loadLuts (s : State) (o uta blk qs) : (s.loadLuts o uta blk qs).fixed = s.fixed := by simp [State.loadLuts]
@[simp] theorem fixed_scanTime (s : State) (o p) : (s.scanTime o p).fixed = s.fixed := by unfold State.scanTime; dsimp only; (repeat' split) <;> simp
@[simp] theorem fixed_lscanWork (s : State) (o cut) : (lscanWork o s cut).1.fixed = s.fixed := by
  unfold lscanWork
  split
  next t w hw =>
    have ht := fixed_of_pair hw (fixed_chooser s o 3 (s.lscanEither o))
    dsimp only
    split
    · exact ht
    · split
      · exact (fixed_unit _ _ fun s => fixed_store ..).trans ht
      · split
        · exact ht
        · split
          · next h =>
            have hs := fixed_of_pair h ((fixed_runEach _ _ _ fun i s => by
              split
              · rfl
              · split
                · rfl
                · exact foldl_keeps (fun y : State × Option EngErr => y.1.fixed) (fun y e => by split <;> simp) ..).trans ((fixed_loadLuts ..).trans ht))
            split <;> simp [hs]
          · exact (fixed_runEach _ _ _ fun i s => by
              split
              · rfl
              · split
                · rfl
                · exact foldl_keeps (fun y : State × Option EngErr => y.1.fixed) (fun y e => by split <;> simp) ..).trans ((fixed_loadLuts ..).trans ht)
@[simp] theorem fixed_mixRow (s : State) (w u bs) : (s.mixRow w u bs).1.fixed = s.fixed := by unfold State.mixRow; split <;> simp
@[simp] theorem fixed_gatIx (s : State) (o w p i) : (gatIx o w p i s).1.fixed = s.fixed := by unfold gatIx; dsimp only; (repeat' split) <;> simp
@[simp] theorem fixed_bufEnd (s : State) (o g b report) : (s.bufEnd o g b report).fixed = s.fixed := by simp [State.bufEnd]
@[simp] theorem fixed_gatWork (s : State) (o cut) : (gatWork o s cut).1.fixed = s.fixed := by
  unfold gatWork
  split
  next t w hw =>
    have ht := fixed_of_pair hw (fixed_chooser s o 4 (s.gatEither o))
    split
    · exact ht
    · refine (fixed_bufEnd ..).trans ((foldl_keeps (fun x : Run × Buf => x.1.st.fixed) (fun x i => ?_) ..).trans ht)
      split <;> simp
@[simp] theorem fixed_kvCopy (s : State) (o w c src dst g) : (kvCopy o w c src dst g s).1.fixed = s.fixed := by
  unfold kvCopy; dsimp only; (repeat' split) <;> simp
@[simp] theorem fixed_modChan (s : State) (p n f) : (s.modChan p n f).fixed = s.fixed := by simp [State.modChan]
@[simp] theorem fixed_compactWork (s : State) (o cut) : (compactWork o s cut).1.fixed = s.fixed := by
  unfold compactWork; dsimp only; (repeat' split) <;> simp
@[simp] theorem fixed_useChan (s : State) (job chan) : (s.useChan job chan).fixed = s.fixed := by simp [State.useChan]
@[simp] theorem fixed_sampDecide (s : State) (o w i r c x deps) : (sampDecide o w i r c x deps s).1.fixed = s.fixed := by
  unfold sampDecide
  dsimp only
  split
  · next t e h => exact fixed_of_pair h (fixed_store ..)
  · next t h => simp [fixed_of_pair h (fixed_store ..)]
@[simp] theorem fixed_sampRow (s : State) (o w barred i) : (sampRow o w barred i s).1.fixed = s.fixed := by
  unfold sampRow; dsimp only; (repeat' split) <;> simp
@[simp] theorem fixed_sampWork (s : State) (o cut) : (sampWork o s cut).1.fixed = s.fixed := by
  unfold sampWork
  split
  next t w hw =>
    refine (foldl_keeps (fun x : SRun => x.run.st.fixed) (fun x i => ?_) ..).trans (fixed_of_pair hw (fixed_chooser s o 5 (s.sampEither o)))
    split <;> simp
@[simp] theorem fixed_putCtx (s : State) (c) : (s.putCtx c).fixed = s.fixed := by simp [State.putCtx]
@[simp] theorem fixed_cacheMerges (s : State) (t p uta slots) : (s.cacheMerges t p uta slots).fixed = s.fixed := by simp [State.cacheMerges]
@[simp] theorem fixed_ttokWork (s : State) (o cut) : (ttokWork o s cut).1.fixed = s.fixed := by
  unfold ttokWork
  split
  next t w hw =>
    have ht := fixed_of_pair hw (fixed_chooser s o 7 (s.rangeAt o o.dB 0 (tBytes o.dB)))
    split
    · dsimp only
      split
      · simp [ht]
      · split
        · rw [fixed_ite]; split <;> simp [ht]
        · split
          · simp [ht]
          · split
            · next h => simp [fixed_of_pair h (fixed_store ..), ht]
            · next h =>
              have hs := fixed_of_pair h (fixed_store ..)
              split <;> simp [hs, ht]
    · exact ht
@[simp] theorem fixed_putDtk (s : State) (d) : (s.putDtk d).fixed = s.fixed := by simp [State.putDtk]
@[simp] theorem fixed_putStream (s : State) (p r op d) : (s.putStream p r op d).fixed = s.fixed := by simp [State.putStream]
@[simp] theorem fixed_putRecs (s : State) (j w op) (l : List DtkRec) (n) : (s.putRecs j w op l n).fixed = s.fixed := by
  induction l generalizing s n with
  | nil => rfl
  | cons p l ih => simp [State.putRecs, ih]
@[simp] theorem fixed_tdtkWork (s : State) (o cut) : (tdtkWork o s cut).1.fixed = s.fixed := by
  unfold tdtkWork
  dsimp only
  split
  · split
    · rfl
    · rfl
    · split
      · rfl
      · split
        · simp [foldl_keeps (fun x : State × List DtkRec => x.1.fixed)]
        · split
          · rfl
          · split
            · rfl
            · rfl
            · simp [foldl_keeps (fun x : State × List DtkRec => x.1.fixed)]
  · rfl
@[simp] theorem fixed_freeBytes (s : State) (n) : (s.freeBytes n).1.fixed = s.fixed := by simp [State.freeBytes]
@[simp] theorem fixed_cvtCount (s : State) (o c) : (s.cvtCount o c).fixed = s.fixed := by simp [State.cvtCount]
@[simp] theorem fixed_mconvRun (s : State) (o cw book src cut) : (mconvRun o cw book src s cut).1.fixed = s.fixed := by
  refine fixed_runEach _ _ _ fun i s => ?_
  (repeat' split) <;> simp
@[simp] theorem fixed_mconvCut (s : State) (o k) : (mconvCut o s k).fixed = s.fixed := by unfold mconvCut; dsimp only; (repeat' split) <;> simp
@[simp] theorem fixed_hrdCut (s : State) (o k) : (hrdCut o s k).fixed = s.fixed := by simp [hrdCut]
@[simp] theorem fixed_opWork (s : State) (o cut) : (opWork o s cut).1.fixed = s.fixed := by unfold opWork; (repeat' split) <;> simp
@[simp] theorem fixed_cutOp (s : State) (o) : (s.cutOp o).fixed = s.fixed := by simp [State.cutOp]
@[simp] theorem fixed_stopOp (s : State) (o) : (s.stopOp o).fixed = s.fixed := by simp [State.stopOp]

/-! ### The ports, the wires between packages, and the ends of jobs -/

@[simp] theorem fixed_modPort (s : State) (k f) : (s.modPort k f).fixed = s.fixed := by simp [State.modPort]
@[simp] theorem fixed_emit (s : State) (k kind f) : (s.emit k kind f).fixed = s.fixed := by simp [State.emit]
@[simp] theorem fixed_freeSlot (s : State) (k v) : (s.freeSlot k v).fixed = s.fixed := by simp [State.freeSlot]
@[simp] theorem fixed_freeInp (s : State) (f) : (s.freeInp f).fixed = s.fixed := by unfold State.freeInp; split <;> simp
@[simp] theorem fixed_sendFlit (s : State) (k f) : (s.sendFlit k f).fixed = s.fixed := by simp [State.sendFlit]
@[simp] theorem fixed_sendData (s : State) (k f) : (s.sendData k f).fixed = s.fixed := by unfold State.sendData; dsimp only; (repeat' split) <;> simp
@[simp] theorem fixed_sendLoop (k) (n : Nat) (s : State) : (sendLoop k n s).fixed = s.fixed := by
  induction n generalizing s with
  | zero => rfl
  | succ n ih => unfold sendLoop; dsimp only; (repeat' split) <;> simp [ih]
@[simp] theorem fixed_pumpPort (s : State) (k) : (s.pumpPort k).fixed = s.fixed := by simp [State.pumpPort]
@[simp] theorem fixed_putFlit (s : State) (k f) : (s.putFlit k f).fixed = s.fixed := by simp [State.putFlit]
@[simp] theorem fixed_sendMsg (s : State) (job dst sptn dptn op xid off vc pay) :
    (s.sendMsg job dst sptn dptn op xid off vc pay).fixed = s.fixed := by
  unfold State.sendMsg; split <;> simp
@[simp] theorem fixed_sendRefuse (s : State) (dst sptn dptn xid reason) : (s.sendRefuse dst sptn dptn xid reason).fixed = s.fixed := by
  simp [State.sendRefuse]
@[simp] theorem fixed_failXfers (s : State) (ops reason) : (s.failXfers ops reason).fixed = s.fixed := by simp [State.failXfers]
@[simp] theorem fixed_endStream (s : State) (j chan ring) : (s.endStream j chan ring).fixed = s.fixed := by simp [State.endStream]
@[simp] theorem fixed_giveBack (s : State) (p c) : (s.giveBack p c).fixed = s.fixed := fixed_each _ _ _ fun s e => by split <;> simp
@[simp] theorem fixed_endPin (s : State) (p id base) : (s.endPin p id base).fixed = s.fixed := by unfold State.endPin; split <;> simp
@[simp] theorem fixed_endPins (s : State) (j) : (s.endPins j).fixed = s.fixed := by simp [State.endPins]
@[simp] theorem fixed_tdEnd (s : State) (p r) : (s.tdEnd p r).fixed = s.fixed := by simp [State.tdEnd]
@[simp] theorem fixed_doDestroy (s : State) (p t) : (s.doDestroy p t).fixed = s.fixed := by simp [State.doDestroy]
@[simp] theorem fixed_goWb (s : State) (p t why job) : (s.goWb p t why job).fixed = s.fixed := by simp [State.goWb]
@[simp] theorem fixed_doFlush (s : State) (p t) : (s.doFlush p t).fixed = s.fixed := by simp [State.doFlush]
@[simp] theorem fixed_tdSettle (s : State) (p) : (s.tdSettle p).fixed = s.fixed := by unfold State.tdSettle; (repeat' split) <;> simp
@[simp] theorem fixed_startLoad (s : State) (p base dest job) : (s.startLoad p base dest job).fixed = s.fixed := by
  unfold State.startLoad; split <;> simp
@[simp] theorem fixed_startNext (p base) (n : Nat) (s : State) : (startNext p base n s).fixed = s.fixed := by
  induction n generalizing s with
  | zero => rfl
  | succ n ih => unfold startNext; dsimp only; (repeat' split) <;> simp [ih]
@[simp] theorem fixed_moveEnded (s : State) (p base) : (s.moveEnded p base).fixed = s.fixed := by simp [State.moveEnded]
@[simp] theorem fixed_abortLoad (s : State) (p base) : (s.abortLoad p base).fixed = s.fixed := by
  unfold State.abortLoad; dsimp only; (repeat' split) <;> simp
@[simp] theorem fixed_abortWb (s : State) (p base) : (s.abortWb p base).fixed = s.fixed := by unfold State.abortWb; (repeat' split) <;> simp
@[simp] theorem fixed_endXfers (s : State) (j) : (s.endXfers j).fixed = s.fixed := by simp [State.endXfers]
@[simp] theorem fixed_promoteLoop (p) (n : Nat) (s : State) : (promoteLoop p n s).fixed = s.fixed := by
  induction n generalizing s with
  | zero => rfl
  | succ n ih => unfold promoteLoop; (repeat' split) <;> simp [ih]
@[simp] theorem fixed_promoteFault (s : State) (p) : (s.promoteFault p).fixed = s.fixed := by simp [State.promoteFault]
@[simp] theorem fixed_vacate (s : State) (p t0 t1) : (s.vacate p t0 t1).fixed = s.fixed := by simp [State.vacate]
@[simp] theorem fixed_closeChans (s : State) (p dead) : (s.closeChans p dead).fixed = s.fixed := by simp [State.closeChans]
@[simp] theorem fixed_recheck (s : State) : (s.recheck).fixed = s.fixed := by simp [State.recheck]
@[simp] theorem fixed_tryRelease (s : State) (p) : (s.tryRelease p).fixed = s.fixed := by simp [State.tryRelease]
@[simp] theorem fixed_tlbIdle (s : State) (p cfg) : (s.tlbIdle p cfg).fixed = s.fixed := by simp [State.tlbIdle]
@[simp] theorem fixed_unbound (s : State) (p cfg) : (s.unbound p cfg).fixed = s.fixed := by simp [State.unbound]
@[simp] theorem fixed_endJob (s : State) (id code errSeq) : (s.endJob id code errSeq).fixed = s.fixed := by
  unfold State.endJob
  split
  · rfl
  · dsimp only
    rw [fixed_settle, fixed_promoteFault, fixed_putCr, fixed_unbound]
    simp only [fixed_ite, fixed_bump, fixed_modJob, ite_self]
    split
    · rw [fixed_giveBack, fixed_endPins, fixed_endXfers, fixed_modP, fixed_mk, fixed_eta]
      simp
    · simp

/-! ### Doorbells, resets, the fatal path, and what an instruction leaves its conductor with -/

@[simp] theorem fixed_dbDrop (s : State) (p) : (s.dbDrop p).fixed = s.fixed := by simp [State.dbDrop]
@[simp] theorem fixed_cancelNow (s : State) (p job) : (s.cancelNow p job).fixed = s.fixed := by simp [State.cancelNow]
@[simp] theorem fixed_decideOne (s : State) (p u) : (s.decideOne p u).fixed = s.fixed := by simp [State.decideOne]
@[simp] theorem fixed_decideAll (p) (n : Nat) (s : State) : (State.decideAll p n s).fixed = s.fixed := by
  induction n generalizing s with
  | zero => rfl
  | succ n ih => unfold State.decideAll; split <;> simp [ih]
@[simp] theorem fixed_decideWaiting (s : State) : (s.decideWaiting).fixed = s.fixed := by simp [State.decideWaiting]
@[simp] theorem fixed_accessNote (s : State) (fn addr) : (s.accessNote fn addr).fixed = s.fixed := by simp [State.accessNote]
@[simp] theorem fixed_gWrite (s : State) (cfg off bytes v) : (s.gWrite cfg off bytes v).fixed = s.fixed := by simp [State.gWrite]
@[simp] theorem fixed_gswapCmd (s : State) : (s.gswapCmd).fixed = s.fixed := by simp [State.gswapCmd]
@[simp] theorem fixed_relockIf (s : State) (b) : (State.dbgWrite.relockIf s b).fixed = s.fixed := by simp [State.dbgWrite.relockIf]
@[simp] theorem fixed_haltCmd (s : State) (mask) : (s.haltCmd mask).fixed = s.fixed := by simp [State.haltCmd]
@[simp] theorem fixed_setHalt (s : State) (c b) : (s.setHalt c b).fixed = s.fixed := by simp [State.setHalt]
@[simp] theorem fixed_trace (s : State) (c src dst) : (s.trace c src dst).fixed = s.fixed := by simp [State.trace]
@[simp] theorem fixed_snapLedger (s : State) : (s.snapLedger).fixed = s.fixed := by simp [State.snapLedger]
@[simp] theorem fixed_freeze (s : State) : (s.freeze).fixed = s.fixed := by simp [State.freeze]
@[simp] theorem fixed_modSw (s : State) (k f) : (s.modSw k f).fixed = s.fixed := by simp [State.modSw]
@[simp] theorem fixed_idlePort (s : State) (k st) : (s.idlePort k st).fixed = s.fixed := by simp [State.idlePort]
@[simp] theorem fixed_dropDrive (s : State) (k cause) : (s.dropDrive k cause).fixed = s.fixed := by simp [State.dropDrive]
@[simp] theorem fixed_noteTrigger (s : State) (cause) : (s.noteTrigger cause).fixed = s.fixed := by simp [State.noteTrigger]
@[simp] theorem fixed_fatal (s : State) (gseq) : (s.fatal gseq).fixed = s.fixed := by simp [State.fatal]
@[simp] theorem fixed_fenceBody (s : State) (p cause errSeq zero reset) : (s.fenceBody p cause errSeq zero reset).fixed = s.fixed := by
  simp [State.fenceBody]
@[simp] theorem fixed_dropHeldEr (s : State) (p) : (s.dropHeldEr p).fixed = s.fixed := by simp [State.dropHeldEr]
@[simp] theorem fixed_fencePtn (s : State) (p cause errSeq) : (s.fencePtn p cause errSeq).fixed = s.fixed := by simp [State.fencePtn]
@[simp] theorem fixed_contain (i : Issued) (p job code cause) : (State.contain i p job code cause).fixed = i.st.fixed := by
  unfold State.contain; (repeat' split) <;> simp
@[simp] theorem fixed_report (s : State) (r job code) : (s.report r job code).fixed = s.fixed := by simp [State.report]
@[simp] theorem fixed_failJob (s : State) (id r) : (s.failJob id r).fixed = s.fixed := by simp [State.failJob]
@[simp] theorem fixed_except (s : State) (job p unit c pc w1 w2 e) : (s.except job p unit c pc w1 w2 e).fixed = s.fixed := by simp [State.except]
theorem keeps_issue {s t : State} {i c p n body} (ht : t.fixed = s.fixed) (h : ∀ j, ResKeeps t (body t j)) : Keeps s (issue i c p n t body) := by
  unfold issue
  dsimp only
  split
  · exact ht
  · next j _ =>
    split
    · exact ht
    · split
      · simp [ht]
      · split
        · simp [ht]
        · have hj := h j
          split <;> simp_all
@[simp] theorem resKeeps_onC (s : State) (c f) : ResKeeps s (onC s c f) := by simp [onC]
@[simp] theorem keeps_aluOp (s : State) (i c o f) : Keeps s (aluOp i c o s f) := keeps_issue rfl fun _ => by simp
@[simp] theorem keeps_execAdd (s : State) (c o) : Keeps s (execAdd c o s) := by simp [execAdd]
@[simp] theorem keeps_execSub (s : State) (c o) : Keeps s (execSub c o s) := by simp [execSub]
@[simp] theorem keeps_execAnd (s : State) (c o) : Keeps s (execAnd c o s) := by simp [execAnd]
@[simp] theorem keeps_execOr (s : State) (c o) : Keeps s (execOr c o s) := by simp [execOr]
@[simp] theorem keeps_execXor (s : State) (c o) : Keeps s (execXor c o s) := by simp [execXor]
@[simp] theorem keeps_execSll (s : State) (c o) : Keeps s (execSll c o s) := by simp [execSll]
@[simp] theorem keeps_execSrl (s : State) (c o) : Keeps s (execSrl c o s) := by simp [execSrl]
@[simp] theorem keeps_execSra (s : State) (c o) : Keeps s (execSra c o s) := by simp [execSra]
@[simp] theorem keeps_execMul (s : State) (c o) : Keeps s (execMul c o s) := by simp [execMul]
@[simp] theorem keeps_execMulh (s : State) (c o) : Keeps s (execMulh c o s) := by simp [execMulh]
@[simp] theorem keeps_execMulhu (s : State) (c o) : Keeps s (execMulhu c o s) := by simp [execMulhu]
@[simp] theorem keeps_execMin (s : State) (c o) : Keeps s (execMin c o s) := by simp [execMin]
@[simp] theorem keeps_execMax (s : State) (c o) : Keeps s (execMax c o s) := by simp [execMax]
@[simp] theorem keeps_execMinu (s : State) (c o) : Keeps s (execMinu c o s) := by simp [execMinu]
@[simp] theorem keeps_execMaxu (s : State) (c o) : Keeps s (execMaxu c o s) := by simp [execMaxu]
@[simp] theorem keeps_aluiOp (s : State) (i c o f) : Keeps s (aluiOp i c o s f) := keeps_issue rfl fun _ => by simp
@[simp] theorem keeps_execAddi (s : State) (c o) : Keeps s (execAddi c o s) := by simp [execAddi]
@[simp] theorem keeps_execAndi (s : State) (c o) : Keeps s (execAndi c o s) := by simp [execAndi]
@[simp] theorem keeps_execOri (s : State) (c o) : Keeps s (execOri c o s) := by simp [execOri]
@[simp] theorem keeps_execXori (s : State) (c o) : Keeps s (execXori c o s) := by simp [execXori]
@[simp] theorem keeps_shiftiOp (s : State) (i c o f) : Keeps s (shiftiOp i c o s f) := keeps_issue rfl fun _ => by simp
@[simp] theorem keeps_execSlli (s : State) (c o) : Keeps s (execSlli c o s) := by simp [execSlli]
@[simp] theorem keeps_execSrli (s : State) (c o) : Keeps s (execSrli c o s) := by simp [execSrli]
@[simp] theorem keeps_execSrai (s : State) (c o) : Keeps s (execSrai c o s) := by simp [execSrai]
@[simp] theorem keeps_execLui (s : State) (c o) : Keeps s (execLui c o s) := keeps_issue rfl fun _ => by simp
@[simp] theorem keeps_cmpOp (s : State) (i c o f) : Keeps s (cmpOp i c o s f) := keeps_issue rfl fun _ => by split <;> simp
@[simp] theorem keeps_execCeq (s : State) (c o) : Keeps s (execCeq c o s) := by simp [execCeq]
@[simp] theorem keeps_execCne (s : State) (c o) : Keeps s (execCne c o s) := by simp [execCne]
@[simp] theorem keeps_execClt (s : State) (c o) : Keeps s (execClt c o s) := by simp [execClt]
@[simp] theorem keeps_execCltu (s : State) (c o) : Keeps s (execCltu c o s) := by simp [execCltu]
@[simp] theorem keeps_execCge (s : State) (c o) : Keeps s (execCge c o s) := by simp [execCge]
@[simp] theorem keeps_execCgeu (s : State) (c o) : Keeps s (execCgeu c o s) := by simp [execCgeu]
@[simp] theorem keeps_predOp (s : State) (i c o f) : Keeps s (predOp i c o s f) := keeps_issue rfl fun _ => by split <;> simp
@[simp] theorem keeps_execPand (s : State) (c o) : Keeps s (execPand c o s) := by simp [execPand]
@[simp] theorem keeps_execPor (s : State) (c o) : Keeps s (execPor c o s) := by simp [execPor]
@[simp] theorem keeps_execPxor (s : State) (c o) : Keeps s (execPxor c o s) := by simp [execPxor]
@[simp] theorem keeps_execPnot (s : State) (c o) : Keeps s (execPnot c o s) := keeps_issue rfl fun _ => by split <;> simp
@[simp] theorem keeps_loadOp (s : State) (i c o n ext) : Keeps s (loadOp i c o s n ext) := keeps_issue rfl fun _ => by split <;> simp
@[simp] theorem keeps_execLdb (s : State) (c o) : Keeps s (execLdb c o s) := by simp [execLdb]
@[simp] theorem keeps_execLdh (s : State) (c o) : Keeps s (execLdh c o s) := by simp [execLdh]
@[simp] theorem keeps_execLdw (s : State) (c o) : Keeps s (execLdw c o s) := by simp [execLdw]
@[simp] theorem keeps_execLdd (s : State) (c o) : Keeps s (execLdd c o s) := by simp [execLdd]
@[simp] theorem keeps_execLdbu (s : State) (c o) : Keeps s (execLdbu c o s) := by simp [execLdbu]
@[simp] theorem keeps_execLdhu (s : State) (c o) : Keeps s (execLdhu c o s) := by simp [execLdhu]
@[simp] theorem keeps_execLdwu (s : State) (c o) : Keeps s (execLdwu c o s) := by simp [execLdwu]
@[simp] theorem fixed_meet1 (s : State) (m) : (s.meet1 m).fixed = s.fixed := by unfold State.meet1; (repeat' split) <;> simp
@[simp] theorem fixed_meet (s : State) (l) : (s.meet l).fixed = s.fixed := by simp [State.meet]
@[simp] theorem fixed_readSoft (s : State) (w l n) : (s.readSoft w l n).1.fixed = s.fixed := by unfold State.readSoft; split <;> simp
@[simp] theorem resKeeps_cndRead (s : State) (c j d b at_ n aligned f) : ResKeeps s (cndRead s c j d b at_ n aligned f) := by
  unfold cndRead
  split
  · simp
  · split
    · simp
    · split
      · simp
      · exact fixed_readSoft ..
@[simp] theorem keeps_execLdx (s : State) (c o m) : Keeps s (execLdx c o s m) :=
  keeps_issue (by simp) fun _ => by (repeat' split) <;> simp
@[simp] theorem keeps_storeOp (s : State) (i c o n) : Keeps s (storeOp i c o s n) := keeps_issue rfl fun _ => by split <;> simp
@[simp] theorem keeps_execStb (s : State) (c o) : Keeps s (execStb c o s) := by simp [execStb]
@[simp] theorem keeps_execSth (s : State) (c o) : Keeps s (execSth c o s) := by simp [execSth]
@[simp] theorem keeps_execStw (s : State) (c o) : Keeps s (execStw c o s) := by simp [execStw]
@[simp] theorem keeps_execStd (s : State) (c o) : Keeps s (execStd c o s) := by simp [execStd]
@[simp] theorem resKeeps_cndWrite (s : State) (j d b at_ bs aligned) : ResKeeps s (cndWrite s j d b at_ bs aligned) := by
  unfold cndWrite; (repeat' split) <;> simp
@[simp] theorem keeps_execStx (s : State) (c o) : Keeps s (execStx c o s) := keeps_issue rfl fun _ => by split <;> simp
@[simp] theorem resKeeps_jumpTo (s : State) (c rd target) : ResKeeps s (jumpTo s c rd target) := by simp [jumpTo]
@[simp] theorem keeps_execJal (s : State) (c o) : Keeps s (execJal c o s) := keeps_issue rfl fun _ => by simp
@[simp] theorem keeps_execJalr (s : State) (c o) : Keeps s (execJalr c o s) := keeps_issue rfl fun _ => by simp
@[simp] theorem keeps_vecOp (s : State) (i c o f) : Keeps s (vecOp i c o s f) := keeps_issue rfl fun _ => by simp
@[simp] theorem keeps_execVadd (s : State) (c o) : Keeps s (execVadd c o s) := by simp [execVadd]
@[simp] theorem keeps_execVadds (s : State) (c o) : Keeps s (execVadds c o s) := by simp [execVadds]
@[simp] theorem keeps_execVsub (s : State) (c o) : Keeps s (execVsub c o s) := by simp [execVsub]
@[simp] theorem keeps_execVmul (s : State) (c o) : Keeps s (execVmul c o s) := by simp [execVmul]
@[simp] theorem keeps_execVmax (s : State) (c o) : Keeps s (execVmax c o s) := by simp [execVmax]
@[simp] theorem keeps_execVmin (s : State) (c o) : Keeps s (execVmin c o s) := by simp [execVmin]
@[simp] theorem keeps_vbitOp (s : State) (i c o f) : Keeps s (vbitOp i c o s f) := keeps_issue rfl fun _ => by simp
@[simp] theorem keeps_execVand (s : State) (c o) : Keeps s (execVand c o s) := by simp [execVand]
@[simp] theorem keeps_execVor (s : State) (c o) : Keeps s (execVor c o s) := by simp [execVor]
@[simp] theorem keeps_execVxor (s : State) (c o) : Keeps s (execVxor c o s) := by simp [execVxor]
@[simp] theorem keeps_execVshl (s : State) (c o) : Keeps s (execVshl c o s) := by simp [execVshl]
@[simp] theorem keeps_execVshr (s : State) (c o) : Keeps s (execVshr c o s) := by simp [execVshr]
@[simp] theorem keeps_execVsplat (s : State) (c o) : Keeps s (execVsplat c o s) := keeps_issue rfl fun _ => by simp
@[simp] theorem keeps_execVext (s : State) (c o) : Keeps s (execVext c o s) := keeps_issue rfl fun _ => by split <;> simp [onC]
@[simp] theorem keeps_vredOp (s : State) (i c o f) : Keeps s (vredOp i c o s f) := keeps_issue rfl fun _ => by simp
@[simp] theorem keeps_execVredadd (s : State) (c o) : Keeps s (execVredadd c o s) := by simp [execVredadd]
@[simp] theorem keeps_execVredmax (s : State) (c o) : Keeps s (execVredmax c o s) := by simp [execVredmax]
@[simp] theorem keeps_execVcmpgt (s : State) (c o) : Keeps s (execVcmpgt c o s) := by simp [execVcmpgt]
@[simp] theorem keeps_execVsel (s : State) (c o) : Keeps s (execVsel c o s) := keeps_issue rfl fun _ => by simp
@[simp] theorem keeps_vlqOp (s : State) (i c o f) : Keeps s (vlqOp i c o s f) := keeps_issue rfl fun _ => by simp
@[simp] theorem keeps_execVexp2 (s : State) (c o) : Keeps s (execVexp2 c o s) := by simp [execVexp2]
@[simp] theorem keeps_execVlog2 (s : State) (c o) : Keeps s (execVlog2 c o s) := by simp [execVlog2]
@[simp] theorem keeps_execVbsort (s : State) (c o) : Keeps s (execVbsort c o s) := keeps_issue rfl fun _ => by simp
@[simp] theorem keeps_execVmov (s : State) (c o) : Keeps s (execVmov c o s) := keeps_issue rfl fun _ => by simp
@[simp] theorem keeps_execVld (s : State) (c o m) : Keeps s (execVld c o s m) :=
  keeps_issue (by simp) fun _ => by (repeat' split) <;> simp
@[simp] theorem keeps_execVst (s : State) (c o) : Keeps s (execVst c o s) := keeps_issue rfl fun _ => by split <;> simp
@[simp] theorem keeps_execDld (s : State) (c o) : Keeps s (execDld c o s) := keeps_issue rfl fun _ => by (repeat' split) <;> simp
@[simp] theorem keeps_execDst (s : State) (c o) : Keeps s (execDst c o s) := keeps_issue rfl fun _ => by (repeat' split) <;> simp
@[simp] theorem keeps_execDsetw (s : State) (c o) : Keeps s (execDsetw c o s) := keeps_issue rfl fun _ => by split <;> simp
@[simp] theorem keeps_execDgetw (s : State) (c o) : Keeps s (execDgetw c o s) := keeps_issue rfl fun _ => by split <;> simp
@[simp] theorem keeps_execDaddo (s : State) (c o) : Keeps s (execDaddo c o s) := keeps_issue rfl fun _ => by split <;> simp
@[simp] theorem keeps_execDmov (s : State) (c o) : Keeps s (execDmov c o s) := keeps_issue rfl fun _ => by split <;> simp
@[simp] theorem keeps_execWait (s : State) (c o) : Keeps s (execWait c o s) := keeps_issue rfl fun _ => by dsimp only; (repeat' split) <;> simp
@[simp] theorem resKeeps_remoteTally (s : State) (i c j word signal v) : ResKeeps s (remoteTally i s c j word signal v) := by simp [remoteTally]
@[simp] theorem keeps_tallyOp (s : State) (i c o signal) : Keeps s (tallyOp i c o s signal) :=
  keeps_issue rfl fun _ => by dsimp only; (repeat' split) <;> simp
@[simp] theorem keeps_execSignal (s : State) (c o) : Keeps s (execSignal c o s) := by simp [execSignal]
@[simp] theorem keeps_execTadd (s : State) (c o) : Keeps s (execTadd c o s) := by simp [execTadd]
@[simp] theorem keeps_execTread (s : State) (c o) : Keeps s (execTread c o s) := keeps_issue rfl fun _ => by (repeat' split) <;> simp
theorem keeps_tenOp {s : State} {i c o tierMax unpin f} (h : ∀ j l, (f s j l).2.fixed = s.fixed) : Keeps s (tenOp i c o s tierMax unpin f) := by
  refine keeps_issue rfl fun j => ?_
  dsimp only
  split
  · trivial
  · split
    · trivial
    · refine (fixed_modC ..).trans ?_
      split
      · rfl
      · split <;> simp [h]
theorem fixed_claimSet {s t : State} {j needs keep l} (h : s.claimSet j needs keep = some (t, l)) : t.fixed = s.fixed := by
  unfold State.claimSet at h
  split at h
  · cases h
    exact foldl_keeps (fun x : State × List Share => x.1.fixed) (fun x n => by simp) ..
  · cases h
theorem fixed_pinSet {s t : State} {j die l} (h : s.pinSet j die l = some t) : t.fixed = s.fixed := by
  unfold State.pinSet at h
  obtain ⟨⟨u, shares⟩, hu, rfl⟩ := Option.map_eq_some_iff.mp h
  simp [fixed_claimSet hu]
@[simp] theorem keeps_execPin (s : State) (c o) : Keeps s (execPin c o s) := keeps_tenOp fun j l => by
  split
  · rfl
  · split
    · next h => exact fixed_pinSet h
    · simp
@[simp] theorem keeps_execUnpin (s : State) (c o) : Keeps s (execUnpin c o s) := keeps_tenOp fun j l => by split <;> rfl
theorem fixed_migSet {s t : State} {j die tier l} (h : s.migSet j die tier l = some t) : t.fixed = s.fixed := by
  unfold State.migSet at h
  dsimp only at h
  split at h
  · split at h
    · cases h
    · cases h
      exact fixed_each _ _ _ fun s t => by simp
  · obtain ⟨⟨u, shares⟩, hu, rfl⟩ := Option.map_eq_some_iff.mp h
    refine (fixed_runFrom ..).trans ((fixed_each _ _ _ fun s t => ?_).trans (fixed_claimSet hu))
    (repeat' split) <;> simp
@[simp] theorem keeps_execMig (s : State) (c o) : Keeps s (execMig c o s) := keeps_tenOp fun j l => by
  split
  · rfl
  · split
    · next h => exact fixed_migSet h
    · simp
@[simp] theorem resKeeps_enqueueOrStall (s : State) (o) : ResKeeps s (enqueueOrStall s o) := by simp [enqueueOrStall]
@[simp] theorem keeps_ringIssue (s : State) (i c o mn ropMax) : Keeps s (ringIssue i c o s mn ropMax) :=
  keeps_issue rfl fun _ => by dsimp only; (repeat' split) <;> simp
@[simp] theorem keeps_execRsend (s : State) (c o) : Keeps s (execRsend c o s) := by simp [execRsend]
@[simp] theorem keeps_execRrecv (s : State) (c o) : Keeps s (execRrecv c o s) := by simp [execRrecv]
@[simp] theorem keeps_execRreduce (s : State) (c o) : Keeps s (execRreduce c o s) := by simp [execRreduce]
@[simp] theorem keeps_engIssue (s : State) (i c o k mn u acc) : Keeps s (engIssue i c o s k mn u acc) := keeps_issue rfl fun _ => by simp
@[simp] theorem keeps_execXmul (s : State) (c o) : Keeps s (execXmul c o s) := by simp [execXmul]
@[simp] theorem keeps_execMvmul (s : State) (c o) : Keeps s (execMvmul c o s) := by simp [execMvmul]
@[simp] theorem keeps_execTopk (s : State) (c o) : Keeps s (execTopk c o s) := by simp [execTopk]
@[simp] theorem keeps_execLscan (s : State) (c o) : Keeps s (execLscan c o s) := by simp [execLscan]
@[simp] theorem keeps_execGath (s : State) (c o) : Keeps s (execGath c o s) := by simp [execGath]
@[simp] theorem keeps_execScat (s : State) (c o) : Keeps s (execScat c o s) := by simp [execScat]
@[simp] theorem fixed_skipHold (s : State) (o) : (s.skipHold o).fixed = s.fixed := by unfold State.skipHold; split <;> simp
@[simp] theorem fixed_own (s : State) (o u) : (s.own o u).fixed = s.fixed := by unfold State.own; split <;> simp
@[simp] theorem fixed_noteExc (s : State) (o cause) : (s.noteExc o cause).fixed = s.fixed := by simp [State.noteExc]
@[simp] theorem fixed_opExcept (s : State) (o e) : (s.opExcept o e).fixed = s.fixed := by simp [State.opExcept]
@[simp] theorem fixed_opFail (s : State) (o e) : (s.opFail o e).fixed = s.fixed := by unfold State.opFail; split <;> simp
@[simp] theorem fixed_opRead (s : State) (o chan iova len) : (s.opRead o chan iova len).fixed = s.fixed := by simp [State.opRead]
@[simp] theorem fixed_mconvGo (s : State) (o) : (mconvGo s o).fixed = s.fixed := by unfold mconvGo; dsimp only; (repeat' split) <;> simp
@[simp] theorem fixed_hrdGo (s : State) (o) : (hrdGo s o).fixed = s.fixed := by simp [hrdGo]
@[simp] theorem fixed_hwrGo (s : State) (o) : (hwrGo s o).fixed = s.fixed := by simp [hwrGo]
@[simp] theorem fixed_kvOpen (s : State) (o k) : (kvOpen s o k).1.fixed = s.fixed := by unfold kvOpen; split <;> simp
@[simp] theorem fixed_kvReserve (s : State) (o k) : (kvReserve s o k).1.fixed = s.fixed := by unfold kvReserve; dsimp only; (repeat' split) <;> simp
@[simp] theorem fixed_kvSetlen (s : State) (o k) : (kvSetlen s o k).1.fixed = s.fixed := by unfold kvSetlen; (repeat' split) <;> simp
@[simp] theorem fixed_kvClose (s : State) (o k) : (kvClose s o k).1.fixed = s.fixed := by unfold kvClose; split <;> simp
@[simp] theorem fixed_kvAct (s : State) (o) : (kvAct o s).1.fixed = s.fixed := by unfold kvAct; dsimp only; (repeat' split) <;> simp
@[simp] theorem fixed_kvGo (s : State) (o) : (kvGo s o).fixed = s.fixed := by
  unfold kvGo
  split
  · split
    · rfl
    · split
      · next h => simp [fixed_of_pair h (fixed_kvAct ..)]
      · next h => simp [fixed_of_pair h (fixed_kvAct ..)]
  · rfl
@[simp] theorem fixed_sendReq (s : State) (t) : (s.sendReq t).fixed = s.fixed := by simp [State.sendReq]
@[simp] theorem fixed_openTx (s : State) (o pass2) : (s.openTx o pass2).fixed = s.fixed := by simp [State.openTx]
@[simp] theorem fixed_tryRingDone (s : State) (op) : (s.tryRingDone op).fixed = s.fixed := by unfold State.tryRingDone; split <;> simp
@[simp] theorem fixed_modRx (s : State) (src xid f) : (s.modRx src xid f).fixed = s.fixed := by simp [State.modRx]
@[simp] theorem fixed_tryRxDone (s : State) (src xid) : (s.tryRxDone src xid).fixed = s.fixed := by unfold State.tryRxDone; split <;> simp
@[simp] theorem fixed_joinReq (s : State) (o q) : (s.joinReq o q).fixed = s.fixed := by unfold State.joinReq; split <;> simp
@[simp] theorem fixed_matchWaiting (s : State) (o) (n : Nat) : (s.matchWaiting o n).fixed = s.fixed := by
  induction n generalizing s with
  | zero => rfl
  | succ n ih => unfold State.matchWaiting; split <;> simp [ih]
@[simp] theorem fixed_ringGo (s : State) (o) : (ringGo s o).fixed = s.fixed := by unfold ringGo; (repeat' split) <;> simp
@[simp] theorem fixed_startGo (s : State) (o) : (startGo s o).fixed = s.fixed := by unfold startGo; split <;> simp
@[simp] theorem fixed_putOn (s : State) (o u) : (s.putOn o u).fixed = s.fixed := by unfold State.putOn; dsimp only; (repeat' split) <;> simp
@[simp] theorem fixed_startHead (s : State) (c k) : (s.startHead c k).fixed = s.fixed := by
  unfold State.startHead; dsimp only; (repeat' split) <;> simp
@[simp] theorem keeps_kvIssue (s : State) (i c o f) : Keeps s (kvIssue i c o s f) := by
  unfold kvIssue
  dsimp only
  split
  · rfl
  · have h := keeps_engIssue s i c o .gse .kvcmp { a := true, b := true, c := false, d := false } false
    split
    · next t ht =>
      rw [ht, keeps_next] at h
      simp [h]
    · exact h
@[simp] theorem keeps_execKvcmpOpen (s : State) (c o) : Keeps s (execKvcmpOpen c o s) := by simp [execKvcmpOpen]
@[simp] theorem keeps_execKvcmpReserve (s : State) (c o) : Keeps s (execKvcmpReserve c o s) := by simp [execKvcmpReserve]
@[simp] theorem keeps_execKvcmpSetlen (s : State) (c o) : Keeps s (execKvcmpSetlen c o s) := by simp [execKvcmpSetlen]
@[simp] theorem keeps_execKvcmpCompact (s : State) (c o) : Keeps s (execKvcmpCompact c o s) := by simp [execKvcmpCompact]
@[simp] theorem keeps_execKvcmpState (s : State) (c o) : Keeps s (execKvcmpState c o s) := by simp [execKvcmpState]
@[simp] theorem keeps_execKvcmpClose (s : State) (c o) : Keeps s (execKvcmpClose c o s) := by simp [execKvcmpClose]
@[simp] theorem keeps_execSamp (s : State) (c o) : Keeps s (execSamp c o s) := by simp [execSamp]
@[simp] theorem keeps_execMconv (s : State) (c o) : Keeps s (execMconv c o s) := by simp [execMconv]
@[simp] theorem keeps_execTtok (s : State) (c o) : Keeps s (execTtok c o s) := by simp [execTtok]
@[simp] theorem keeps_execTdtk (s : State) (c o) : Keeps s (execTdtk c o s) := by simp [execTdtk]
@[simp] theorem keeps_execHrd (s : State) (c o) : Keeps s (execHrd c o s) := by simp [execHrd]
@[simp] theorem keeps_execHwr (s : State) (c o) : Keeps s (execHwr c o s) := by simp [execHwr]
@[simp] theorem keeps_execNop (s : State) (c o) : Keeps s (execNop c o s) := keeps_issue rfl fun _ => by simp
@[simp] theorem keeps_execEndc (s : State) (c o) : Keeps s (execEndc c o s) := keeps_issue rfl fun _ => by simp
@[simp] theorem keeps_execDrain (s : State) (c o) : Keeps s (execDrain c o s) := keeps_issue rfl fun _ => by simp
@[simp] theorem keeps_execTime (s : State) (c o) : Keeps s (execTime c o s) := keeps_issue rfl fun _ => by simp
@[simp] theorem keeps_execCsrr (s : State) (c o) : Keeps s (execCsrr c o s) := keeps_issue rfl fun _ => by split <;> simp
@[simp] theorem keeps_execTrap (s : State) (c o) : Keeps s (execTrap c o s) := keeps_issue rfl fun _ => by simp
theorem keeps_runInsn (s : State) (i) : Keeps s (runInsn i s) := by cases i <;> simp [runInsn]
@[simp] theorem fixed_issueAt (s : State) (c) : (s.issueAt c).fixed = s.fixed := by
  unfold State.issueAt
  dsimp only
  split
  · rfl
  · refine fixed_ite_of rfl (fixed_ite_of (fixed_except ..) ?_)
    split
    · next i _ =>
      have h := keeps_runInsn s i
      split
      · next t ht => rwa [ht] at h
      · rfl
    · exact fixed_ite_of (fixed_modC ..) (fixed_except ..)
@[simp] theorem keeps_execWaitTimeout (s : State) (c) : Keeps s (execWaitTimeout c s) := by
  unfold execWaitTimeout; dsimp only; (repeat' split) <;> simp
@[simp] theorem fixed_stepOne (s : State) (c) : (s.stepOne c).fixed = s.fixed := by
  unfold State.stepOne
  split
  · rfl
  · refine (fixed_setHalt ..).trans ?_
    split
    · simp
    · have h := keeps_execWaitTimeout (s.setHalt c false) c
      split
      · next t ht => rw [ht] at h; simpa using h
      · simp
@[simp] theorem fixed_stepCmd (s : State) (mask) : (s.stepCmd mask).fixed = s.fixed := by simp [State.stepCmd]
@[simp] theorem fixed_dbgWrite (s : State) (off v) : (s.dbgWrite off v).fixed = s.fixed := by simp [State.dbgWrite]
@[simp] theorem fixed_gcrWrite (s : State) (off v) : (s.gcrWrite off v).fixed = s.fixed := by simp [State.gcrWrite]
@[simp] theorem fixed_clkWrite (s : State) (off v) : (s.clkWrite off v).fixed = s.fixed := by unfold State.clkWrite; split <;> simp
@[simp] theorem fixed_platform (s : State) (sev cause detail) : (s.platform sev cause detail).fixed = s.fixed := by simp [State.platform]
@[simp] theorem fixed_shutPtn (s : State) (p) : (s.shutPtn p).fixed = s.fixed := by simp [State.shutPtn]
@[simp] theorem fixed_dropTx (s : State) (xid) : (s.dropTx xid).fixed = s.fixed := by simp [State.dropTx]
@[simp] theorem fixed_failTx (s : State) (t reason tell) : (s.failTx t reason tell).fixed = s.fixed := by
  unfold State.failTx; dsimp only; (repeat' split) <;> simp
@[simp] theorem fixed_dropRx (s : State) (src xid) : (s.dropRx src xid).fixed = s.fixed := by simp [State.dropRx]
@[simp] theorem fixed_failRx (s : State) (r reason tell) : (s.failRx r reason tell).fixed = s.fixed := by
  unfold State.failRx; dsimp only; (repeat' split) <;> simp
@[simp] theorem fixed_sendHop (s : State) (k op vc src pay) : (s.sendHop k op vc src pay).fixed = s.fixed := by unfold State.sendHop; split <;> simp
@[simp] theorem fixed_sendTopo (s : State) (r kind portE portW) : (s.sendTopo r kind portE portW).fixed = s.fixed := by simp [State.sendTopo]
@[simp] theorem fixed_startLeave (s : State) (k) : (s.startLeave k).fixed = s.fixed := by simp [State.startLeave]
@[simp] theorem fixed_shutPair (s : State) (k) : (s.shutPair k).fixed = s.fixed := by simp [State.shutPair]
@[simp] theorem fixed_trigger (s : State) (cause) : (s.trigger cause).fixed = s.fixed := by unfold State.trigger; split <;> simp
@[simp] theorem fixed_shutdownCmd (s : State) (stayOff) : (s.shutdownCmd stayOff).fixed = s.fixed := by simp [State.shutdownCmd]
@[simp] theorem fixed_skipDie (s : State) (d) : (s.skipDie d).fixed = s.fixed := by simp [State.skipDie]
@[simp] theorem fixed_clusterFails (s : State) (c) : (s.clusterFails c).fixed = s.fixed := by unfold State.clusterFails; split <;> simp
@[simp] theorem fixed_clrstCmd (s : State) (mask) : (s.clrstCmd mask).fixed = s.fixed := by simp [State.clrstCmd]
@[simp] theorem fixed_toStage3 (s : State) : (s.toStage3).fixed = s.fixed := by simp [State.toStage3]
@[simp] theorem fixed_goCmd (s : State) : (s.goCmd).fixed = s.fixed := by simp [State.goCmd]
@[simp] theorem fixed_flashCmd (s : State) (op) : (s.flashCmd op).fixed = s.fixed := by simp [State.flashCmd]
@[simp] theorem fixed_pwrWrite (s : State) (off v) : (s.pwrWrite off v).fixed = s.fixed := by simp [State.pwrWrite]
@[simp] theorem fixed_busWrite (s : State) (off v) : (s.busWrite off v).fixed = s.fixed := by unfold State.busWrite; split <;> simp
@[simp] theorem fixed_erDisable (s : State) (e) : (s.erDisable e).fixed = s.fixed := by unfold State.erDisable; (repeat' split) <;> simp
@[simp] theorem fixed_erWrite (s : State) (e o v) : (s.erWrite e o v).fixed = s.fixed := by unfold State.erWrite; split <;> simp
@[simp] theorem fixed_bypassOn (s : State) (k) : (s.bypassOn k).fixed = s.fixed := by simp [State.bypassOn]
@[simp] theorem fixed_tryJoin (s : State) (k) : (s.tryJoin k).fixed = s.fixed := by simp [State.tryJoin]
@[simp] theorem fixed_bypassWrite (s : State) (k b) : (s.bypassWrite k b).fixed = s.fixed := by simp [State.bypassWrite]
@[simp] theorem fixed_holdHead (s : State) (k) : (s.holdHead k).fixed = s.fixed := by unfold State.holdHead; split <;> simp
@[simp] theorem fixed_noteLink (s : State) (k sev cause) : (s.noteLink k sev cause).fixed = s.fixed := by simp [State.noteLink]
@[simp] theorem fixed_unitBytes (s : State) (o t u) : (s.unitBytes o t u).1.fixed = s.fixed := by
  unfold State.unitBytes; dsimp only; (repeat' split) <;> simp
@[simp] theorem fixed_modTx (s : State) (xid f) : (s.modTx xid f).fixed = s.fixed := by simp [State.modTx]
@[simp] theorem fixed_pumpTx (s : State) (xid) : (s.pumpTx xid).fixed = s.fixed := by unfold State.pumpTx; (repeat' split) <;> simp
@[simp] theorem fixed_resend (s : State) (old) : (s.resend old).fixed = s.fixed := by simp [State.resend]
@[simp] theorem fixed_setMap (s : State) (k f) : (s.setMap k f).fixed = s.fixed := by simp [State.setMap]
@[simp] theorem fixed_ownLink (s : State) (k up) : (s.ownLink k up).fixed = s.fixed := by simp [State.ownLink]
@[simp] theorem fixed_linkTopo (s : State) (k up) : (s.linkTopo k up).fixed = s.fixed := by simp [State.linkTopo]
@[simp] theorem fixed_turnAll (s : State) (k head l) : (s.turnAll k head l).fixed = s.fixed := by simp [State.turnAll]
@[simp] theorem fixed_declareDown (s : State) (k cause) : (s.declareDown k cause).fixed = s.fixed := by simp [State.declareDown]
@[simp] theorem fixed_enterRetrain (s : State) (k) : (s.enterRetrain k).fixed = s.fixed := by simp [State.enterRetrain]
@[simp] theorem fixed_portWrite (s : State) (k o v) : (s.portWrite k o v).fixed = s.fixed := by unfold State.portWrite; split <;> simp
@[simp] theorem fixed_dlkWrite (s : State) (off v) : (s.dlkWrite off v).fixed = s.fixed := by simp [State.dlkWrite]
@[simp] theorem fixed_globWrite (s : State) (off v) : (s.globWrite off v).fixed = s.fixed := by unfold State.globWrite; split <;> simp
@[simp] theorem fixed_hostFence (s : State) (p) : (s.hostFence p).fixed = s.fixed := by simp [State.hostFence]
@[simp] theorem fixed_unfence (s : State) (p) : (s.unfence p).fixed = s.fixed := by simp [State.unfence]
@[simp] theorem fixed_resetPtn (s : State) (p) : (s.resetPtn p).fixed = s.fixed := by simp [State.resetPtn]
@[simp] theorem fixed_swapCmd (s : State) (p) : (s.swapCmd p).fixed = s.fixed := by simp [State.swapCmd]
@[simp] theorem fixed_ptnCtrl (s : State) (p v) : (s.ptnCtrl p v).fixed = s.fixed := by simp [State.ptnCtrl]
@[simp] theorem fixed_cfgWrite (s : State) (fn p cfg off bytes v) : (s.cfgWrite fn p cfg off bytes v).fixed = s.fixed := by simp [State.cfgWrite]
@[simp] theorem fixed_sizeRing (s : State) (p ring z) : (s.sizeRing p ring z).fixed = s.fixed := by unfold State.sizeRing; split <;> simp
@[simp] theorem fixed_enableRing (s : State) (p ring) : (s.enableRing p ring).fixed = s.fixed := by unfold State.enableRing; split <;> simp
@[simp] theorem fixed_disableRing (s : State) (p ring) : (s.disableRing p ring).fixed = s.fixed := by unfold State.disableRing; split <;> simp
@[simp] theorem fixed_ctrlWrite (s : State) (p ring v) : (s.ctrlWrite p ring v).fixed = s.fixed := by simp [State.ctrlWrite]
@[simp] theorem fixed_jrWrite (s : State) (p r o v) : (s.jrWrite p r o v).fixed = s.fixed := by unfold State.jrWrite; split <;> simp
@[simp] theorem fixed_srWrite (s : State) (p r o v) : (s.srWrite p r o v).fixed = s.fixed := by unfold State.srWrite; split <;> simp
@[simp] theorem fixed_tdCmd (s : State) (p f) (h : (f s).fixed = s.fixed) : (s.tdCmd p f).fixed = s.fixed := by
  unfold State.tdCmd; split <;> simp [h]
@[simp] theorem fixed_doCreate (s : State) (p) : (s.doCreate p).fixed = s.fixed := by simp [State.doCreate]
@[simp] theorem fixed_orWait (s : State) (p op f) (h : ∀ t, (f s t).fixed = s.fixed) : (s.orWait p op f).fixed = s.fixed := by
  unfold State.orWait; (repeat' split) <;> simp [h]
@[simp] theorem fixed_doQuery (s : State) (p) : (s.doQuery p).fixed = s.fixed := by unfold State.doQuery; split <;> simp
@[simp] theorem fixed_tdOp (s : State) (p op) : (s.tdOp p op).fixed = s.fixed := by unfold State.tdOp; split <;> simp
@[simp] theorem fixed_invStart (s : State) (p hit) : (s.invStart p hit).fixed = s.fixed := by simp [State.invStart]
@[simp] theorem fixed_invCmd (s : State) (p v) : (s.invCmd p v).fixed = s.fixed := by simp [State.invCmd]
@[simp] theorem fixed_memWrite (s : State) (p off v) : (s.memWrite p off v).fixed = s.fixed := by unfold State.memWrite; split <;> simp
@[simp] theorem fixed_kvPoolPut (s : State) (p val) : (kvPoolPut s p val).fixed = s.fixed := by simp [kvPoolPut]
@[simp] theorem fixed_kvGeomPut (s : State) (p val) : (kvGeomPut s p val).fixed = s.fixed := by simp [kvGeomPut]
@[simp] theorem fixed_csCmd (s : State) (p op set) : (csCmd s p op set).fixed = s.fixed := by simp [csCmd]
@[simp] theorem fixed_genWrite (s : State) (p off v) : (s.genWrite p off v).fixed = s.fixed := by unfold State.genWrite; split <;> simp
@[simp] theorem fixed_ptnWrite (s : State) (fn p off v) : (s.ptnWrite fn p off v).fixed = s.fixed := by
  unfold State.ptnWrite; simp; (repeat' split) <;> simp
@[simp] theorem fixed_wordWrite (s : State) (fn off v) : (s.wordWrite fn off v).fixed = s.fixed := by unfold State.wordWrite; split <;> simp
@[simp] theorem fixed_hostWrite (s : State) (fn off bytes val) : (s.hostWrite fn off bytes val).fixed = s.fixed := by simp [State.hostWrite]
@[simp] theorem keeps_execGerHeadDb (s : State) (fn val) : Keeps s (execGerHeadDb fn val s) := by simp [execGerHeadDb]
theorem keeps_doorbell {s : State} {fn f} (h : ∀ p, (f s p).fixed = s.fixed) : Keeps s (.next (s.doorbell fn f)) := by
  unfold State.doorbell; (repeat' split) <;> simp [h]
@[simp] theorem keeps_execJrTailDb (s : State) (fn r val) : Keeps s (execJrTailDb fn r val s) := keeps_doorbell fun p => by simp
@[simp] theorem keeps_execCrHeadDb (s : State) (fn r val) : Keeps s (execCrHeadDb fn r val s) := keeps_doorbell fun p => by simp
@[simp] theorem keeps_execSrHeadDb (s : State) (fn r val) : Keeps s (execSrHeadDb fn r val s) := keeps_doorbell fun p => by simp
@[simp] theorem keeps_execErHeadDb (s : State) (fn val) : Keeps s (execErHeadDb fn val s) := keeps_doorbell fun p => by simp
@[simp] theorem fixed_failJobs (s : State) (l r code) : (s.failJobs l r code).fixed = s.fixed := by simp [State.failJobs]
@[simp] theorem fixed_haltRing (s : State) (p r io addr) : (s.haltRing p r io addr).fixed = s.fixed := by simp [State.haltRing]
@[simp] theorem fixed_mirror (s : State) (p r) : (s.mirror p r).fixed = s.fixed := by simp [State.mirror]
@[simp] theorem fixed_failBatch (s : State) (p r io addr) : (s.failBatch p r io addr).fixed = s.fixed := by simp [State.failBatch]
@[simp] theorem fixed_breakRing (s : State) (x) : (s.breakRing x).fixed = s.fixed := by
  unfold State.breakRing
  dsimp only
  split
  · simp
  · rw [fixed_each _ _ _ fun s id => by split <;> simp]
    simp
  · simp
  · simp
@[simp] theorem fixed_failX (s : State) (x cause detail code) : (s.failX x cause detail code).fixed = s.fixed := by
  unfold State.failX; (repeat' split) <;> simp
@[simp] theorem fixed_failFault (s : State) (p x fid) : (s.failFault p x fid).fixed = s.fixed := by simp [State.failFault]
@[simp] theorem fixed_failDoomed (s : State) : s.failDoomed.fixed = s.fixed := fixed_each _ _ _ fun s o => by split <;> simp
@[simp] theorem fixed_retryX (s : State) (x) : (s.retryX x).fixed = s.fixed := by simp [State.retryX]
@[simp] theorem keeps_execFaultResumeDb (s : State) (fn val) : Keeps s (execFaultResumeDb fn val s) :=
  keeps_doorbell fun p => by dsimp only; split <;> simp
@[simp] theorem fixed_cancelCmd (s : State) (p val) : (s.cancelCmd p val).fixed = s.fixed := by
  unfold State.cancelCmd; dsimp only; (repeat' split) <;> simp
@[simp] theorem keeps_execCancelDb (s : State) (fn val) : Keeps s (execCancelDb fn val s) := keeps_doorbell fun p => by simp
@[simp] theorem keeps_dbAt (s : State) (fn off v) : Keeps s (s.dbAt fn off v) := by unfold State.dbAt; split <;> simp
@[simp] theorem keeps_dbWrite (s : State) (fn off bytes val) : Keeps s (s.dbWrite fn off bytes val) := by simp [State.dbWrite]
@[simp] theorem keeps_execRegisterWrite (s : State) (fn off bytes val sp) : Keeps s (execRegisterWrite fn off bytes val s sp) := by
  unfold execRegisterWrite; split <;> simp
@[simp] theorem fixed_readGt (s : State) (half) : (s.readGt half).1.fixed = s.fixed := by unfold State.readGt; split <;> simp
@[simp] theorem fixed_gtRead (s : State) (fn h) : (s.gtRead fn h).fixed = s.fixed := by simp [State.gtRead]
@[simp] theorem fixed_globClear (s : State) (off) : (s.globClear off).fixed = s.fixed := by unfold State.globClear; split <;> simp
@[simp] theorem fixed_clearAt (s : State) (a) : (s.clearAt a).fixed = s.fixed := by unfold State.clearAt; split <;> simp
@[simp] theorem fixed_regRead (s : State) (fn off bytes) : (s.regRead fn off bytes).fixed = s.fixed := by
  unfold State.regRead
  dsimp only
  split
  · rw [fixed_mk, fixed_eta, fixed_clearAt, fixed_clearAt, fixed_each _ _ _ fixed_noteStall]
  · rw [fixed_mk, fixed_eta, fixed_clearAt, fixed_each _ _ _ fixed_noteStall]
@[simp] theorem fixed_hostRead (s : State) (fn off bytes) : (s.hostRead fn off bytes).fixed = s.fixed := by
  unfold State.hostRead; (repeat' split) <;> simp
@[simp] theorem fixed_dbRead (s : State) (fn off bytes) : (s.dbRead fn off bytes).fixed = s.fixed := by simp [State.dbRead]
@[simp] theorem fixed_configRead (s : State) (fn f) : (s.configRead fn f).fixed = s.fixed := by simp [State.configRead]
@[simp] theorem keeps_execRcRegisterRead (s : State) (fn off bytes sp) : Keeps s (execRcRegisterRead fn off bytes s sp) := by
  unfold execRcRegisterRead; split <;> simp

/-! ### The commands from outside -/

@[simp] theorem keeps_execGtNowRead (s : State) (fn half) : Keeps s (execGtNowRead fn half s) := by simp [execGtNowRead]
@[simp] theorem keeps_execFetchBatch (s : State) (p r) : Keeps s (execFetchBatch p r s) := by simp [execFetchBatch]
@[simp] theorem keeps_execDescriptorArrival (s : State) (p r d wait) : Keeps s (execDescriptorArrival p r d s wait) := by
  unfold execDescriptorArrival; (repeat' split) <;> simp
@[simp] theorem keeps_execArgBlockFetched (s : State) (job d) : Keeps s (execArgBlockFetched job d s) := by
  unfold execArgBlockFetched; (repeat' split) <;> simp
@[simp] theorem fixed_startJob (s : State) (j cs im e) : (s.startJob j cs im e).fixed = s.fixed := by simp [State.startJob]
@[simp] theorem keeps_execJobStart (s : State) (p m) : Keeps s (execJobStart p s m) := by unfold execJobStart; dsimp only; (repeat' split) <;> simp
@[simp] theorem keeps_execDeferPromote (s : State) (p cls) : Keeps s (execDeferPromote p cls s) := by unfold execDeferPromote; split <;> simp
@[simp] theorem keeps_execDeadlineExpiry (s : State) (job) : Keeps s (execDeadlineExpiry job s) := by unfold execDeadlineExpiry; split <;> simp
@[simp] theorem keeps_execJobFinalCompletion (s : State) (job) : Keeps s (execJobFinalCompletion job s) := by
  unfold execJobFinalCompletion; split <;> simp
@[simp] theorem keeps_execRingEnable (s : State) (fn p ring size) : Keeps s (execRingEnable fn p ring size s) := by simp [execRingEnable]
@[simp] theorem keeps_execRingDisable (s : State) (fn p ring) : Keeps s (execRingDisable fn p ring s) := by simp [execRingDisable]
@[simp] theorem keeps_execErrorRingDisable (s : State) (fn p) : Keeps s (execErrorRingDisable fn p s) := by simp [execErrorRingDisable]
@[simp] theorem keeps_execFunctionLevelReset (s : State) (fn) : Keeps s (execFunctionLevelReset fn s) := by
  unfold execFunctionLevelReset; (repeat' split) <;> simp
@[simp] theorem fixed_linkDown (s : State) (io) : (s.linkDown io).fixed = s.fixed := by simp [State.linkDown]
@[simp] theorem keeps_execHostLinkDown (s : State) (io) : Keeps s (execHostLinkDown io s) := by simp [execHostLinkDown]
@[simp] theorem fixed_gerStop (s : State) : (s.gerStop).fixed = s.fixed := by simp [State.gerStop]
@[simp] theorem keeps_execLinkLossTimeout (s : State) (io) : Keeps s (execLinkLossTimeout io s) := by unfold execLinkLossTimeout; split <;> simp
@[simp] theorem keeps_execPerst1Assert (s : State) : Keeps s (execPerst1Assert s) := by simp [execPerst1Assert]
@[simp] theorem keeps_execEngineOpStart (s : State) (c k m) : Keeps s (execEngineOpStart c k s m) := by simp [execEngineOpStart]
@[simp] theorem fixed_opEnd (s : State) (o e) : (s.opEnd o e).fixed = s.fixed := by unfold State.opEnd; split <;> simp
@[simp] theorem keeps_engDone (s : State) (id mn parity m) : Keeps s (engDone s id mn parity m) := by
  unfold engDone; dsimp only; (repeat' split) <;> simp
@[simp] theorem keeps_execXmulDone (s : State) (op parity m) : Keeps s (execXmulDone op parity s m) := by simp [execXmulDone]
@[simp] theorem keeps_execMvmulDone (s : State) (op parity m) : Keeps s (execMvmulDone op parity s m) := by simp [execMvmulDone]
@[simp] theorem keeps_execTopkDone (s : State) (op parity m) : Keeps s (execTopkDone op parity s m) := by simp [execTopkDone]
@[simp] theorem keeps_execLscanDone (s : State) (op parity m) : Keeps s (execLscanDone op parity s m) := by simp [execLscanDone]
@[simp] theorem keeps_execGathDone (s : State) (op parity m) : Keeps s (execGathDone op parity s m) := by simp [execGathDone]
@[simp] theorem keeps_execScatDone (s : State) (op parity m) : Keeps s (execScatDone op parity s m) := by simp [execScatDone]
@[simp] theorem keeps_execCompactDone (s : State) (op parity m) : Keeps s (execCompactDone op parity s m) := by simp [execCompactDone]
@[simp] theorem keeps_execSampDone (s : State) (op parity m) : Keeps s (execSampDone op parity s m) := by simp [execSampDone]
@[simp] theorem fixed_dropXfers (s : State) (id) : (s.dropXfers id).fixed = s.fixed := by simp [State.dropXfers]
@[simp] theorem fixed_mconvT2 (s : State) (o cw book src) : (mconvT2 o cw book src s).1.fixed = s.fixed := by
  refine foldl_keeps (fun x : State × List Byte × Option EngErr => x.1.fixed) (fun x i => ?_) ..
  (repeat' split) <;> simp
@[simp] theorem fixed_sendT2 (s : State) (o iova bs e) : (s.sendT2 o iova bs e).fixed = s.fixed := by simp [State.sendT2]
@[simp] theorem fixed_mconvEnd (s : State) (o cw book src) : (s.mconvEnd o cw book src).fixed = s.fixed := by
  unfold State.mconvEnd; split <;> simp
@[simp] theorem fixed_mconvGot (s : State) (o cw src cb) : (s.mconvGot o cw src cb).fixed = s.fixed := by
  unfold State.mconvGot
  dsimp only
  split
  · simp
  · simp
  · rw [fixed_ite]
    (repeat' split) <;> simp
@[simp] theorem keeps_execMconvDone (s : State) (op parity src cb m) : Keeps s (execMconvDone op parity src cb s m) := by
  unfold execMconvDone; dsimp only; (repeat' split) <;> simp
@[simp] theorem keeps_execTtokDone (s : State) (op parity m) : Keeps s (execTtokDone op parity s m) := by simp [execTtokDone]
@[simp] theorem keeps_execTdtkDone (s : State) (op parity m) : Keeps s (execTdtkDone op parity s m) := by simp [execTdtkDone]
@[simp] theorem keeps_execHrdDone (s : State) (op d m) : Keeps s (execHrdDone op d s m) := by unfold execHrdDone; dsimp only; (repeat' split) <;> simp
@[simp] theorem keeps_execHwrDone (s : State) (op m) : Keeps s (execHwrDone op s m) := by unfold execHwrDone; dsimp only; (repeat' split) <;> simp
@[simp] theorem fixed_readFailed (s : State) (jobs iova unit) : (s.readFailed jobs iova unit).fixed = s.fixed := by simp [State.readFailed]
@[simp] theorem keeps_loadEnd (s : State) (p base d t x) : Keeps s (s.loadEnd p base d t x) := by unfold State.loadEnd; split <;> simp
@[simp] theorem keeps_execMgeLoadDone (s : State) (p base d m) : Keeps s (execMgeLoadDone p base d s m) := by
  unfold execMgeLoadDone
  split
  · rfl
  · dsimp only
    split
    · exact (keeps_loadEnd ..).of_fixed (fixed_meet ..)
    · simp
@[simp] theorem fixed_writeEnd (s : State) (p base t x) : (s.writeEnd p base t x).fixed = s.fixed := by
  unfold State.writeEnd; (repeat' split) <;> simp
@[simp] theorem keeps_execWritebackDone (s : State) (p base m) : Keeps s (execWritebackDone p base s m) := by
  unfold execWritebackDone; dsimp only; (repeat' split) <;> simp
@[simp] theorem keeps_execMoveDone (s : State) (p base m) : Keeps s (execMoveDone p base s m) := by
  unfold execMoveDone; dsimp only; (repeat' split) <;> simp
@[simp] theorem keeps_execPageWalkDone (s : State) (p cfg page w) : Keeps s (execPageWalkDone p cfg page w s) := by
  unfold execPageWalkDone
  dsimp only
  split
  · rfl
  · split
    · simp
    · split <;> simp
@[simp] theorem keeps_execFaultHoldExpiry (s : State) (p fid) : Keeps s (execFaultHoldExpiry p fid s) := by
  unfold execFaultHoldExpiry; (repeat' split) <;> simp
@[simp] theorem keeps_execIotlbInvRange (s : State) (fn p) : Keeps s (execIotlbInvRange fn p s) := by simp [execIotlbInvRange]
@[simp] theorem keeps_execIotlbInvAll (s : State) (fn p) : Keeps s (execIotlbInvAll fn p s) := by simp [execIotlbInvAll]
@[simp] theorem keeps_execIotlbInvDone (s : State) (p) : Keeps s (execIotlbInvDone p s) := by simp [execIotlbInvDone]
@[simp] theorem keeps_execCreate (s : State) (fn p) : Keeps s (execCreate fn p s) := by simp [execCreate]
@[simp] theorem keeps_execDestroy (s : State) (fn p) : Keeps s (execDestroy fn p s) := by simp [execDestroy]
@[simp] theorem keeps_execQuery (s : State) (fn p) : Keeps s (execQuery fn p s) := by simp [execQuery]
@[simp] theorem keeps_execFlush (s : State) (fn p) : Keeps s (execFlush fn p s) := by simp [execFlush]
@[simp] theorem fixed_zeroOwned (s : State) (z) : (s.zeroOwned z).fixed = s.fixed := by simp [State.zeroOwned]
@[simp] theorem fixed_createEnd (s : State) (p) : (s.createEnd p).fixed = s.fixed := by unfold State.createEnd; split <;> simp
@[simp] theorem fixed_resetPtnRegs (s : State) (p) : (s.resetPtnRegs p).fixed = s.fixed := by simp [State.resetPtnRegs]
@[simp] theorem fixed_kick (s : State) : (s.kick).fixed = s.fixed := by simp [State.kick]
@[simp] theorem keeps_execZeroingComplete (s : State) (p) : Keeps s (execZeroingComplete p s) := by
  unfold execZeroingComplete; (repeat' split) <;> simp
@[simp] theorem keeps_execKvPoolWrite (s : State) (fn p val) : Keeps s (execKvPoolWrite fn p val s) := by simp [execKvPoolWrite]
@[simp] theorem keeps_execKvGeomWrite (s : State) (fn p val) : Keeps s (execKvGeomWrite fn p val s) := by simp [execKvGeomWrite]
@[simp] theorem keeps_execLoad (s : State) (fn p set) : Keeps s (execLoad fn p set s) := by simp [execLoad]
@[simp] theorem keeps_execUnload (s : State) (fn p set) : Keeps s (execUnload fn p set s) := by simp [execUnload]
@[simp] theorem keeps_execCsLoadDone (s : State) (p m) : Keeps s (execCsLoadDone p s m) := by simp [execCsLoadDone]
@[simp] theorem keeps_execCsUnloadDone (s : State) (p) : Keeps s (execCsUnloadDone p s) := by simp [execCsUnloadDone]
@[simp] theorem keeps_execCfgWindowWrite (s : State) (fn p cfg off bytes val) : Keeps s (execCfgWindowWrite fn p cfg off bytes val s) := by
  unfold execCfgWindowWrite; (repeat' split) <;> simp
@[simp] theorem keeps_execFence (s : State) (fn p) : Keeps s (execFence fn p s) := by simp [execFence]
@[simp] theorem keeps_execUnfence (s : State) (fn p) : Keeps s (execUnfence fn p s) := by simp [execUnfence]
@[simp] theorem keeps_execPartitionReset (s : State) (fn p) : Keeps s (execPartitionReset fn p s) := by simp [execPartitionReset]
@[simp] theorem keeps_execSwap (s : State) (fn p) : Keeps s (execSwap fn p s) := by simp [execSwap]
@[simp] theorem keeps_execSwapCancel (s : State) (fn p) : Keeps s (execSwapCancel fn p s) := by simp [execSwapCancel]
@[simp] theorem keeps_execSwapValidationDone (s : State) (p img) : Keeps s (execSwapValidationDone p img s) := by
  unfold execSwapValidationDone; dsimp only; (repeat' split) <;> simp
@[simp] theorem keeps_execSwapTakeEffect (s : State) (p) : Keeps s (execSwapTakeEffect p s) := by simp [execSwapTakeEffect]
@[simp] theorem keeps_execGswap (s : State) (fn) : Keeps s (execGswap fn s) := by simp [execGswap]
@[simp] theorem fixed_noteHeat (s : State) : (s.noteHeat).fixed = s.fixed := by simp [State.noteHeat]
@[simp] theorem fixed_roleChange (s : State) : (s.roleChange).fixed = s.fixed := by simp [State.roleChange]
@[simp] theorem fixed_retarget (s : State) : (s.retarget).fixed = s.fixed := by simp [State.retarget]
@[simp] theorem fixed_rotChange (s : State) (old) : (s.rotChange old).fixed = s.fixed := by simp [State.rotChange]
@[simp] theorem keeps_execGswapTakeEffect (s : State) : Keeps s (execGswapTakeEffect s) := by simp [execGswapTakeEffect]
@[simp] theorem keeps_execGtSet (s : State) (fn val) : Keeps s (execGtSet fn val s) := by simp [execGtSet]
@[simp] theorem keeps_execCclkStep (s : State) : Keeps s (execCclkStep s) := by simp [execCclkStep]
@[simp] theorem keeps_execTimeExchange (s : State) (port) : Keeps s (execTimeExchange port s) := by simp [execTimeExchange]
@[simp] theorem keeps_execTimeMsg (s : State) (port neighbour delay) : Keeps s (execTimeMsg port neighbour delay s) := by simp [execTimeMsg]
@[simp] theorem keeps_execHoldoverTimeout (s : State) : Keeps s (execHoldoverTimeout s) := by simp [execHoldoverTimeout]
@[simp] theorem keeps_execPllLockLoss (s : State) (dom) : Keeps s (execPllLockLoss dom s) := by unfold execPllLockLoss; (repeat' split) <;> simp
@[simp] theorem keeps_execOscillatorStop (s : State) : Keeps s (execOscillatorStop s) := by simp [execOscillatorStop]
@[simp] theorem keeps_execFabricError (s : State) (link corrected) : Keeps s (execFabricError link corrected s) := by simp [execFabricError]
@[simp] theorem keeps_execErAck (s : State) (fn p seq) : Keeps s (execErAck fn p seq s) := by simp [execErAck]
@[simp] theorem keeps_execGerAck (s : State) (fn seq) : Keeps s (execGerAck fn seq s) := by simp [execGerAck]
@[simp] theorem fixed_replayAll (s : State) (k) : (s.replayAll k).fixed = s.fixed := by simp [State.replayAll]
@[simp] theorem fixed_replay (s : State) (k) : (s.replay k).fixed = s.fixed := by simp [State.replay]
@[simp] theorem fixed_ringBad (s : State) : (s.ringBad).fixed = s.fixed := by simp [State.ringBad]
@[simp] theorem fixed_tryLeave (s : State) (k) : (s.tryLeave k).fixed = s.fixed := by simp [State.tryLeave]
@[simp] theorem fixed_leaveDone (s : State) (r lport) : (s.leaveDone r lport).fixed = s.fixed := by simp [State.leaveDone]
@[simp] theorem fixed_markLink (s : State) (k b east up) : (s.markLink k b east up).fixed = s.fixed := by simp [State.markLink]
@[simp] theorem fixed_topoOn (s : State) (k kind dev pos lport) : (s.topoOn k kind dev pos lport).fixed = s.fixed := by
  unfold State.topoOn; split <;> simp
@[simp] theorem fixed_passOn (s : State) (port op vc pay src) : (s.passOn port op vc pay src).fixed = s.fixed := by simp [State.passOn]
@[simp] theorem fixed_topoMsg (s : State) (port kind dev lport) : (s.topoMsg port kind dev lport).fixed = s.fixed := by
  unfold State.topoMsg; dsimp only; (repeat' split) <;> simp
@[simp] theorem fixed_stateMsg (s : State) (port src ports) : (s.stateMsg port src ports).fixed = s.fixed := by
  unfold State.stateMsg; dsimp only; (repeat' split) <;> simp
@[simp] theorem fixed_reqMsg (s : State) (q) : (s.reqMsg q).fixed = s.fixed := by unfold State.reqMsg; (repeat' split) <;> simp
@[simp] theorem fixed_grantMsg (s : State) (src xid first n) : (s.grantMsg src xid first n).fixed = s.fixed := by
  unfold State.grantMsg; split <;> simp
@[simp] theorem fixed_sendRange (s : State) (op r first n) : (s.sendRange op r first n).fixed = s.fixed := by simp [State.sendRange]
@[simp] theorem fixed_drain (s : State) (r k) : (s.drain r k).fixed = s.fixed := by simp [State.drain]
@[simp] theorem fixed_takeEntry (s : State) (o r k) : (s.takeEntry o r k).1.fixed = s.fixed := by
  unfold State.takeEntry; dsimp only; (repeat' split) <;> simp
@[simp] theorem fixed_takeEntries (s : State) (o src xid) (l : List Nat) : (s.takeEntries o src xid l).1.fixed = s.fixed := by
  induction l generalizing s with
  | nil => rfl
  | cons k l ih =>
    unfold State.takeEntries
    split
    · rfl
    · split
      · split
        · next h => exact fixed_of_pair h (fixed_takeEntry ..)
        · next h => exact (ih _).trans (fixed_of_pair h (fixed_takeEntry ..))
      · exact ih s
@[simp] theorem fixed_pumpOpTx (s : State) (op) : (s.pumpOpTx op).fixed = s.fixed := by simp [State.pumpOpTx]
@[simp] theorem fixed_dataMsg (s : State) (src xid u pay) : (s.dataMsg src xid u pay).fixed = s.fixed := by
  unfold State.dataMsg
  split
  · rfl
  · dsimp only
    split
    · simp
    · split
      · rfl
      · split
        · rfl
        · split
          · next h => simp [fixed_of_pair h (fixed_takeEntries ..)]
          · next h => simp [fixed_of_pair h (fixed_takeEntries ..)]
@[simp] theorem fixed_xackMsg (s : State) (src xid first n) : (s.xackMsg src xid first n).fixed = s.fixed := by
  unfold State.xackMsg; dsimp only; (repeat' split) <;> simp
theorem fixed_tallyRefused {s t : State} {src xid} (h : s.tallyRefused src xid = some t) : t.fixed = s.fixed := by
  unfold State.tallyRefused at h
  obtain ⟨x, _, rfl⟩ := Option.map_eq_some_iff.mp h
  dsimp only
  split <;> simp
@[simp] theorem fixed_xferRefused (s : State) (src dptn xid reason) : (s.xferRefused src dptn xid reason).fixed = s.fixed := by
  unfold State.xferRefused; (repeat' split) <;> simp
@[simp] theorem fixed_refuseMsg (s : State) (src dptn xid reason) : (s.refuseMsg src dptn xid reason).fixed = s.fixed := by
  unfold State.refuseMsg
  split
  · next t h =>
    split at h
    · exact fixed_tallyRefused h
    · cases h
  · simp
@[simp] theorem fixed_tallyMsg (s : State) (src sptn dptn xid t signal v) : (s.tallyMsg src sptn dptn xid t signal v).fixed = s.fixed := by
  simp [State.tallyMsg]
@[simp] theorem fixed_deliver (s : State) (port h pay) : (s.deliver port h pay).fixed = s.fixed := by unfold State.deliver; (repeat' split) <;> simp
@[simp] theorem fixed_forward (s : State) (port f) : (s.forward port f).fixed = s.fixed := by
  unfold State.forward; dsimp only; (repeat' split) <;> simp
@[simp] theorem fixed_takeData (s : State) (port v h pay) : (s.takeData port v h pay).fixed = s.fixed := by simp [State.takeData]
@[simp] theorem fixed_mismatch (s : State) (cls) : (s.mismatch cls).fixed = s.fixed := by simp [State.mismatch]
@[simp] theorem fixed_audit0 (s : State) : (s.audit0).fixed = s.fixed := by simp [State.audit0]
@[simp] theorem fixed_tryLeaves (s : State) : (s.tryLeaves).fixed = s.fixed := by simp [State.tryLeaves]
@[simp] theorem fixed_pumpPorts (s : State) : (s.pumpPorts).fixed = s.fixed := by simp [State.pumpPorts]
@[simp] theorem keeps_execFlitReceived (s : State) (port flit shared first bufErr) : Keeps s (execFlitReceived port flit shared first s bufErr) := by
  simp [execFlitReceived]
@[simp] theorem keeps_execReplayTimeout (s : State) (port) : Keeps s (execReplayTimeout port s) := by simp [execReplayTimeout]
@[simp] theorem keeps_execDlkErrThreshold (s : State) (port th) : Keeps s (execDlkErrThreshold port th s) := by
  unfold execDlkErrThreshold; split <;> simp
@[simp] theorem keeps_execSignalLoss (s : State) (port) : Keeps s (execSignalLoss port s) := by simp [execSignalLoss]
@[simp] theorem keeps_execTrainingPatternDetected (s : State) (port) : Keeps s (execTrainingPatternDetected port s) := by
  simp [execTrainingPatternDetected]
@[simp] theorem keeps_execAutoTrainingTimer (s : State) (port) : Keeps s (execAutoTrainingTimer port s) := by simp [execAutoTrainingTimer]
@[simp] theorem fixed_nameSelf (s : State) (k) : (s.nameSelf k).fixed = s.fixed := by simp [State.nameSelf]
@[simp] theorem fixed_ownLinks (s : State) (k) : (s.ownLinks k).fixed = s.fixed := by simp [State.ownLinks]
@[simp] theorem fixed_tryJoined (s : State) (k) : (s.tryJoined k).fixed = s.fixed := by simp [State.tryJoined]
@[simp] theorem fixed_comeUp (s : State) (k peer pos size span loss) : (s.comeUp k peer pos size span loss).fixed = s.fixed := by simp [State.comeUp]
@[simp] theorem fixed_exchange (s : State) (k peer pos size loss count) : (s.exchange k peer pos size loss count).fixed = s.fixed := by
  simp [State.exchange]
@[simp] theorem keeps_execRetrainAttemptDone (s : State) (port r) : Keeps s (execRetrainAttemptDone port r s) := by
  unfold execRetrainAttemptDone; split <;> simp
@[simp] theorem keeps_execFullTrainingDone (s : State) (port r) : Keeps s (execFullTrainingDone port r s) := by
  unfold execFullTrainingDone; dsimp only; (repeat' split) <;> simp
@[simp] theorem keeps_execRetrain (s : State) (fn port) : Keeps s (execRetrain fn port s) := by simp [execRetrain]
@[simp] theorem keeps_execBypass (s : State) (fn sw) : Keeps s (execBypass fn sw s) := by simp [execBypass]
@[simp] theorem fixed_joinFailed (s : State) (k cause) : (s.joinFailed k cause).fixed = s.fixed := by simp [State.joinFailed]
@[simp] theorem keeps_execJoinWindowExpiry (s : State) (pair) : Keeps s (execJoinWindowExpiry pair s) := by simp [execJoinWindowExpiry]
@[simp] theorem keeps_execSwitchSenseTimeout (s : State) (pair) : Keeps s (execSwitchSenseTimeout pair s) := by simp [execSwitchSenseTimeout]
@[simp] theorem keeps_execPairDownTimeout (s : State) (pair) : Keeps s (execPairDownTimeout pair s) := by simp [execPairDownTimeout]
@[simp] theorem keeps_execReq (s : State) (h len tag vc rop fmt rank) : Keeps s (execReq h len tag vc rop fmt rank s) := by simp [execReq]
@[simp] theorem keeps_execReqRetry (s : State) (xid) : Keeps s (execReqRetry xid s) := by unfold execReqRetry; split <;> simp
@[simp] theorem keeps_execGrantIssue (s : State) (src xid) : Keeps s (execGrantIssue src xid s) := by unfold execGrantIssue; (repeat' split) <;> simp
@[simp] theorem keeps_execGrant (s : State) (h first n) : Keeps s (execGrant h first n s) := by simp [execGrant]
@[simp] theorem keeps_execData (s : State) (h off payload) : Keeps s (execData h off payload s) := by simp [execData]
@[simp] theorem keeps_execXack (s : State) (h first n) : Keeps s (execXack h first n s) := by simp [execXack]
@[simp] theorem keeps_execRefuse (s : State) (h reason) : Keeps s (execRefuse h reason s) := by simp [execRefuse]
@[simp] theorem keeps_execTally (s : State) (h t signal val) : Keeps s (execTally h t signal val s) := by simp [execTally]
@[simp] theorem keeps_execTopo (s : State) (port kind dev lport) : Keeps s (execTopo port kind dev lport s) := by simp [execTopo]
@[simp] theorem keeps_execState (s : State) (port src ports) : Keeps s (execState port src ports s) := by simp [execState]
@[simp] theorem keeps_execStateBroadcast (s : State) : Keeps s (execStateBroadcast s) := by simp [execStateBroadcast]
@[simp] theorem keeps_execXferTimeout (s : State) (xid sender partner) : Keeps s (execXferTimeout xid sender partner s) := by
  unfold execXferTimeout; (repeat' split) <;> simp
@[simp] theorem keeps_execHopAudit (s : State) (port peerFree inFlight) : Keeps s (execHopAudit port peerFree inFlight s) := by simp [execHopAudit]
@[simp] theorem keeps_execCreditReclaim (s : State) (port) : Keeps s (execCreditReclaim port s) := by simp [execCreditReclaim]
@[simp] theorem keeps_execLeaveTimeout (s : State) (pair) : Keeps s (execLeaveTimeout pair s) := by simp [execLeaveTimeout]
@[simp] theorem fixed_standby (s : State) (vsb) : (s.standby vsb).fixed = s.fixed := by simp [State.standby]
@[simp] theorem keeps_execVsbUp (s : State) (addr autoOn testMode pwrEn pwrWarn) : Keeps s (execVsbUp addr autoOn testMode pwrEn pwrWarn s) := by
  simp [execVsbUp]
@[simp] theorem keeps_execVsbLoss (s : State) : Keeps s (execVsbLoss s) := by simp [execVsbLoss]
@[simp] theorem fixed_clearPowered (s : State) (cause) : (s.clearPowered cause).fixed = s.fixed := by simp [State.clearPowered]
@[simp] theorem fixed_powerOn (s : State) : (s.powerOn).fixed = s.fixed := by simp [State.powerOn]
@[simp] theorem keeps_execStartCondition (s : State) (recovery) : Keeps s (execStartCondition recovery s) := by simp [execStartCondition]
@[simp] theorem fixed_unitFails (s : State) (unit) : (s.unitFails unit).fixed = s.fixed := by simp [State.unitFails]
@[simp] theorem fixed_toRecovery (s : State) : (s.toRecovery).fixed = s.fixed := by simp [State.toRecovery]
@[simp] theorem fixed_slotFails (s : State) (code) : (s.slotFails code).fixed = s.fixed := by simp [State.slotFails]
@[simp] theorem keeps_execStartupStageDone (s : State) (r) : Keeps s (execStartupStageDone r s) := by
  unfold execStartupStageDone
  dsimp only
  rw [keeps_next]
  split
  · rfl
  · split
    · simp
    · simp
    · rfl
    · simp
    · rfl
    · split <;> simp
    · rfl
    · rfl
@[simp] theorem keeps_execPwrEnRise (s : State) : Keeps s (execPwrEnRise s) := by simp [execPwrEnRise]
@[simp] theorem keeps_execPwrEnFall (s : State) : Keeps s (execPwrEnFall s) := by simp [execPwrEnFall]
@[simp] theorem keeps_execPwrWarnAssert (s : State) : Keeps s (execPwrWarnAssert s) := by simp [execPwrWarnAssert]
@[simp] theorem keeps_execPwrWarnDeassert (s : State) : Keeps s (execPwrWarnDeassert s) := by simp [execPwrWarnDeassert]
@[simp] theorem keeps_execVinOutOfRange (s : State) (v) : Keeps s (execVinOutOfRange v s) := by simp [execVinOutOfRange]
@[simp] theorem keeps_execShutdown (s : State) (fn stayOff) : Keeps s (execShutdown fn stayOff s) := by simp [execShutdown]
@[simp] theorem keeps_execOffHoldExpiry (s : State) : Keeps s (execOffHoldExpiry s) := by simp [execOffHoldExpiry]
@[simp] theorem fixed_warmReset (s : State) : (s.warmReset).fixed = s.fixed := by simp [State.warmReset]
@[simp] theorem keeps_execPerst0Assert (s : State) : Keeps s (execPerst0Assert s) := by unfold execPerst0Assert; dsimp only; (repeat' split) <;> simp
@[simp] theorem keeps_execPerst0Deassert (s : State) : Keeps s (execPerst0Deassert s) := by simp [execPerst0Deassert]
@[simp] theorem keeps_execPwrClrst (s : State) (fn mask) : Keeps s (execPwrClrst fn mask s) := by simp [execPwrClrst]
@[simp] theorem keeps_execGo (s : State) (fn) : Keeps s (execGo fn s) := by simp [execGo]
@[simp] theorem keeps_execFlashRead (s : State) (fn) : Keeps s (execFlashRead fn s) := by simp [execFlashRead]
@[simp] theorem keeps_execFlashProgram (s : State) (fn) : Keeps s (execFlashProgram fn s) := by simp [execFlashProgram]
@[simp] theorem keeps_execFlashErase (s : State) (fn) : Keeps s (execFlashErase fn s) := by simp [execFlashErase]
@[simp] theorem keeps_execFlashCmdDone (s : State) (ok) : Keeps s (execFlashCmdDone ok s) := by
  unfold execFlashCmdDone; dsimp only; (repeat' split) <;> simp
@[simp] theorem fixed_mbRead (s : State) (cmd resp pec) : (s.mbRead cmd resp pec).fixed = s.fixed := by simp [State.mbRead]
@[simp] theorem keeps_execIdentity (s : State) (pec) : Keeps s (execIdentity pec s) := by simp [execIdentity]
@[simp] theorem keeps_execHealth (s : State) (pec) : Keeps s (execHealth pec s) := by simp [execHealth]
@[simp] theorem keeps_execTemps (s : State) (pec) : Keeps s (execTemps pec s) := by simp [execTemps]
@[simp] theorem keeps_execPower (s : State) (pec) : Keeps s (execPower pec s) := by simp [execPower]
@[simp] theorem keeps_execBypassStatus (s : State) (pec) : Keeps s (execBypassStatus pec s) := by simp [execBypassStatus]
@[simp] theorem keeps_execRing (s : State) (pec) : Keeps s (execRing pec s) := by simp [execRing]
@[simp] theorem keeps_execLogHead (s : State) (pec) : Keeps s (execLogHead pec s) := by simp [execLogHead]
@[simp] theorem fixed_mbBad (s : State) : (s.mbBad).fixed = s.fixed := by simp [State.mbBad]
@[simp] theorem fixed_mbWrite (s : State) (cmd data pec f) : (s.mbWrite cmd data pec f).fixed = s.fixed := by unfold State.mbWrite; split <;> simp
@[simp] theorem keeps_execLogSelect (s : State) (val pec) : Keeps s (execLogSelect val pec s) := by simp [execLogSelect]
@[simp] theorem keeps_execLogSelectRead (s : State) (pec) : Keeps s (execLogSelectRead pec s) := by simp [execLogSelectRead]
@[simp] theorem keeps_execLogRead (s : State) (pec) : Keeps s (execLogRead pec s) := by simp [execLogRead]
@[simp] theorem keeps_execBusStatus (s : State) (pec) : Keeps s (execBusStatus pec s) := by simp [execBusStatus]
@[simp] theorem keeps_execScratchWrite (s : State) (bs pec) : Keeps s (execScratchWrite bs pec s) := by simp [execScratchWrite]
@[simp] theorem keeps_execScratchRead (s : State) (pec) : Keeps s (execScratchRead pec s) := by simp [execScratchRead]
@[simp] theorem fixed_busNote (s : State) (sev cause detail) : (s.busNote sev cause detail).fixed = s.fixed := by simp [State.busNote]
@[simp] theorem keeps_execMbSclTimeout (s : State) (cmd) : Keeps s (execMbSclTimeout cmd s) := by simp [execMbSclTimeout]
@[simp] theorem keeps_execMbSdaTimeout (s : State) : Keeps s (execMbSdaTimeout s) := by simp [execMbSdaTimeout]
@[simp] theorem keeps_execMirrorUpdate (s : State) : Keeps s (execMirrorUpdate s) := by simp [execMirrorUpdate]
@[simp] theorem fixed_setTray (s : State) (t) : (s.setTray t).fixed = s.fixed := by unfold State.setTray; (repeat' split) <;> simp
@[simp] theorem fixed_coolant (s : State) (r) : (s.coolant r).fixed = s.fixed := by simp [State.coolant]
@[simp] theorem fixed_heatBalance (s : State) (r) : (s.heatBalance r).fixed = s.fixed := by simp [State.heatBalance]
@[simp] theorem fixed_trip (s : State) (kind die) : (s.trip kind die).fixed = s.fixed := by simp [State.trip]
@[simp] theorem fixed_trayTrip (s : State) (r) : (s.trayTrip r).fixed = s.fixed := by simp [State.trayTrip]
@[simp] theorem fixed_traySample (s : State) (r) : (s.traySample r).fixed = s.fixed := by unfold State.traySample; (repeat' split) <;> simp
@[simp] theorem fixed_tbResult (s : State) (code) : (s.tbResult code).fixed = s.fixed := by simp [State.tbResult]
@[simp] theorem fixed_tbFail (s : State) (code) : (s.tbFail code).fixed = s.fixed := by simp [State.tbFail]
@[simp] theorem keeps_execTbSampleSlot (s : State) (scl sda) : Keeps s (execTbSampleSlot scl sda s) := by simp [execTbSampleSlot]
@[simp] theorem keeps_execTbSampleDone (s : State) (r pin) : Keeps s (execTbSampleDone r pin s) := by
  unfold execTbSampleDone; dsimp only; (repeat' split) <;> simp
@[simp] theorem fixed_tbRecover (s : State) (scl freedAt) : (s.tbRecover scl freedAt).fixed = s.fixed := by
  unfold State.tbRecover; (repeat' split) <;> simp
@[simp] theorem fixed_tbAbort (s : State) (code) : (s.tbAbort code).fixed = s.fixed := by simp [State.tbAbort]
@[simp] theorem keeps_execTbSclTimeout (s : State) (scl freedAt) : Keeps s (execTbSclTimeout scl freedAt s) := by simp [execTbSclTimeout]
@[simp] theorem keeps_execTbSdaTimeout (s : State) (scl freedAt) : Keeps s (execTbSdaTimeout scl freedAt s) := by simp [execTbSdaTimeout]
@[simp] theorem fixed_setLevel (s : State) (n) : (s.setLevel n).fixed = s.fixed := by simp [State.setLevel]
@[simp] theorem keeps_execDieSensorRead (s : State) (die t) : Keeps s (execDieSensorRead die t s) := by simp [execDieSensorRead]
@[simp] theorem keeps_execLadderRise (s : State) : Keeps s (execLadderRise s) := by simp [execLadderRise]
@[simp] theorem keeps_execLadderFall (s : State) : Keeps s (execLadderFall s) := by simp [execLadderFall]
@[simp] theorem keeps_execMonthBoundary (s : State) (die) : Keeps s (execMonthBoundary die s) := by simp [execMonthBoundary]
@[simp] theorem fixed_endHold (s : State) (die k) : (s.endHold die k).fixed = s.fixed := by simp [State.endHold]
@[simp] theorem keeps_execRotationStep (s : State) (die k) : Keeps s (execRotationStep die k s) := by unfold execRotationStep; split <;> simp
@[simp] theorem keeps_execRotHoldExpiry (s : State) (die k) : Keeps s (execRotHoldExpiry die k s) := by unfold execRotHoldExpiry; split <;> simp
@[simp] theorem fixed_tapTo (s : State) (ir drive) : (s.tapTo ir drive).fixed = s.fixed := by simp [State.tapTo]
@[simp] theorem keeps_execIdcode (s : State) : Keeps s (execIdcode s) := by simp [execIdcode]
@[simp] theorem keeps_execSamplePreload (s : State) (capture) : Keeps s (execSamplePreload capture s) := by simp [execSamplePreload]
@[simp] theorem fixed_tapTest (s : State) (ir drive) : (s.tapTest ir drive).fixed = s.fixed := by simp [State.tapTest]
@[simp] theorem keeps_execExtest (s : State) : Keeps s (execExtest s) := by simp [execExtest]
@[simp] theorem keeps_execExtestPulse (s : State) : Keeps s (execExtestPulse s) := by simp [execExtestPulse]
@[simp] theorem keeps_execExtestTrain (s : State) : Keeps s (execExtestTrain s) := by simp [execExtestTrain]
@[simp] theorem keeps_execClamp (s : State) : Keeps s (execClamp s) := by simp [execClamp]
@[simp] theorem keeps_execHighz (s : State) : Keeps s (execHighz s) := by simp [execHighz]
@[simp] theorem keeps_execDbg (s : State) (write off val) : Keeps s (execDbg write off val s) := by
  unfold execDbg
  split
  · rfl
  · dsimp only
    split
    · exact fixed_tapTo ..
    · split
      · rw [keeps_next, fixed_dbgWrite, fixed_dbgWrite, fixed_tapTo]
      · rw [keeps_next, fixed_mk, fixed_eta, fixed_tapTo]
@[simp] theorem keeps_execTapBypass (s : State) (code) : Keeps s (execTapBypass code s) := by simp [execTapBypass]
@[simp] theorem keeps_execTapReset (s : State) : Keeps s (execTapReset s) := by simp [execTapReset]
@[simp] theorem keeps_execDbgHalt (s : State) (fn mask) : Keeps s (execDbgHalt fn mask s) := by simp [execDbgHalt]
@[simp] theorem keeps_execDbgStep (s : State) (fn mask) : Keeps s (execDbgStep fn mask s) := by simp [execDbgStep]
@[simp] theorem keeps_execDbgGo (s : State) (fn) : Keeps s (execDbgGo fn s) := by simp [execDbgGo]
@[simp] theorem keeps_execRelock (s : State) (fn) : Keeps s (execRelock fn s) := by simp [execRelock]
@[simp] theorem keeps_execDbgVerifyDone (s : State) : Keeps s (execDbgVerifyDone s) := by simp [execDbgVerifyDone]
@[simp] theorem keeps_execHostLinkUp (s : State) (io width rate) : Keeps s (execHostLinkUp io width rate s) := by simp [execHostLinkUp]
@[simp] theorem keeps_execPerst1Deassert (s : State) : Keeps s (execPerst1Deassert s) := by simp [execPerst1Deassert]
@[simp] theorem keeps_execPcieConfigWrite (s : State) (fn w) : Keeps s (execPcieConfigWrite fn w s) := by simp [execPcieConfigWrite]
@[simp] theorem keeps_execGswapCheckDone (s : State) : Keeps s (execGswapCheckDone s) := by unfold execGswapCheckDone; (repeat' split) <;> simp
@[simp] theorem keeps_execMainRailsDown (s : State) : Keeps s (execMainRailsDown s) := by simp [execMainRailsDown]
@[simp] theorem keeps_execVinInRange (s : State) (v) : Keeps s (execVinInRange v s) := by simp [execVinInRange]
@[simp] theorem keeps_execClusterResetDone (s : State) (c) : Keeps s (execClusterResetDone c s) := by simp [execClusterResetDone]
@[simp] theorem fixed_pickBelow (s : State) (n) : (s.pickBelow n).1.fixed = s.fixed := by simp [State.pickBelow]
@[simp] theorem fixed_suspend (s : State) (o) : (s.suspend o).fixed = s.fixed := by unfold State.suspend; split <;> simp
@[simp] theorem fixed_sliceEnd (s : State) (k unit o) : (s.sliceEnd k unit o).fixed = s.fixed := by
  unfold State.sliceEnd; dsimp only; (repeat' split) <;> simp
@[simp] theorem keeps_execEngineSliceExpiry (s : State) (k unit) : Keeps s (execEngineSliceExpiry k unit s) := by
  unfold execEngineSliceExpiry; (repeat' split) <;> simp
@[simp] theorem keeps_execDlkErrWindowEnd (s : State) (port) : Keeps s (execDlkErrWindowEnd port s) := by simp [execDlkErrWindowEnd]
@[simp] theorem keeps_execPllLockRegained (s : State) (dom) : Keeps s (execPllLockRegained dom s) := by
  unfold execPllLockRegained; (repeat' split) <;> simp
@[simp] theorem keeps_execMbBadCommand (s : State) (code) : Keeps s (execMbBadCommand code s) := by simp [execMbBadCommand]

/-! ### Every command, and so every step -/

theorem keeps_exec (i : Instr) (s : State) : Keeps s (exec i s) := by
  cases i <;> simp

/-- Settles O1: both sides are the same call, by the definition of a step. -/
theorem stepRunsFront : Obligations.StepRunsFront := by
  unfold Obligations.StepRunsFront
  intros
  rfl

theorem step_fixed {s t : State} (h : step s = .next t) : t.fixed = (s.fuses, s.pending.tail) := by
  cases hp : s.pending with
  | nil =>
    rw [step_of_empty hp] at h
    cases h
    rw [fixed_tick, fixed_decideWaiting, State.fixed, hp, List.tail_nil]
  | cons i rest =>
    have hk := keeps_exec i { s with pending := rest }
    rw [← stepRunsFront i rest s, ← hp, h] at hk
    exact hk

/-- Settles O59: every command leaves the fuses and the queue as it finds them, operation by operation, so a step takes its own command and no more. -/
theorem fusesAndQueueKept : Obligations.FusesAndQueueKept := by
  unfold Obligations.FusesAndQueueKept
  rintro f s t rfl h
  exact Prod.mk.inj (step_fixed h)

end FixedPart

end Sys2Proof.Machine

/-! # Acknowledging error records (18 R425) -/

namespace Sys2Proof.Machine

section Acknowledge

variable {s : State} {fn : Fn} {p : Fin 16} {r : ErrRing} {seq : W32}

theorem ack_of_parent (h : ∃ x ∈ r.hand, x.parent = seq) : r.ack seq = { r with hand := r.hand.filter (·.parent != seq) } :=
  if_pos (by simpa using h)

theorem ack_of_no_parent (h : ∀ x ∈ r.hand, x.parent ≠ seq) : r.ack seq = { r with ackDrop := true } :=
  if_neg (by simpa using h)

theorem execErAck_reach (h : s.reach fn p = true) :
    execErAck fn p seq s = .next (s.modP p fun q => { q with er := q.er.ack seq }) := congrArg _ (if_pos h)

theorem execGerAck_owner (h : s.owner fn = true) :
    execGerAck fn seq s = .next { s with err := { s.err with ger := s.err.ger.ack seq } } := congrArg _ (if_pos h)

theorem execGerAck_ignored (h : s.owner fn = false) : execGerAck fn seq s = .next s := congrArg _ (if_neg (by simp [h]))

end Acknowledge

/-- Settles O31: `ErrRing.ack` has the two cases, and it is the one thing either command does to a ring. -/
theorem errorAck : Obligations.ErrorAck := by
  unfold Obligations.ErrorAck
  refine fun s fn seq => ⟨fun p hr => ⟨fun h => ?_, fun h => ?_⟩, fun ho => ⟨fun h => ?_, fun h => ?_⟩, execGerAck_ignored⟩
  · refine ⟨_, execErAck_reach hr, onlyP_modP .., ?_⟩
    simp [modP_same, ack_of_parent h]
  · exact (execErAck_reach hr).trans (congrArg _ (modP_congr (by rw [ack_of_no_parent h])))
  · refine ⟨_, execGerAck_owner ho, rfl.trans (by rw [ack_of_parent h]), ?_⟩
    simp [ack_of_parent h]
  · rw [exec_gerAck, execGerAck_owner ho, ack_of_no_parent h]

end Sys2Proof.Machine

/-! # The management bus: reads (19 R440-R445, Tables 19.3 and 19.5) -/

namespace Sys2Proof.Machine

section ManagementReads

variable {s : State} {pec : Bool} {cmd : Byte} {resp : List Byte}

theorem mbRead_standby (h : s.pwr.vsb = false) : s.mbRead cmd resp pec = s := if_pos (by simp [h])

theorem mbRead_up (h : s.pwr.vsb = true) : s.mbRead cmd resp pec =
    { s with mbs := s.mbs.txn, mbOut := resp ++ if pec then [crc8 ([s.mbAddr false, cmd, s.mbAddr true] ++ resp)] else [] } :=
  if_neg (by simp [h])

theorem mbAddr_write (s : State) : s.mbAddr false = BitVec.ofNat 8 (2 * (0x58 + s.mbs.addr.toNat)) := by
  simp [State.mbAddr, Nat.mul_comm]

theorem mbAddr_read (s : State) : s.mbAddr true = BitVec.ofNat 8 (2 * (0x58 + s.mbs.addr.toNat) + 1) := by
  simp [State.mbAddr, Nat.mul_comm]

/-- What a read command of Table 19.3 does, by its command byte and its bytes. -/
def AnswersRead (s : State) (pec : Bool) (i : Instr) (cmd : Byte) (resp : List Byte) : Prop :=
  (s.pwr.vsb = false → exec i s = .next s) ∧
  (s.pwr.vsb = true → ∃ t : State, exec i s = .next t ∧ { t with mbs := s.mbs, mbOut := s.mbOut } = s ∧
    t.mbs = { s.mbs with txnCnt := satAdd s.mbs.txnCnt 1, logSel := if cmd = 0x08 then s.mbs.logSel - 1 else s.mbs.logSel } ∧
    t.mbOut = resp ++ if pec then
      [crc8 ([BitVec.ofNat 8 (2 * (0x58 + s.mbs.addr.toNat)), cmd, BitVec.ofNat 8 (2 * (0x58 + s.mbs.addr.toNat) + 1)] ++ resp)] else [])

theorem answersRead_of_mbRead {i : Instr} (hc : cmd ≠ 0x08) (h : exec i s = .next (s.mbRead cmd resp pec)) : AnswersRead s pec i cmd resp := by
  refine ⟨fun hv => by rw [h, mbRead_standby hv], fun hv => ⟨_, h, ?_⟩⟩
  rw [mbRead_up hv, mbAddr_write, mbAddr_read, if_neg hc]
  exact ⟨rfl, rfl, rfl⟩

theorem answersRead_logRead : AnswersRead s pec (.logRead pec) 0x08 (block 32 s.err.log[s.mbs.logSel.toNat].toNat) := by
  refine ⟨fun hv => ?_, fun hv => ⟨_, rfl, ?_⟩⟩
  · simp [execLogRead, hv, mbRead_standby]
  · rw [if_pos hv, mbRead_up hv, mbAddr_write, mbAddr_read, if_pos rfl]
    exact ⟨rfl, rfl, rfl⟩

theorem leBytes_one (v : Nat) : leBytes 1 v = [BitVec.ofNat 8 v] := by simp [leBytes]

theorem fields_nil : fields [] = 0 := rfl
theorem fields_cons (lo v : Nat) (l : List (Nat × Nat)) : fields ((lo, v) :: l) = v * 2 ^ lo + fields l := by simp [fields]

theorem mbIdentity_fields (s : State) : s.mbIdentity % 2 ^ 40 = 0xB004161FD4 ∧ s.mbIdentity / 2 ^ 40 % 4 = s.fuses.stackCode.toNat ∧
    s.mbIdentity / 2 ^ 42 % 64 = s.fuses.i2.toNat ∧ s.mbIdentity / 2 ^ 48 % 2 ^ 16 = s.mbs.addr.toNat ∧
    s.mbIdentity / 2 ^ 64 = s.fuses.serial.toNat := by
  have hc := s.fuses.stackCode.isLt
  have hi := s.fuses.i2.toNat_le
  have ha := s.mbs.addr.isLt
  simp only [State.mbIdentity, fields_cons, fields_nil]
  omega

theorem mbHealth_fields (s : State) : 
    s.mbHealth % 256 = s.pwr.stage.toNat ∧ s.mbHealth / 2 ^ 8 % 256 = s.pwr.failUnit.toNat ∧
    s.mbHealth / 2 ^ 16 % 32 = s.mbs.mirror.flags.toNat % 32 ∧ s.mbHealth / 2 ^ 21 % 2 = s.tbs.valid.toNat ∧
    s.mbHealth / 2 ^ 22 % 2 = s.mbs.mirror.flags.toNat / 64 ∧ s.mbHealth / 2 ^ 23 % 512 = s.pwr.rails.toNat ∧
    s.mbHealth / 2 ^ 32 % 2 ^ 32 = s.err.logTotal.toNat ∧
    s.mbHealth / 2 ^ 64 = (match s.pwr.upAt with | some t => (s.clk.ns - t.toNat) / 1000000 | none => 0) % 2 ^ 32 := by
  have hs := s.pwr.stage.isLt
  have hu := s.pwr.failUnit.isLt
  have hf := s.mbs.mirror.flags.isLt
  have hv := s.tbs.valid.toNat_le
  have hr := s.pwr.rails.toNat_le
  have hl := s.err.logTotal.isLt
  have hm := Nat.mod_lt (match s.pwr.upAt with | some t => (s.clk.ns - t.toNat) / 1000000 | none => 0) (y := 2 ^ 32) (by decide)
  simp only [State.mbHealth, fields_cons, fields_nil, bits]
  generalize (match s.pwr.upAt with | some t => (s.clk.ns - t.toNat) / 1000000 | none => 0) % 2 ^ 32 = ms at hm ⊢
  refine ⟨?_, ?_, ?_, ?_, ?_, ?_, ?_, ?_⟩ <;> omega

theorem mbTemps_fields (s : State) : s.mbTemps % 2 ^ 16 = s.tbs.sample[2].toNat ∧ s.mbTemps / 2 ^ 16 % 2 ^ 16 = s.tbs.sample[3].toNat ∧
    s.mbTemps / 2 ^ 32 % 2 ^ 16 = s.tbs.sample[4].toNat ∧ s.mbTemps / 2 ^ 48 % 2 ^ 64 = s.mbs.mirror.temps.toNat ∧
    s.mbTemps / 2 ^ 112 = s.tbs.valid.toNat + 2 * s.pwr.rails.toNat := by
  have h2 := s.tbs.sample[2].isLt
  have h3 := s.tbs.sample[3].isLt
  have h4 := s.tbs.sample[4].isLt
  have ht := s.mbs.mirror.temps.isLt
  simp only [State.mbTemps, fields_cons, fields_nil]
  omega

theorem mbPower_fields (s : State) : s.mbPower % 256 = pwrCode s.pwr.st ∧
    s.mbPower / 2 ^ 8 % 256 = s.pwr.autoOn.toNat + 2 * s.pwr.pwrEn.toNat + 4 * s.pwr.pwrWarn.toNat ∧
    s.mbPower / 2 ^ 16 % 2 ^ 16 = s.pwr.pin.toNat ∧ s.mbPower / 2 ^ 32 = s.mbs.mirror.cclk.toNat := by
  have hc : pwrCode s.pwr.st ≤ 4 := by cases s.pwr.st <;> decide
  have ha := s.pwr.autoOn.toNat_le
  have he := s.pwr.pwrEn.toNat_le
  have hw := s.pwr.pwrWarn.toNat_le
  have hp := s.pwr.pin.isLt
  simp only [State.mbPower, fields_cons, fields_nil]
  omega

end ManagementReads

/-- Settles O51: each command is `State.mbRead` with its bytes, LOG_READ's move of the selection beside it; a block's fields do not overlap. -/
theorem managementReads : Obligations.ManagementReads := by
  unfold Obligations.ManagementReads
  refine ⟨fun s pec => ?_, fun s => ⟨fun n v => rfl, ?_⟩⟩
  · change ∀ e ∈ (_ : List (Instr × Byte × List Byte)), AnswersRead s pec e.1 e.2.1 e.2.2
    simp only [List.forall_mem_cons, List.not_mem_nil, false_imp_iff, implies_true, and_true]
    refine ⟨?_, ?_, ?_, ?_, ?_, ?_, ?_, ?_, answersRead_logRead, ?_, ?_⟩
    case refine_8 | refine_9 => exact answersRead_of_mbRead (by decide) (by rw [← leBytes_one]; rfl)
    all_goals exact answersRead_of_mbRead (by decide) rfl
  · obtain ⟨i0, i1, i2, i3, i4⟩ := mbIdentity_fields s
    obtain ⟨h0, h1, h2, h3, h4, h5, h6, hup⟩ := mbHealth_fields s
    obtain ⟨t0, t1, t2, t3, t4⟩ := mbTemps_fields s
    obtain ⟨p0, p1, p2, p3⟩ := mbPower_fields s
    refine ⟨i0, i1, i2, i3, i4, h0, h1, h2, h3, h4, h5, h6, ?_, fun h => ?_, fun t h => ?_, t0, t1, t2, t3, t4, p0.trans ?_, p1, p2, p3⟩
    · rw [show 2 ^ 96 = 2 ^ 64 * 2 ^ 32 from rfl, ← Nat.div_div_eq_div_mul, hup]
      exact Nat.div_eq_of_lt (Nat.mod_lt _ (by decide))
    · rw [hup, h]
      exact Nat.zero_mod _
    · rw [hup, h]
    · cases s.pwr.st <;> rfl

end Sys2Proof.Machine

/-! # The management bus: writes and the mirror (19 R440-R446, R460, Table 19.3) -/

namespace Sys2Proof.Machine

section ManagementWrites

variable {s : State} {cmd : Byte} {data : List Byte} {pec : Option Byte} {f : Mbs → Mbs}

/-- The PEC byte a write of Table 19.3 ends with. -/
def State.writeCrc (s : State) (d : List Byte) : Byte := crc8 (BitVec.ofNat 8 (2 * (0x58 + s.mbs.addr.toNat)) :: d)

theorem writeCrc_eq (s : State) (cmd : Byte) (data : List Byte) : crc8 ([s.mbAddr false, cmd] ++ data) = s.writeCrc (cmd :: data) := by
  simp [State.writeCrc, State.mbAddr, Nat.mul_comm]

theorem mbWrite_taken (h : pec = none ∨ pec = some (s.writeCrc (cmd :: data))) : s.mbWrite cmd data pec f = { s with mbs := f s.mbs.txn } := by
  obtain rfl | rfl := h
  · rfl
  · exact if_pos (writeCrc_eq ..).symm

theorem mbWrite_discarded (hn : pec ≠ none) (h : pec ≠ some (s.writeCrc (cmd :: data))) :
    s.mbWrite cmd data pec f = { s with mbs := { s.mbs.txn with pecErr := true, errCnt := satAdd s.mbs.errCnt 1 } } := by
  cases pec with
  | none => exact absurd rfl hn
  | some p => exact if_neg (by rwa [writeCrc_eq, ← Option.some.injEq])

theorem execLogSelect_up {v : Byte} (hv : s.pwr.vsb = true) : execLogSelect v pec s = .next (if 64 ≤ v.toNat then s.mbBad
    else s.mbWrite 0x07 [v] pec fun m => { m with logSel := BitVec.ofNat 6 v.toNat }) := congrArg _ (if_neg (by simp [hv]))

theorem execScratchWrite_up (hv : s.pwr.vsb = true) : execScratchWrite data pec s = .next (if data = [] ∨ 16 < data.length then s.mbBad
    else s.mbWrite 0x0F (BitVec.ofNat 8 data.length :: data) pec fun m => { m with scratch := data }) := congrArg _ (if_neg (by simp [hv]))

theorem execMbBadCommand_up (hv : s.pwr.vsb = true) (h7 : cmd ≠ 0x07) (hf : cmd ≠ 0x0F) : execMbBadCommand cmd s = .next s.mbBad :=
  congrArg _ (if_neg (by simpa [hv] using ⟨h7, hf⟩))

theorem managementWrites_standby (hv : s.pwr.vsb = false) : (∀ v p, exec (.logSelect v p) s = .next s) ∧ (∀ b p, exec (.scratchWrite b p) s = .next s) ∧
    (∀ c, exec (.mbBadCommand c) s = .next s ∧ exec (.mbSclTimeout c) s = .next s) ∧ exec .mbSdaTimeout s = .next s := by
  simp [execLogSelect, execScratchWrite, execMbBadCommand, execMbSclTimeout, execMbSdaTimeout, hv]

theorem getLsbD_of_bit {n v i : Nat} {b : Bool} (hi : i < n) (h : v / 2 ^ i % 2 = b.toNat) : (BitVec.ofNat n v).getLsbD i = b := by
  rw [BitVec.getLsbD_ofNat, Nat.testBit_eq_decide_div_mod_eq, h, decide_eq_true hi]
  cases b <;> rfl

theorem mirrorNow_flags (s : State) : s.mirrorNow.flags.getLsbD 0 = s.err.fatal ∧ s.mirrorNow.flags.getLsbD 6 = s.anyFenced := by
  have h0 := s.err.fatal.toNat_le
  have h1 := s.ldg.frozen.toNat_le
  have h2 := s.ldg.rebuilt.toNat_le
  have h3 := s.io[0].link.toNat_le
  have h4 := s.clk.throttled.toNat_le
  have h6 := s.anyFenced.toNat_le
  refine ⟨getLsbD_of_bit (by decide) ?_, getLsbD_of_bit (by decide) ?_⟩ <;> simp only [fields_cons, fields_nil] <;> omega

theorem mirrorNow_ring (s : State) : s.mirrorNow.ring.toNat % 2 ^ 24 = s.devId % 2 ^ 24 := by
  simp only [State.mirrorNow, BitVec.toNat_ofNat, fields_cons, fields_nil]
  omega

theorem toNat_append_eq {m n : Nat} (x : BitVec m) (y : BitVec n) : (x ++ y).toNat = x.toNat * 2 ^ n + y.toNat := by
  rw [BitVec.toNat_append, ← Nat.shiftLeft_add_eq_or_of_lt y.isLt, Nat.shiftLeft_eq]

theorem mirrorNow_temps (s : State) :
    s.mirrorNow.temps = s.thm.die[3].temp ++ s.thm.die[2].temp ++ s.thm.die[1].temp ++ s.thm.die[0].temp := by
  have h0 := s.thm.die[0].temp.isLt
  have h1 := s.thm.die[1].temp.isLt
  have h2 := s.thm.die[2].temp.isLt
  have h3 := s.thm.die[3].temp.isLt
  refine BitVec.eq_of_toNat_eq ?_
  simp only [toNat_append_eq, State.mirrorNow, BitVec.toNat_ofNat, fields_cons, fields_nil]
  omega

end ManagementWrites

/-- Settles O52: `State.mbWrite` takes a write or discards it by its PEC byte, after what the target refuses by value. -/
theorem managementWrites : Obligations.ManagementWrites := by
  unfold Obligations.ManagementWrites
  refine fun s => ⟨managementWrites_standby, fun hv => ⟨fun v p => ?_, fun b p => ?_, fun c h7 hf => execMbBadCommand_up hv h7 hf, fun c => ?_, ?_⟩,
    fun hr => ?_, fun hr => ⟨?_, rfl, mirrorNow_ring s, mirrorNow_temps s, mirrorNow_flags s⟩⟩
  · rw [exec_logSelect, execLogSelect_up hv]
    refine ⟨fun h => by rw [if_pos h]; rfl, fun h hp => ?_, fun h hn hp => ?_⟩
    · rw [if_neg (Nat.not_le.2 h), mbWrite_taken hp]
      rfl
    · rw [if_neg (Nat.not_le.2 h), mbWrite_discarded hn hp]
      rfl
  · rw [exec_scratchWrite, execScratchWrite_up hv]
    refine ⟨fun h => by rw [if_pos (h.imp_left List.length_eq_zero_iff.1)]; rfl, fun h1 h16 hp => ?_, fun h1 h16 hn hp => ?_⟩
    all_goals rw [if_neg (by simpa [← List.length_eq_zero_iff] using ⟨by omega, h16⟩)]
    · rw [mbWrite_taken (data := _ :: b) hp]
      rfl
    · rw [mbWrite_discarded (data := _ :: b) hn hp]
      rfl
  · exact congrArg _ (if_neg (by simp [hv]))
  · exact congrArg _ (if_neg (by simp [hv]))
  · exact congrArg _ (if_neg (by simp [hr]))
  · exact congrArg _ (if_pos hr)

end Sys2Proof.Machine

/-! # Tray samples (19 R447-R454, R458, R460, Table 19.7) -/

namespace Sys2Proof.Machine

section TraySamples

variable {s : State} {scl sda : Bool} {pin : W16} {f : Option (Fin 9)}

/-! What a slot and a sample's result do. -/

theorem execTbSampleSlot_ignored (h : s.pwr.vsb = false ∨ s.tbs.en = false ∨ s.tbs.busy = true ∧ s.tbs.sdaWait = false) :
    execTbSampleSlot scl sda s = .next s := congrArg _ (if_pos (by rcases h with h | h | ⟨h, h'⟩ <;> simp [*]))

theorem execTbSampleSlot_taken (hv : s.pwr.vsb = true) (he : s.tbs.en = true) (hb : s.tbs.busy = false ∨ s.tbs.sdaWait = true) :
    execTbSampleSlot scl sda s = .next (if !scl then s.tbFail 4
      else if !sda then { s with tbs := { s.tbs with busy := true, sdaWait := true } }
      else { s with tbs := { s.tbs with busy := true, sdaWait := false, usePec := s.tbs.pecEn } }) :=
  congrArg _ (if_neg (by rcases hb with h | h <;> simp [*]))

/-- The sample ends with a result, before its record. -/
def Tbs.ended (t : Tbs) (code : Nat) : Tbs :=
  { t with result := BitVec.ofNat 3 code, valid := code == 0, busy := false, lastRec := BitVec.ofNat 3 code
           failRun := if code = 0 then 0 else satAdd t.failRun 1
           failCnt := if code = 0 then t.failCnt else satAdd t.failCnt 1 }

theorem tbResult_recorded {code : Nat} (h : s.tbs.lastRec.toNat = code) : s.tbResult code = { s with tbs := s.tbs.ended code } :=
  if_neg (by simp [h])

theorem tbResult_new {code : Nat} (h0 : code ≠ 0) (h : s.tbs.lastRec.toNat ≠ code) :
    s.tbResult code = { s with tbs := s.tbs.ended code }.busNote 0 3 code := if_pos ⟨h0, h⟩

theorem ended_of_recorded {t : Tbs} {code : Nat} (h : t.lastRec.toNat = code) : t.ended code =
    { t with result := BitVec.ofNat 3 code, valid := code == 0, busy := false
             failRun := if code = 0 then 0 else satAdd t.failRun 1
             failCnt := if code = 0 then t.failCnt else satAdd t.failCnt 1 } := by
  subst h
  simp [Tbs.ended]

/-! The table's checks of the registers a sample read. -/

theorem sum_toNat_mod (l : List W16) : (l.map (·.toNat)).sum % 65536 = (l.foldl (· + ·) 0).toNat := by
  rw [← List.sum_eq_foldl]
  induction l with
  | nil => rfl
  | cons x l ih => rw [List.map_cons, List.sum_cons, List.sum_cons, BitVec.toNat_add, ← ih, Nat.add_mod_mod]

theorem fld_top_eq_zero (x : W16) : fld x 5 11 = 0 ↔ x >>> 5 = 0 := by
  rw [← BitVec.toNat_inj, BitVec.toNat_ushiftRight, Nat.shiftRight_eq_div_pow]
  have h := x.isLt
  simp only [fld, bits]
  exact ⟨fun h => by simpa using by omega, fun h => by simp at h; omega⟩

theorem sameSeq_iff (t : Tbs) (v : Vector W16 16) : t.sameSeq v = true ↔ t.sample[0] ≠ 0 ∧ v[9] = t.sample[9] := by
  simp [Tbs.sameSeq]

/-- The first failing row of Table 19.7 among those that the registers decide. -/
theorem check_eq (t : Tbs) (v : Vector W16 16) (ok : Bool) : t.check v ok =
    if v[0] ≠ 0x5453 ∨ v[1] ≠ 1 ∨ v[8] >>> 5 ≠ 0 ∨ v[11] ≠ 0 ∨ v[12] ≠ 0 ∨ v[13] ≠ 0 ∨ v[14] ≠ 0 then 5
    else if v.toList.foldl (· + ·) 0 ≠ 0 ∨ t.usePec = true ∧ ok = false then 6
    else if t.sample[0] ≠ 0 ∧ v[9] = t.sample[9] ∧ 4 ≤ t.stale then 7 else 0 := by
  have hsum : (v.toList.map (·.toNat)).sum % 65536 ≠ 0 ↔ v.toList.foldl (· + ·) 0 ≠ 0 := by
    rw [sum_toNat_mod]
    exact not_congr (BitVec.toNat_eq (y := 0#16)).symm
  simp only [Tbs.check, hsum, sameSeq_iff, ne_eq, fld_top_eq_zero, and_assoc, Bool.not_eq_true']

/-! A sample that is done. -/

theorem execTbSampleDone_ignored (h : s.pwr.vsb = false ∨ s.tbs.busy = false ∨ s.tbs.sdaWait = true) (r : TbRaw) :
    execTbSampleDone r pin s = .next s := congrArg _ (if_pos (by rcases h with h | h | h <;> simp [h]))

theorem execTbSampleDone_taken (hv : s.pwr.vsb = true) (hb : s.tbs.busy = true) (hw : s.tbs.sdaWait = false) {u : State}
    (hu : u = { s with pwr := { s.pwr with pin := pin } }) (r : TbRaw) : execTbSampleDone r pin s = .next (match r with
      | .nackAddr => u.tbFail 1
      | .nackData => u.tbFail 2
      | .conflict => { u with tbs := { u.tbs with sdaWait := true } }.tbFail 3
      | .sclTimeout => u.tbFail 4
      | .regs v ok =>
        let code := u.tbs.check v ok
        let t := { u.tbs with stale := if u.tbs.sameSeq v then u.tbs.stale + 1 else 0 }
        if code = 0 then ({ u with tbs := { t with sample := v, sampleTime := u.clk.gt } }.tbResult 0).traySample (some v)
        else ({ u with tbs := t }.tbResult code).traySample none) := by
  subst hu
  exact congrArg _ (if_neg (by simp [*]))

/-! The timeouts and recovery. -/

theorem tbAbort_idle {code : Nat} (h : s.tbs.busy = false) : s.tbAbort code = s := if_neg (by simp [h])

theorem tbAbort_busy {code : Nat} (h : s.tbs.busy = true) : s.tbAbort code = s.tbFail code := if_pos h

theorem execTbSclTimeout_standby (h : s.pwr.vsb = false) : execTbSclTimeout scl f s = .next s := congrArg _ (if_pos (by simp [h]))

theorem execTbSclTimeout_up (h : s.pwr.vsb = true) {u : State} (hu : u = { s with tbs := { s.tbs with fScl := true, sclAt := some s.clk.ns } }) :
    execTbSclTimeout scl f s = .next ((u.tbAbort 4).tbRecover scl f) := by
  subst hu
  exact congrArg _ (if_neg (by simp [h]))

theorem execTbSdaTimeout_ignored (h : s.pwr.vsb = false ∨ s.tbs.sdaWait = false) : execTbSdaTimeout scl f s = .next s :=
  congrArg _ (if_pos (by rcases h with h | h <;> simp [h]))

theorem execTbSdaTimeout_up (h : s.pwr.vsb = true) (hw : s.tbs.sdaWait = true) {u : State}
    (hu : u = { s with tbs := { s.tbs with fSda := true, sdaWait := false } }) : execTbSdaTimeout scl f s =
    .next (if s.tbs.sclAt = some s.clk.ns then u else (u.tbAbort 3).tbRecover scl f) := by
  subst hu
  exact congrArg _ (if_neg (by simp [*]))

end TraySamples

/-- Settles O53: a slot, the result of a sample, the checks of its registers and the two timeouts, each by its own equations. -/
theorem traySamples : Obligations.TraySamples := by
  unfold Obligations.TraySamples
  refine ⟨?_, ?_, ?_, ?_, ?_⟩
  · exact fun s scl sda => ⟨execTbSampleSlot_ignored, fun hv he hb =>
      ⟨execTbSampleSlot_taken hv he hb, execTbSampleSlot_taken hv he hb, execTbSampleSlot_taken hv he hb⟩⟩
  · intro s code _ h
    rw [tbResult_recorded h]
    exact ⟨ended_of_recorded h, rfl⟩
  · exact fun s code h0 h8 h => ⟨_, tbResult_new h0 h, rfl, rfl, beq_eq_false_iff_ne.2 h0, Nat.mod_eq_of_lt h8, rfl⟩
  · refine fun s pin => ⟨execTbSampleDone_ignored, fun hv hb hw u hu => ⟨?_, ?_⟩⟩
    · subst hu
      simp [execTbSampleDone_taken hv hb hw rfl, State.tbFail, hw]
    · rintro v ok code hc w rfl
      have hcode : u.tbs.check v ok = code := by rw [hc, check_eq, hu]
      have htbs : u.tbs = s.tbs := by rw [hu]
      have hgt : u.clk.gt = s.clk.gt := by rw [hu]
      refine ⟨fun h => ?_, fun h => ?_⟩ <;> rw [exec_tbSampleDone, execTbSampleDone_taken hv hb hw hu]
      · dsimp only
        rw [if_pos (hcode.trans h)]
        simp only [sameSeq_iff, htbs, hgt]
      · dsimp only
        rw [hcode, if_neg h]
        simp only [sameSeq_iff, htbs]
  · refine fun s f => ⟨fun h b => execTbSclTimeout_standby h, fun h b => execTbSdaTimeout_ignored h, fun hv b u => ⟨fun hu => ?_, fun hw hu => ?_⟩,
      rfl, ?_, ?_⟩
    · rw [exec_tbSclTimeout, execTbSclTimeout_up hv hu]
      refine ⟨fun hb => ?_, fun hb => ?_⟩
      · rw [tbAbort_idle (by rw [hu]; exact hb)]
      · rw [tbAbort_busy (by rw [hu]; exact hb)]
        rfl
    · rw [exec_tbSdaTimeout, execTbSdaTimeout_up hv hw hu]
      refine ⟨fun ha => by rw [if_pos ha], fun ha => ?_⟩
      rw [if_neg ha]
      refine ⟨fun hb => ?_, fun hb => ?_⟩
      · rw [tbAbort_idle (by rw [hu]; exact hb)]
      · rw [tbAbort_busy (by rw [hu]; exact hb)]
        rfl
    · rintro n rfl
      rfl
    · rintro rfl
      rfl

end Sys2Proof.Machine

/-! # The reset values (20 R481, 08 R220, 19 R440-R443, 22 R510) -/

namespace Sys2Proof.Machine

section ResetValues

theorem reset_P (p : Fin 16) : State.reset.P p = Ptn.reset := Vector.getElem_replicate ..

theorem reset_switch (i : Fin 2) : State.reset.dlk.sw[i].closed = true ∧ State.reset.dlk.sw[i].cause = 1 := by
  revert i
  decide +kernel

theorem reset_log (i : Fin 64) : State.reset.err.log[i] = 0 := Vector.getElem_replicate ..

theorem reset_planned : State.reset.planned = 10 := rfl

theorem reset_ceiling : State.reset.ceiling = 10 := by decide +kernel

theorem reset_leds : State.reset.leds = (.off, .off, .blink 1) := by decide +kernel

end ResetValues

/-- Settles O58: one value of the reset state after the other, a partition's and the log's by their one reset value. -/
theorem resetValues : Obligations.ResetValues := by
  unfold Obligations.ResetValues
  refine ⟨rfl, rfl, rfl, rfl, rfl, rfl, rfl, rfl, rfl, rfl, rfl, reset_switch, fun p => ?_, rfl, reset_planned, rfl, rfl, reset_ceiling, rfl, reset_leds, rfl,
    reset_log, rfl, rfl, rfl, rfl, rfl⟩
  rw [reset_P]
  exact ⟨rfl, rfl, rfl, rfl, rfl⟩

end Sys2Proof.Machine

/-! # Die sensors and the throttle ladder (21 R487-R490) -/

namespace Sys2Proof.Machine

section DieTemperatures

variable {s : State} {die : Fin 4} {t : Vector W16 64}

theorem firstBy_eq_none {α : Type} {lt : α → α → Bool} {l : List α} : firstBy lt l = none ↔ l = [] := by
  cases l with
  | nil => simp [firstBy]
  | cons a l =>
    simp only [firstBy]
    split
    · simp
    · split <;> simp

theorem firstBy_max {α : Type} (key : α → Int) {l : List α} {a : α} (h : firstBy (fun i j => decide (key j < key i)) l = some a) :
    a ∈ l ∧ ∀ b ∈ l, key b ≤ key a := by
  induction l generalizing a with
  | nil => cases h
  | cons x l ih =>
    simp only [firstBy] at h
    split at h
    next hl =>
      cases h
      simp [firstBy_eq_none.1 hl]
    next y hy =>
      obtain ⟨hm, hle⟩ := ih hy
      split at h
      next hlt =>
        cases h
        have := of_decide_eq_true hlt
        exact ⟨List.mem_cons_of_mem _ hm, List.forall_mem_cons.2 ⟨by omega, hle⟩⟩
      next hlt =>
        cases h
        have := not_lt.1 (mt decide_eq_true hlt)
        exact ⟨List.mem_cons_self, List.forall_mem_cons.2 ⟨le_rfl, fun b hb => (hle b hb).trans this⟩⟩

theorem sx_toNat (x : W16) : sx 16 x.toNat = x.toInt := by rw [sx_toInt, BitVec.ofNat_toNat, BitVec.setWidth_eq]

theorem badReading_eq (x : W16) : badReading x = decide (x.toInt < -5120 ∨ 19200 < x.toInt) := by rw [badReading, sx_toNat]

theorem getLsbD_setBits {n : Nat} (l : List (Fin n)) (m : BitVec n) (i : Fin n) :
    (l.foldl (fun (m : BitVec n) i => setBit m i.val true) m).getLsbD i.val = (m.getLsbD i.val || decide (i ∈ l)) := by
  induction l generalizing m with
  | nil => simp
  | cons k l ih =>
    rw [List.foldl_cons, ih, getLsbD_setBit _ _ _ i.isLt]
    by_cases h : i = k
    · simp [h]
    · simp [h, Fin.val_inj]

/-- The sensors of a die whose readings are out of range for the first time. -/
def newlyFailed (old : BitVec 64) (t : Vector W16 64) : List (Fin 64) :=
  (List.finRange 64).filter fun i => badReading t[i] && !bit old i.val

/-- The failed sensors of a die after a reading. -/
def failedAfter (old : BitVec 64) (t : Vector W16 64) : BitVec 64 :=
  (newlyFailed old t).foldl (fun (m : BitVec 64) i => setBit m i.val true) old

/-- The sensors that can give a die's temperature. -/
def liveSensors (failed : BitVec 64) : List (Fin 64) := (List.finRange 64).filter fun i => !bit failed i.val

/-- The hottest of them. -/
def hottestSensor (failed : BitVec 64) (t : Vector W16 64) : Option (Fin 64) :=
  firstBy (fun (i j : Fin 64) => decide (sx 16 t[j].toNat < sx 16 t[i].toNat)) (liveSensors failed)

/-- A die's temperature registers after a reading. -/
def dieAfter (old : BitVec 64) (t : Vector W16 64) : DieT :=
  match hottestSensor (failedAfter old t) t with
  | some i => { temp := t[i], sensor := BitVec.ofNat 6 i.val, failed := failedAfter old t }
  | none => { temp := 0, sensor := 0, failed := failedAfter old t }

theorem mem_newlyFailed {old : BitVec 64} {i : Fin 64} :
    i ∈ newlyFailed old t ↔ (t[i].toInt < -5120 ∨ 19200 < t[i].toInt) ∧ old.getLsbD i.val = false := by
  simp [newlyFailed, badReading_eq, bit_eq_getLsbD]

theorem getLsbD_failedAfter (old : BitVec 64) (i : Fin 64) :
    (failedAfter old t).getLsbD i.val = (old.getLsbD i.val || decide (t[i].toInt < -5120 ∨ 19200 < t[i].toInt)) := by
  rw [failedAfter, getLsbD_setBits]
  simp only [mem_newlyFailed]
  cases old.getLsbD i.val <;> simp only [and_true, Bool.true_or, Bool.false_or]

theorem mem_newlyFailed_iff_failed {old : BitVec 64} {i : Fin 64} :
    i ∈ newlyFailed old t ↔ (failedAfter old t).getLsbD i.val = true ∧ old.getLsbD i.val = false := by
  rw [mem_newlyFailed, getLsbD_failedAfter]
  cases old.getLsbD i.val <;> simp

theorem mem_liveSensors {failed : BitVec 64} {i : Fin 64} : i ∈ liveSensors failed ↔ failed.getLsbD i.val = false := by
  simp [liveSensors, bit_eq_getLsbD]

theorem hottestSensor_some {failed : BitVec 64} {i : Fin 64} (h : hottestSensor failed t = some i) :
    failed.getLsbD i.val = false ∧ ∀ k : Fin 64, failed.getLsbD k.val = false → t[k].toInt ≤ t[i].toInt := by
  obtain ⟨hm, hmax⟩ := firstBy_max (fun i : Fin 64 => sx 16 t[i].toNat) h
  refine ⟨mem_liveSensors.1 hm, fun k hk => ?_⟩
  have hle := hmax k (mem_liveSensors.2 hk)
  rwa [sx_toNat, sx_toNat] at hle

theorem hottestSensor_none {failed : BitVec 64} : hottestSensor failed t = none ↔ ∀ i : Fin 64, failed.getLsbD i.val = true := by
  simp [hottestSensor, firstBy_eq_none, List.eq_nil_iff_forall_not_mem, mem_liveSensors]

theorem hottestSensor_isSome {failed : BitVec 64} : (hottestSensor failed t).isSome = true ↔ ∃ i : Fin 64, failed.getLsbD i.val = false := by
  rw [← Option.ne_none_iff_isSome, ne_eq, hottestSensor_none]
  simp

theorem dieAfter_failed (old : BitVec 64) : (dieAfter old t).failed = failedAfter old t := by
  unfold dieAfter
  split <;> rfl

theorem dieAfter_live {old : BitVec 64} {i : Fin 64} (h : hottestSensor (failedAfter old t) t = some i) :
    dieAfter old t = { temp := t[i], sensor := BitVec.ofNat 6 i.val, failed := failedAfter old t } := by rw [dieAfter, h]

theorem dieAfter_dead {old : BitVec 64} (h : hottestSensor (failedAfter old t) t = none) :
    dieAfter old t = { temp := 0, sensor := 0, failed := failedAfter old t } := by rw [dieAfter, h]

theorem noteHeat_eq (s : State) : s.noteHeat = { s with thm := { s.thm with
    roseAt := if 128 * s.dieTarget < s.hottest then some (s.thm.roseAt.getD s.clk.ns) else none
    coolAt := if s.hottest < 128 * (s.dieTarget - 5) then some (s.thm.coolAt.getD s.clk.ns) else none } } := by
  simp only [State.noteHeat, decide_eq_true_eq]
  cases s.thm.roseAt <;> cases s.thm.coolAt <;> rfl

/-- The device after the sensors of a die have been read, before a trip: the marks, what the ladder notes, and its jump to 5. -/
def State.dieRead (s : State) (die : Fin 4) (t : Vector W16 64) : State :=
  let d := dieAfter s.thm.die[die].failed t
  let u := ({ s with thm := { s.thm with die := s.thm.die.set die d } } : State).each (newlyFailed s.thm.die[die].failed t)
    fun s i => s.platform 1 9 (die.val + 256 * i.val)
  let w : State := { u with thm := { u.thm with dieHot := decide (128 * u.dieTarget < u.hottest) } }.noteHeat
  if 128 * (w.dieTarget + 10) ≤ w.hottest ∧ w.thm.level.toNat < 5 then w.setLevel 5 else w

theorem execDieSensorRead_off (hr : s.pwr.rails = false) : execDieSensorRead die t s = .next s := congrArg _ (if_pos (by simp [hr]))

theorem execDieSensorRead_up (hr : s.pwr.rails = true) : execDieSensorRead die t s =
    .next (if (hottestSensor (failedAfter s.thm.die[die].failed t) t).isSome ∧ 14720 ≤ sx 16 (dieAfter s.thm.die[die].failed t).temp.toNat
      then (s.dieRead die t).trip 0 die.val else s.dieRead die t) := congrArg _ (if_neg (by simp [hr]))

/-! The ladder (21 R489). -/

theorem ceiling_le_ladder (s : State) : s.ceiling ≤ ladderCeil s.thm.level.toNat := (min_le_right ..).trans (min_le_left ..)

theorem ladderCeil_le_level : ∀ n ≤ 5, ladderCeil n ≤ ([31, 14, 12, 10, 8, 6] : List Nat).getD n 0 := by decide

theorem setLevel_level (s : State) {n : Nat} (h : n ≤ 5) : (s.setLevel n).thm.level.toNat = n := Nat.mod_eq_of_lt (by omega)

theorem setLevel_target_le (s : State) {n : Nat} (h : n ≤ 5) : (s.setLevel n).clk.target.toNat ≤ ([31, 14, 12, 10, 8, 6] : List Nat).getD n 0 :=
  calc (s.setLevel n).clk.target.toNat
    _ ≤ _ := (retarget_target _).le.trans (min_le_right ..)
    _ ≤ ladderCeil (s.setLevel n).thm.level.toNat := ceiling_le_ladder _
    _ ≤ _ := by rw [setLevel_level s h]; exact ladderCeil_le_level n h

theorem ladderRise_guard : (s.pwr.rails = true ∧ 128 * s.dieTarget < s.hottest ∧ s.thm.level.toNat < 5 ∧ s.clk.past s.thm.roseAt 10000000 = true) ↔
    (s.pwr.rails = true ∧ 128 * s.dieTarget < s.hottest ∧ s.thm.level.toNat < 5 ∧ ∀ t, s.thm.roseAt = some t → t + 10000000 ≤ s.clk.ns) := by
  rw [past_iff]

theorem ladderFall_guard : (s.pwr.rails = true ∧ s.hottest < 128 * (s.dieTarget - 5) ∧ s.thm.level.toNat ≠ 0 ∧
      s.clk.past s.thm.coolAt 100000000 = true) ↔
    (s.pwr.rails = true ∧ s.hottest < 128 * (s.dieTarget - 5) ∧ s.thm.level ≠ 0 ∧ ∀ t, s.thm.coolAt = some t → t + 100000000 ≤ s.clk.ns) := by
  rw [past_iff, ne_eq, ne_eq, BitVec.toNat_eq (x := s.thm.level) (y := 0)]
  rfl

end DieTemperatures

/-- Settles O54: what a reading leaves is `dieAfter` and `newlyFailed`, by the properties of the hottest live sensor; the ladder moves by its guards. -/
theorem dieTemperatures : Obligations.DieTemperatures := by
  unfold Obligations.DieTemperatures
  refine ⟨fun s die t => ⟨execDieSensorRead_off, fun hr => ⟨dieAfter s.thm.die[die].failed t, newlyFailed s.thm.die[die].failed t, ?_⟩⟩, fun s => ?_⟩
  · rw [dieAfter_failed]
    refine ⟨getLsbD_failedAfter _, fun i => mem_newlyFailed_iff_failed, (List.nodup_finRange 64).filter _, fun h => ?_, fun h => ?_, ?_⟩
    · rw [dieAfter_dead (hottestSensor_none.2 h)]
      exact ⟨rfl, rfl⟩
    · obtain ⟨i, hi⟩ := Option.isSome_iff_exists.1 (hottestSensor_isSome.2 h)
      obtain ⟨hlive, hmax⟩ := hottestSensor_some hi
      rw [dieAfter_live hi]
      exact ⟨i, Nat.mod_eq_of_lt i.isLt, rfl, hlive, hmax⟩
    · rintro u hu w hw z hz
      have hread : s.dieRead die t = z := by
        rw [hz, hw, hu, State.dieRead, noteHeat_eq]
        rfl
      rw [exec_dieSensorRead, execDieSensorRead_up hr, hread]
      simp only [hottestSensor_isSome, sx_toNat]
      rfl
  · exact ⟨⟨fun h => congrArg _ (if_pos (ladderRise_guard.2 h)), fun h => congrArg _ (if_neg (mt ladderRise_guard.1 h))⟩,
      ⟨fun h => congrArg _ (if_pos (ladderFall_guard.2 h)), fun h => congrArg _ (if_neg (mt ladderFall_guard.1 h))⟩,
      fun n hn => ⟨setLevel_level s hn, setLevel_target_le s hn, rfl⟩⟩

end Sys2Proof.Machine

/-! # Month boundaries and the rotation of units (21 R491-R493) -/

namespace Sys2Proof.Machine

section Rotation

variable {s : State} {die : Fin 4} {k : RotKind}

/-! Month boundaries. -/

/-- A die's boundary: every rotating kind of it is held. -/
def State.heldThm (s : State) (die : Fin 4) : Thm :=
  let hold (r : RotKind) : Hold := { die := die, k := r, since := s.clk.gt, limit := s.rotHold, stride := s.strideNow }
  { s.thm with
    rotK := s.thm.rotK.set die (s.thm.rotK[die] + 1)
    holds := s.thm.holds.filter (fun (h : Hold) => h.die != die) ++ rotKinds.map hold }

theorem mem_rotKinds (k : RotKind) : k ∈ rotKinds := by cases k <;> decide

theorem mem_heldThm {h : Hold} : h ∈ (s.heldThm die).holds ↔ (h ∈ s.thm.holds ∧ h.die ≠ die) ∨
    (h.die = die ∧ h.since = s.clk.gt ∧ h.limit = s.rotHold ∧ h.stride = s.strideNow) := by
  rw [State.heldThm, List.mem_append, List.mem_filter, bne_iff_ne, List.mem_map]
  refine or_congr_right ⟨?_, fun ⟨hd, hs, hl, ht⟩ => ⟨h.k, mem_rotKinds _, ?_⟩⟩
  · rintro ⟨r, -, rfl⟩
    exact ⟨rfl, rfl, rfl, rfl⟩
  · rw [← hd, ← hs, ← hl, ← ht]

theorem heldThm_rotK (e : Fin 4) : (s.heldThm die).rotK[e] = if e = die then s.thm.rotK[die] + 1 else s.thm.rotK[e] := by
  split
  next h => subst h; exact vec_set_self ..
  next h => exact vec_set_ne _ _ _ _ h

theorem nextMonth_of_lt {t : Thm} (h : t.month.toNat < 11) : t.nextMonth = { t with month := t.month + 1 } := if_pos h

theorem nextMonth_of_ge {t : Thm} (h : 11 ≤ t.month.toNat) :
    t.nextMonth = { t with month := 0, seasons := t.seasons + 1, strideIx := t.strideIx + 1 } := if_neg (Nat.not_lt.2 h)

theorem nextMonth_frame (t : Thm) : { t.nextMonth with month := t.month, seasons := t.seasons, strideIx := t.strideIx } = t := by
  unfold Thm.nextMonth
  split <;> rfl

/-- When a die's next boundary is due. -/
def State.boundaryAt (s : State) (die : Fin 4) : Nat :=
  s.thm.rotT0.toNat + (s.thm.rotK[die] + 1) * s.monthUs * 1000 + die.val * s.monthUs * 250

theorem execMonthBoundary_early (h : s.running = false ∨ s.thm.rotOn = false ∨ s.clk.gt.toNat < s.boundaryAt die) :
    execMonthBoundary die s = .next s := congrArg _ (if_pos (by simpa [State.boundaryAt] using h))

/-- The thermal logic after a die's boundary. -/
def State.boundaryThm (s : State) (die : Fin 4) : Thm := if die.val = 3 then (s.heldThm die).nextMonth else s.heldThm die

theorem execMonthBoundary_due (hr : s.running = true) (ho : s.thm.rotOn = true) (ha : s.boundaryAt die ≤ s.clk.gt.toNat) :
    execMonthBoundary die s = .next { s with thm := s.boundaryThm die } :=
  congrArg _ (if_neg (by simpa [hr, ho, State.boundaryAt] using ha))

theorem boundaryThm_last (h : die = 3) : s.boundaryThm die = (s.heldThm die).nextMonth := if_pos (by rw [h]; rfl)

theorem boundaryThm_other (h : die ≠ 3) : s.boundaryThm die = s.heldThm die := if_neg fun hv => h (Fin.ext hv)

theorem boundaryThm_frame (s : State) (die : Fin 4) :
    { s.boundaryThm die with month := s.thm.month, seasons := s.thm.seasons, strideIx := s.thm.strideIx } = s.heldThm die := by
  by_cases h : die = 3
  · rw [boundaryThm_last h]
    exact nextMonth_frame (s.heldThm die)
  · rw [boundaryThm_other h]
    rfl

theorem boundaryThm_rotK : (s.boundaryThm die).rotK = (s.heldThm die).rotK :=
  (congrArg Thm.rotK (boundaryThm_frame s die) :)

theorem boundaryThm_holds : (s.boundaryThm die).holds = (s.heldThm die).holds :=
  (congrArg Thm.holds (boundaryThm_frame s die) :)

/-! The rotation of a kind. -/

/-- The hold of a kind on a die. -/
def State.holdOf (s : State) (die : Fin 4) (k : RotKind) : Option Hold := s.thm.holds.find? fun h => h.die == die && h.k == k

theorem holdOf_eq_none (h : ∀ h ∈ s.thm.holds, ¬ (h.die = die ∧ h.k = k)) : s.holdOf die k = none := by
  simpa [State.holdOf] using h

theorem execRotationStep_unheld (h : s.holdOf die k = none) : execRotationStep die k s = .next s := by
  rw [execRotationStep, ← State.holdOf, h]

theorem execRotHoldExpiry_unheld (h : s.holdOf die k = none) : execRotHoldExpiry die k s = .next s := by
  rw [execRotHoldExpiry, ← State.holdOf, h]

theorem execRotationStep_held {h : Hold} (hh : s.holdOf die k = some h) : execRotationStep die k s =
    .next (if !s.kindIdle die.val k then s else { s.endHold die k with
      thm := { (s.endHold die k).thm with off := s.thm.off.set die (s.thm.off[die].add k h.stride) }
      owners := s.owners.filter fun (w : Owner) => !(w.k == rotQ k && w.unit / rotN k == die.val) }) := by
  rw [execRotationStep, ← State.holdOf, hh]
  rfl

theorem execRotHoldExpiry_held {h : Hold} (hh : s.holdOf die k = some h) : execRotHoldExpiry die k s =
    .next (if s.clk.gt.toNat < h.since.toNat + 1000 * h.limit then s
      else { s.endHold die k with thm := { (s.endHold die k).thm with skip := satAdd s.thm.skip 1 } }) := by
  rw [execRotHoldExpiry, ← State.holdOf, hh, Nat.mul_comm 1000]
  rfl

end Rotation

/-- Settles O55: a boundary by what is held and how the month moves on, a held kind by its hold. -/
theorem rotation : Obligations.Rotation := by
  unfold Obligations.Rotation
  refine ⟨fun s die at_ hat => ?_, fun s die k => ⟨fun h => ?_, fun h hh rest hrest => ⟨fun hi => ?_, fun hi => ?_, fun hlt => ?_, fun hge => ?_⟩⟩⟩
  · obtain rfl : at_ = s.boundaryAt die := hat
    refine ⟨execMonthBoundary_early, fun hr ho ha => ⟨_, execMonthBoundary_due hr ho ha, rfl, fun e => ?_, fun h => ?_, fun hd => ?_, fun hd hm => ?_,
      fun hd hm => ?_, ?_⟩⟩
    · rw [← heldThm_rotK, ← boundaryThm_rotK]
    · rw [boundaryThm_holds, mem_heldThm]
      rfl
    · rw [boundaryThm_other hd]
      exact ⟨rfl, rfl, rfl⟩
    · rw [boundaryThm_last hd, nextMonth_of_lt (t := s.heldThm die) hm]
      exact ⟨rfl, rfl, rfl⟩
    · rw [boundaryThm_last hd, nextMonth_of_ge (t := s.heldThm die) hm]
      exact ⟨rfl, rfl, rfl⟩
    · exact congrArg (fun t : Thm => { t with rotK := s.thm.rotK, holds := s.thm.holds }) (boundaryThm_frame s die)
  · have hn := holdOf_eq_none h
    exact ⟨execRotationStep_unheld hn, execRotHoldExpiry_unheld hn⟩
  · rw [exec_rotationStep, execRotationStep_held hh, hi]
    rfl
  · rw [exec_rotationStep, execRotationStep_held hh, hi]
    refine ⟨_, rfl, rfl, rfl, hrest.symm, fun e he => vec_set_ne _ _ _ _ he, ?_, ?_, ?_, ?_, ?_, fun w => ?_⟩
    case refine_6 => simp [-not_and, not_and_or]
    all_goals
      rintro rfl
      exact vec_set_self ..
  · rw [exec_rotHoldExpiry, execRotHoldExpiry_held hh, if_pos hlt]
  · rw [exec_rotHoldExpiry, execRotHoldExpiry_held hh, if_neg (Nat.not_lt.2 hge), hrest]
    rfl

end Sys2Proof.Machine

/-! # The TAP and the LEDs (22 R507, R510, R511, R518) -/

namespace Sys2Proof.Machine

section Tap

variable {s : State} {ir : Byte} {drive : TapDrive}

theorem tapTo_up (hv : s.pwr.vsb = true) : s.tapTo ir drive = { s with tap := { s.tap with ir := ir, drive := drive } } := if_pos hv

theorem tapTo_standby (hv : s.pwr.vsb = false) : s.tapTo ir drive = s := if_neg (by simp [hv])

theorem execTapBypass_taken {c : Byte} (hv : s.pwr.vsb = true) (hc : 8 ≤ c.toNat ∨ c = 0) (hd : c ≠ 0x10) :
    execTapBypass c s = .next { s with tap := { s.tap with ir := c, drive := .mission } } := by
  rw [execTapBypass, if_neg, tapTo_up hv]
  rintro (⟨h1, h7⟩ | h)
  · rcases hc with h8 | rfl
    · omega
    · exact absurd h1 (by decide)
  · exact hd h

theorem tap_standby (hv : s.pwr.vsb = false) :
    (∀ i ∈ [Instr.idcode, .extest, .extestPulse, .extestTrain, .clamp, .highz, .tapReset], exec i s = .next s) ∧
    (∀ v, exec (.samplePreload v) s = .next s) ∧ (∀ c, exec (.tapBypass c) s = .next s) ∧ ∀ w o v, exec (.dbg w o v) s = .next s := by
  simp [execIdcode, execExtest, execExtestPulse, execExtestTrain, execClamp, execHighz, execTapReset, execSamplePreload, execTapBypass, execDbg,
    State.tapTest, tapTo_standby hv, hv]

theorem cells_twoIo (v : BitVec 148) (h : s.fuses.i2 = true) : s.cells v = v := if_pos h

theorem cells_oneIo (v : BitVec 148) (h : s.fuses.i2 = false) (n : Nat) (hn : n < 148) :
    (s.cells v).getLsbD n = (v.getLsbD n && !io1Cells.testBit n) := by
  have hlt : io1Cells < 2 ^ 148 := by decide
  rw [State.cells, if_neg (by simp [h]), BitVec.getLsbD_ofNat, Nat.testBit_and, Nat.sub_sub, Nat.add_comm 1, Nat.testBit_two_pow_sub_succ hlt]
  simp [hn, BitVec.getLsbD]

/-! The debug window through the TAP. -/

theorem execDbg_bypass {w : Bool} {o : BitVec 12} {v : W64} (hv : s.pwr.vsb = true)
    (h : s.dbg.isOpen = false ∨ s.pwr.rails = false ∨ o.toNat % 8 ≠ 0) :
    execDbg w o v s = .next { s with tap := { s.tap with ir := 0x10, drive := .mission } } := by
  rw [execDbg, if_neg (by simp [hv]), tapTo_up hv]
  exact congrArg _ (if_pos (by simpa using h))

theorem execDbg_window {w : Bool} {o : BitVec 12} {v : W64} (hv : s.pwr.vsb = true) (ho : s.dbg.isOpen = true) (hr : s.pwr.rails = true)
    (h8 : o.toNat % 8 = 0) {u : State} (hu : u = { s with tap := { s.tap with ir := 0x10, drive := .mission } }) :
    execDbg w o v s = .next (if w then (u.dbgWrite o.toNat (fld v 0 32)).dbgWrite (o.toNat + 4) (fld v 32 32)
      else { u with tdo := BitVec.ofNat 64 (u.dbgRead o.toNat + u.dbgRead (o.toNat + 4) * 2 ^ 32) }) := by
  rw [execDbg, if_neg (by simp [hv]), tapTo_up hv, ← hu]
  exact congrArg _ (if_neg (by simp [hu, ho, hr, h8]))

theorem fld_upper (v : W64) : fld v 32 32 = v.toNat / 2 ^ 32 := Nat.mod_eq_of_lt (by omega)

/-! The LEDs. -/

/-- The LED of POWER where LOCATE is off (22 Table 22.4). -/
def State.powerLed (s : State) : Led :=
  match s.pwr.st with | .off => .off | .on => .steady | .starting => .blink 1 | .offHold => .blink 1 | .shuttingDown => .blink 4

/-- The LED of RING where LOCATE is off. -/
def State.ringLed (s : State) : Led :=
  if s.ringl.map[0].down ≠ [] then .blink 4
  else match s.ringl.st with | .unjoined => .off | .joined => .steady | .joining => .blink 1 | .leaving => .blink 1

/-- The LED of FAULT where LOCATE is off. -/
def State.faultLed (s : State) : Led :=
  if s.err.fatal ∨ s.pwr.stage = 7 then .steady else if s.anyFenced || s.thm.tray != .valid then .blink 1 else .off

theorem leds_standby (hv : s.pwr.vsb = false) : s.leds = (.off, .off, .off) := if_pos (by simp [hv])

theorem leds_locate (hv : s.pwr.vsb = true) (hl : s.gcr.led = true) : s.leds = (.blink 2, .blink 2, .blink 2) :=
  (if_neg (by simp [hv])).trans (if_pos hl)

theorem leds_rows (hv : s.pwr.vsb = true) (hl : s.gcr.led = false) : s.leds = (s.powerLed, s.ringLed, s.faultLed) :=
  (if_neg (by simp [hv])).trans (if_neg (by simp [hl]))

theorem powerLed_rows (s : State) : (s.powerLed = .off ↔ s.pwr.st = .off) ∧ (s.powerLed = .steady ↔ s.pwr.st = .on) ∧
    (s.powerLed = .blink 4 ↔ s.pwr.st = .shuttingDown) ∧ (s.powerLed = .blink 1 ↔ s.pwr.st = .starting ∨ s.pwr.st = .offHold) := by
  unfold State.powerLed
  cases s.pwr.st <;> decide

theorem ringLed_down : s.ringLed = .blink 4 ↔ s.ringl.map[0].down ≠ [] := by
  unfold State.ringLed
  split
  next h => exact iff_of_true rfl h
  next h => exact iff_of_false (by cases s.ringl.st <;> decide) h

theorem ringLed_whole (h : s.ringl.map[0].down = []) : (s.ringLed = .off ↔ s.ringl.st = .unjoined) ∧ (s.ringLed = .steady ↔ s.ringl.st = .joined) ∧
    (s.ringLed = .blink 1 ↔ s.ringl.st = .joining ∨ s.ringl.st = .leaving) := by
  rw [State.ringLed, if_neg (not_not.2 h)]
  cases s.ringl.st <;> decide

theorem faultLed_rows (s : State) : (s.faultLed = .steady ↔ s.err.fatal = true ∨ s.pwr.stage = 7) ∧
    (s.faultLed = .blink 1 ↔ s.err.fatal = false ∧ s.pwr.stage ≠ 7 ∧ (s.anyFenced = true ∨ s.thm.tray ≠ .valid)) ∧
    (s.faultLed = .off ∨ s.faultLed = .blink 1 ∨ s.faultLed = .steady) := by
  unfold State.faultLed
  split
  next h =>
    refine ⟨iff_of_true rfl h, iff_of_false (by decide) ?_, .inr (.inr rfl)⟩
    rintro ⟨hf, hs, -⟩
    exact h.elim (by simp [hf]) hs
  next h =>
    obtain ⟨hf, hs⟩ := not_or.1 h
    split <;> simp_all

end Tap

/-- Settles O56: every instruction is `State.tapTo` with its code, and each LED is the first row of its column. -/
theorem tapInstructions : Obligations.TapInstructions := by
  unfold Obligations.TapInstructions
  refine fun s => ⟨tap_standby, fun hv => ⟨?_, congrArg _ (tapTo_up hv), ?_, fun v => ⟨s.cells v, ?_, cells_twoIo v, cells_oneIo v⟩,
    fun c => execTapBypass_taken hv, fun w o v => execDbg_bypass hv, fun o v ho hr h8 u hu => ⟨?_, ?_⟩⟩, leds_standby, leds_locate, fun hv hl => ?_⟩
  · rw [exec_idcode, execIdcode, if_pos hv, tapTo_up hv]
  · simp [execExtest, execExtestPulse, execExtestTrain, execClamp, execHighz, State.tapTest, tapTo_up hv]
  · rw [exec_samplePreload, execSamplePreload, if_pos hv, tapTo_up hv]
  · exact execDbg_window hv ho hr h8 hu
  · rw [exec_dbg, execDbg_window hv ho hr h8 hu, fld_zero, fld_upper]
    rfl
  · rw [leds_rows hv hl]
    obtain ⟨p0, p1, p2, p3⟩ := powerLed_rows s
    obtain ⟨f0, f1, f2⟩ := faultLed_rows s
    exact ⟨p0, p1, p2, p3, ringLed_down, ringLed_whole, f0, f1, f2⟩

end Sys2Proof.Machine

/-! # Cluster resets and flash commands (20 R467, R478, Table 20.13) -/

namespace Sys2Proof.Machine

section LittleEndian

theorem ofLe_byte (l : List Byte) (i : Nat) : ofLe l / 256 ^ i % 256 = (l.getD i 0).toNat := by
  induction l generalizing i with
  | nil => simp [ofLe]
  | cons b l ih =>
    have hb := b.isLt
    cases i with
    | zero =>
      simp only [ofLe, pow_zero, Nat.div_one, List.getD_cons_zero]
      omega
    | succ i =>
      rw [List.getD_cons_succ, ← ih, pow_succ', ← Nat.div_div_eq_div_mul, ofLe, show (b.toNat + 256 * ofLe l) / 256 = ofLe l by omega]

theorem leBytes_succ (n v : Nat) : leBytes (n + 1) v = BitVec.ofNat 8 v :: leBytes n (v / 256) := by
  simp [leBytes, List.range_succ_eq_map, Function.comp_def, pow_succ', Nat.div_div_eq_div_mul]

theorem ofLe_leBytes (n v : Nat) : ofLe (leBytes n v) = v % 256 ^ n := by
  induction n generalizing v with
  | zero => simp [leBytes, ofLe, Nat.mod_one]
  | succ n ih =>
    rw [leBytes_succ, ofLe, ih, pow_succ', Nat.mod_mul]
    rfl

theorem pow_256 (i : Nat) : 256 ^ i = 2 ^ (8 * i) := by rw [pow_mul, show 2 ^ 8 = 256 from rfl]

theorem extractLsb'_eq_byte {n : Nat} (x : BitVec n) (i : Nat) : x.extractLsb' (8 * i) 8 = BitVec.ofNat 8 (x.toNat / 256 ^ i) := by
  rw [pow_256, ← Nat.shiftRight_eq_div_pow]
  rfl

theorem extractLsb'_ofLe {n : Nat} (l : List Byte) {i : Nat} (h : 8 * (i + 1) ≤ n) : (BitVec.ofNat n (ofLe l)).extractLsb' (8 * i) 8 = l.getD i 0 := by
  refine BitVec.eq_of_toNat_eq ?_
  rw [← ofLe_byte, extractLsb'_eq_byte, BitVec.toNat_ofNat, BitVec.toNat_ofNat, pow_256]
  obtain ⟨k, rfl⟩ : ∃ k, n = 8 * i + (8 + k) := ⟨n - 8 * (i + 1), by omega⟩
  rw [pow_add 2 (8 * i), Nat.mod_mul_right_div_self, pow_add, Nat.mod_mod_of_dvd _ (Dvd.intro _ rfl),
    show 2 ^ 8 = 256 from rfl]

end LittleEndian

section ClusterReset

variable {s : State} {fn : Fn} {c : Fin 32}

theorem pwrReach_io0 (h : s.fnAlive (.pf 0) = true) : s.pwrReach (.pf 0) = true := by simp [State.pwrReach, h]

theorem pwrReach_false (h : s.fnAlive fn = false ∨ fn ≠ .pf 0) : s.pwrReach fn = false := by
  rcases h with h | h <;> simp [State.pwrReach, h]

theorem clusterFails_running {j : Job} (h : s.cl[c].job.bind s.liveJob = some j) :
    s.clusterFails c = s.except j.id j.ptn c.val c s.cl[c].pc 0 0 exData := by rw [State.clusterFails, h]

theorem clusterFails_idle (h : s.cl[c].job.bind s.liveJob = none) : s.clusterFails c = s := by rw [State.clusterFails, h]

theorem execClusterResetDone_idle (h : s.pwr.clrst.getLsbD c.val = false) : execClusterResetDone c s = .next s :=
  congrArg _ (if_pos (by rw [bit_eq_getLsbD, h]; rfl))

theorem execClusterResetDone_resetting (h : s.pwr.clrst.getLsbD c.val = true) : execClusterResetDone c s = .next
    { s.modC c fun k => { Cluster.reset with owner := k.owner, trace := k.trace, traceTotal := k.traceTotal, traceCyc := k.traceCyc } with
      pwr := { s.pwr with clrst := setBit s.pwr.clrst c.val false }
      owners := s.owners.filter fun (w : Owner) => !((w.k == .mxa && w.unit == s.physUnit .mxa c.val) ||
        (w.k == .mvp && w.unit == s.physUnit .mvp c.val) || (w.k == .ssu && w.unit == s.physUnit .ssu c.val)) } :=
  congrArg _ (if_neg (by rw [bit_eq_getLsbD, h]; decide))

end ClusterReset

section Flash

variable {s : State} {op : Nat}

theorem flashCmd_off (h : s.pwr.st ≠ .on) : s.flashCmd op = s := by rw [State.flashCmd, if_pos (.inl h)]

theorem flashCmd_dropped (hon : s.pwr.st = .on) (hop : op % 4 ≠ 0) (hb : s.pwr.flashOp ≠ 0) :
    s.flashCmd op = { s with pwr := { s.pwr with flashDropped := true } } := by
  rw [State.flashCmd, if_neg (by simp [hon, hop]), if_pos hb]

theorem flashCmd_idle (hon : s.pwr.st = .on) (hop : op % 4 ≠ 0) (hb : s.pwr.flashOp = 0) : s.flashCmd op = { s with pwr :=
    if s.pwr.flashAddr.toNat % (if op % 4 = 3 then 65536 else 256) ≠ 0 then { s.pwr with flashErr := true }
    else { s.pwr with flashOp := BitVec.ofNat 2 op, flashAt := s.pwr.flashAddr } } := by
  rw [State.flashCmd, if_neg (by simp [hon, hop]), if_neg (not_not.2 hb)]

/-! What a completed command leaves. -/

theorem sget_flashPut_from (f : Cells) (a k : Nat) (bs : List Byte) (x : Nat) :
    sget 0xFF ((bs.zipIdx k).foldl (fun m y => sput 0xFF m (a + y.2) y.1) f) x =
      if a + k ≤ x ∧ x < a + k + bs.length then bs.getD (x - (a + k)) 0 else sget 0xFF f x := by
  induction bs generalizing f k with
  | nil => simp
  | cons b t ih =>
    rw [List.zipIdx_cons, List.foldl_cons, ih, sget_sput, List.length_cons]
    by_cases hx : x = a + k
    · subst hx
      simp
    · by_cases h1 : a + (k + 1) ≤ x ∧ x < a + (k + 1) + t.length
      · rw [if_pos h1, if_pos (by omega), show x - (a + k) = x - (a + (k + 1)) + 1 by omega, List.getD_cons_succ]
      · rw [if_neg h1, if_neg hx, if_neg (by omega)]

theorem sget_flashPut (f : Cells) (a : Nat) (bs : List Byte) (x : Nat) :
    sget 0xFF (flashPut f a bs) x = if a ≤ x ∧ x < a + bs.length then bs.getD (x - a) 0 else sget 0xFF f x :=
  sget_flashPut_from f a 0 bs x

/-- What programming leaves of a range: a byte takes only zeros from the buffer (log 7). -/
def programmed (f : Cells) (a : Nat) (buf : BitVec 2048) : List Byte :=
  ((flashBytes f a 256).zip (leBytes 256 buf.toNat)).map fun x => x.1 &&& x.2

theorem flashBytes_getD (f : Cells) (a : Nat) {n i : Nat} (h : i < n) : (flashBytes f a n).getD i 0 = sget 0xFF f (a + i) := by
  simp [flashBytes, List.getD, h]

theorem programmed_length (f : Cells) (a : Nat) (buf : BitVec 2048) : (programmed f a buf).length = 256 := by
  simp [programmed, flashBytes, leBytes_length]

theorem programmed_getD (f : Cells) (a : Nat) (buf : BitVec 2048) {i : Nat} (h : i < 256) :
    (programmed f a buf).getD i 0 = sget 0xFF f (a + i) &&& buf.extractLsb' (8 * i) 8 := by
  rw [extractLsb'_eq_byte]
  simp [programmed, flashBytes, leBytes, List.getD, h]

theorem execFlashCmdDone_idle {ok : Bool} (h : s.pwr.flashOp = 0) : execFlashCmdDone ok s = .next s := by simp [execFlashCmdDone, h]

theorem execFlashCmdDone_read (h : s.pwr.flashOp = 1) : execFlashCmdDone true s = .next { s with pwr := { s.pwr with
    flashOp := 0, flashBuf := BitVec.ofNat 2048 (ofLe (flashBytes s.pwr.flash s.pwr.flashAt.toNat 256)) } } := by
  simp [execFlashCmdDone, h]

/-- A command that changes the flash is complete. -/
def State.flashed (s : State) (f : Cells) : State := { s with pwr := { s.pwr with flashOp := 0, flash := f } }

theorem flashed_frame (s : State) (f : Cells) : s.flashed f = { s with pwr := { s.pwr with flashOp := 0, flash := (s.flashed f).pwr.flash } } := rfl

theorem flashed_flash (s : State) (f : Cells) : (s.flashed f).pwr.flash = f := rfl

theorem execFlashCmdDone_program (h : s.pwr.flashOp = 2) : execFlashCmdDone true s =
    .next (s.flashed (flashPut s.pwr.flash s.pwr.flashAt.toNat (programmed s.pwr.flash s.pwr.flashAt.toNat s.pwr.flashBuf))) := by
  simp [execFlashCmdDone, State.flashed, programmed, h]

theorem execFlashCmdDone_erase (h : s.pwr.flashOp = 3) : execFlashCmdDone true s =
    .next (s.flashed (sclear s.pwr.flash s.pwr.flashAt.toNat 65536)) := by
  simp [execFlashCmdDone, State.flashed, h]

/-- A command that fails leaves its target free and ends with FLASH_ERR. -/
theorem execFlashCmdDone_failed (h : s.pwr.flashOp ≠ 0) : ∃ n b f, execFlashCmdDone false s = .next { s with free := n, pwr := { s.pwr with
    flashErr := true, flashOp := 0, flashBuf := b, flash := f } } := by
  have hop : ∀ x : BitVec 2, x ≠ 0 → x = 1 ∨ x = 2 ∨ x = 3 := by decide
  rcases hop _ h with h | h | h <;> simp [execFlashCmdDone, h]

end Flash

/-- Settles O50: the reset of a cluster, a flash command by its guards, and what a completed one leaves at each address. -/
theorem clusterResetAndFlash : Obligations.ClusterResetAndFlash := by
  unfold Obligations.ClusterResetAndFlash
  refine ⟨fun s mask hf => ?_, fun s fn h => ?_, fun s c => ⟨fun j => clusterFails_running, clusterFails_idle, execClusterResetDone_idle, fun h =>
    ⟨_, execClusterResetDone_resetting h, rfl, fun d hd => vec_set_ne _ _ _ _ hd, vec_set_self .., rfl, fun w => ?_⟩⟩, ?_⟩
  · have hr := pwrReach_io0 hf
    simp only [exec_pwrClrst, exec_flashRead, exec_flashProgram, exec_flashErase, execPwrClrst, execFlashRead, execFlashProgram, execFlashErase, hr,
      if_true, List.forall_mem_cons, List.not_mem_nil, false_imp_iff, implies_true, and_true]
    refine ⟨fun hoff => ?_, fun hon => congrArg _ (if_neg (not_not.2 hon)), fun hon => ⟨fun hb => ?_, fun hb => ?_⟩⟩
    · simp only [flashCmd_off hoff, and_self, and_true]
      exact congrArg _ (if_pos hoff)
    · simp [flashCmd_dropped hon _ hb]
    · simp +contextual [flashCmd_idle hon _ hb]
  · have hr := pwrReach_false h
    simp [execPwrClrst, execFlashRead, execFlashProgram, execFlashErase, hr]
  · simp [-not_and, not_and_or, and_assoc]
  · rintro s a rfl
    refine ⟨fun h ok => execFlashCmdDone_idle h, fun h => ⟨_, execFlashCmdDone_read h, rfl, fun i hi => ?_⟩,
      fun h => ⟨_, execFlashCmdDone_program h, flashed_frame .., fun x => ?_⟩,
      fun h => ⟨_, execFlashCmdDone_erase h, flashed_frame .., fun x => sget_sclear ..⟩, fun h => ?_⟩
    · rw [← flashBytes_getD _ _ hi]
      exact extractLsb'_ofLe _ (by omega)
    · rw [flashed_flash, sget_flashPut, programmed_length]
      refine ite_congr rfl (fun hx => ?_) fun _ => rfl
      rw [programmed_getD _ _ _ (by omega), Nat.add_sub_cancel' hx.1]
    · obtain ⟨n, b, f, ht⟩ := execFlashCmdDone_failed h
      exact ⟨_, ht, rfl, rfl, rfl, rfl⟩

end Sys2Proof.Machine

/-! # Debug access (22 R512, R514-R517) -/

namespace Sys2Proof.Machine

section DebugAccess

variable {s : State} {fn : Fn} {mask : W32} {c : Fin 32}

/-! The lock. -/

theorem execDbgGo_reach (h : s.pwrReach fn = true) : execDbgGo fn s = .next { s with dbg := s.dbg.go } := congrArg _ (if_pos h)

theorem execRelock_reach (h : s.pwrReach fn = true) : execRelock fn s = .next { s with dbg := s.dbg.relock } := congrArg _ (if_pos h)

theorem execDbgHalt_reach (h : s.pwrReach fn = true) : execDbgHalt fn mask s = .next (s.haltCmd mask) := congrArg _ (if_pos h)

theorem execDbgStep_reach (h : s.pwrReach fn = true) : execDbgStep fn mask s = .next (s.stepCmd mask) := congrArg _ (if_pos h)

theorem debug_unreached (h : s.pwrReach fn = false) : execDbgGo fn s = .next s ∧ execRelock fn s = .next s ∧
    ∀ m, execDbgHalt fn m s = .next s ∧ execDbgStep fn m s = .next s := by
  simp [execDbgGo, execRelock, execDbgHalt, execDbgStep, h]

theorem go_busy {d : Dbg} (h : d.busy = true) : d.go = d := if_pos h

theorem relock_busy {d : Dbg} (h : d.busy = true) : d.relock = d := if_pos h

theorem go_idle {d : Dbg} (h : d.busy = false) : d.go = if d.refused then { d with result := 4 } else { d with busy := true } := if_neg (by simp [h])

theorem relock_idle {d : Dbg} (h : d.busy = false) : d.relock = { d with isOpen := false, scope := 0, halt := 0, traceEn := 0 } :=
  if_neg (by simp [h])

theorem grants_eq (d : Dbg) (i : Nat) : d.grants i = (d.isOpen && d.scope.getLsbD i) := rfl

/-! Halts and steps. -/

theorem haltCmd_granted (h : s.dbg.grants 0 = true) : s.haltCmd mask = { s with dbg := { s.dbg with halt := mask } } := if_pos h

theorem haltCmd_closed (h : s.dbg.grants 0 = false) : s.haltCmd mask = s := if_neg (by simp [h])

theorem stepCmd_granted (h : s.dbg.grants 0 = true) :
    s.stepCmd mask = s.each ((List.finRange 32).filter fun c => mask.getLsbD c.val) State.stepOne := if_pos h

theorem stepCmd_closed (h : s.dbg.grants 0 = false) : s.stepCmd mask = s := if_neg (by simp [h])

theorem stepOne_running (h : s.dbg.halt.getLsbD c.val = false) : s.stepOne c = s := if_pos (by rw [bit_eq_getLsbD, h]; rfl)

theorem stepOne_halted (h : s.dbg.halt.getLsbD c.val = true) (hst : s.cl[c].stall = .none) :
    s.stepOne c = ((s.setHalt c false).issueAt c).setHalt c true := by
  have hst' : (s.setHalt c false).cl[c].stall = .none := hst
  rw [State.stepOne, if_neg (by rw [bit_eq_getLsbD, h]; decide)]
  dsimp only
  rw [hst']

/-- The length of the instruction whose first word is `w` (05 R113). -/
def insnSize (w : Nat) : Nat := if w / 2 ^ 28 % 16 = 14 then 8 else 4

section IssueAt

variable {j : Job} {w : Nat} (hj : s.cl[c].job.bind s.job? = some j) (hi : s.canIssue c = true)
  (hw : w = rdLe s.cl[c].istore s.cl[c].pc.toNat 4)

include hj hi hw

theorem issueAt_past (ht : s.cl[c].textEnd < s.cl[c].pc.toNat + insnSize w) :
    s.issueAt c = s.except j.id j.ptn c.val c s.cl[c].pc 0 0 exPcRange := by
  subst hw
  rw [State.issueAt, hj]
  exact (if_neg (by simp [hi])).trans (if_pos ht)

theorem issueAt_runs {v : Nat} (hv : v = rdLe s.cl[c].istore (s.cl[c].pc.toNat + 4) 4) {i : Instr} {t : State}
    (ht : s.cl[c].pc.toNat + insnSize w ≤ s.cl[c].textEnd)
    (hd : decodeWord (fun sp => fld (s.cl[c].rs sp) 12 3) c w v = some i) (hr : runInsn i s = .next t) : s.issueAt c = t := by
  subst hw hv
  rw [State.issueAt, hj]
  refine (if_neg (by simp [hi])).trans ((if_neg (Nat.not_lt.2 ht)).trans ?_)
  rw [hd]
  dsimp only
  rw [hr]

end IssueAt

/-! The unlock block. -/

theorem drop_leBytes (n v lo : Nat) : (leBytes n v).drop lo = leBytes (n - lo) (v / 256 ^ lo) :=
  List.ext_getElem (by simp [leBytes]) fun i _ _ => by simp [leBytes, Nat.div_div_eq_div_mul, pow_add]

theorem take_leBytes (n v k : Nat) (h : k ≤ n) : (leBytes n v).take k = leBytes k v :=
  List.ext_getElem (by simp [leBytes, h]) fun i _ _ => by simp [leBytes]

theorem sliceLe_leBytes {n lo k : Nat} (v : Nat) (h : lo + k ≤ n) : sliceLe (leBytes n v) lo k = v / 256 ^ lo % 256 ^ k := by
  rw [sliceLe, drop_leBytes, take_leBytes _ _ _ (by omega), ofLe_leBytes]

theorem block_scope (b : BitVec 1664) : BitVec.ofNat 2 (sliceLe (leBytes 208 b.toNat) 6 2) = b.extractLsb' 48 2 := by
  refine BitVec.eq_of_toNat_eq ?_
  rw [sliceLe_leBytes _ (by decide), BitVec.toNat_ofNat, BitVec.extractLsb'_toNat, Nat.shiftRight_eq_div_pow]
  omega

theorem execDbgVerifyDone_idle (h : s.dbg.busy = false) : execDbgVerifyDone s = .next s := congrArg _ (if_pos (by simp [h]))

theorem execDbgVerifyDone_busy (h : s.dbg.busy = true) {d : Dbg} {code : Nat} (hc : code = s.unlockCode (leBytes 208 s.dbg.block.toNat))
    (hd : d = { s.dbg with busy := false, challenge := Config.challenge s.free, result := BitVec.ofNat 3 code }) :
    execDbgVerifyDone s = .next { s with free := s.free + 1, dbg :=
      if code = 0 then { d with isOpen := true, scope := s.dbg.block.extractLsb' 48 2 }
      else { d with fails := s.dbg.fails + 1, refused := decide (7 ≤ s.dbg.fails.toNat) } } := by
  have hfail : decide (8 ≤ s.dbg.fails.toNat + 1) = decide (7 ≤ s.dbg.fails.toNat) := decide_eq_decide.2 (by omega)
  subst hd hc
  rw [← block_scope, ← hfail]
  exact congrArg _ (if_neg (by simp [h]))

end DebugAccess

/-- Settles O57: the lock's commands, a step through `State.issueAt`, and the two ends of a verification. -/
theorem debugAccess : Obligations.DebugAccess := by
  unfold Obligations.DebugAccess
  refine ⟨fun s fn h => debug_unreached (pwrReach_false h), fun s hf => ?_, fun s c => ⟨stepOne_running, fun hh => ?_⟩,
    fun s => ⟨execDbgVerifyDone_idle, fun hb d hd => ?_⟩⟩
  · have hr := pwrReach_io0 hf
    rw [exec_dbgGo, exec_relock, execDbgGo_reach hr, execRelock_reach hr]
    refine ⟨fun hb => ?_, fun hb => ?_, fun m => ?_⟩
    · rw [go_busy hb, relock_busy hb]
      exact ⟨rfl, rfl⟩
    · rw [go_idle hb, relock_idle hb]
      exact ⟨rfl, rfl⟩
    · rw [exec_dbgHalt, exec_dbgStep, execDbgHalt_reach hr, execDbgStep_reach hr]
      refine ⟨fun ho hs => ?_, fun h => ?_⟩
      · have hg : s.dbg.grants 0 = true := by rw [grants_eq, ho, hs]; rfl
        rw [haltCmd_granted hg, stepCmd_granted hg]
        exact ⟨rfl, rfl⟩
      · have hg : s.dbg.grants 0 = false := by rw [grants_eq]; rcases h with h | h <;> simp only [h, Bool.false_and, Bool.and_false]
        rw [haltCmd_closed hg, stepCmd_closed hg]
        exact ⟨rfl, rfl⟩
  · intro u k w v size j hj hi hst
    rw [stepOne_halted hh hst]
    refine ⟨fun ht => congrArg (State.setHalt · c true) (issueAt_past (s := u) hj hi rfl ht),
      fun ht i t hd hr => congrArg (State.setHalt · c true) (issueAt_runs (s := u) hj hi rfl rfl ht hd hr)⟩
  · rw [exec_dbgVerifyDone, execDbgVerifyDone_busy hb rfl hd]
    exact ⟨fun h0 => by rw [if_pos h0], fun h0 => by rw [if_neg h0]⟩

end Sys2Proof.Machine
